-- ==== Sys2Proof/Word.lean ====
section
/-! DEFINITION. The bit widths the manual names (R34, R48, R73): instruction words, scalar and vector
values, memory bytes and 64-byte beats. -/
namespace Sys2Proof

/-- An instruction word (R34). -/
abbrev Word := BitVec 32
/-- A byte of scratchpad, HBM or host memory (R3). -/
abbrev Byte := BitVec 8
/-- A scalar value (R48, R123). -/
abbrev W64 := BitVec 64
/-- A 2048-bit vector value (R73). -/
abbrev V2048 := BitVec 2048
/-- A 64-byte beat of a copy (R258). -/
abbrev Beat512 := BitVec 512

end Sys2Proof
end

