-- ==== Sys2Proof/Machine/Bits.lean ====
section
/-! DEFINITION. Bit fields, sign extension and byte order (R3, R62). -/
namespace Sys2Proof.Machine

/-- The field [lo + len - 1 : lo] of a number. -/
def bitsOf (v lo len : Nat) : Nat := (v >>> lo) % 2 ^ len

/-- The field [hi : lo] of a 64-bit value (R62). -/
def fld (v : W64) (hi lo : Nat) : Nat := bitsOf v.toNat lo (hi + 1 - lo)

/-- Whether every bit of a control word outside the mask is zero. -/
def within (v : W64) (mask : Nat) : Bool := v.toNat &&& mask == v.toNat

/-- The mask with ones in [hi : lo]. -/
def ones (hi lo : Nat) : Nat := (2 ^ (hi + 1 - lo) - 1) <<< lo

/-- A two's-complement field of `len` bits as an integer (R62). -/
def sextInt (v len : Nat) : Int :=
  let x := v % 2 ^ len
  if 2 * x < 2 ^ len then (x : Int) else (x : Int) - (2 : Int) ^ len

/-- The low `len` bits of an integer, as two's complement. -/
def wrapInt (x : Int) (len : Nat) : Nat := (x % (2 : Int) ^ len).toNat

/-- A number's digits of `w` bits, least significant first: `n` of them. -/
def digits (w : Nat) : Nat → Nat → List Nat
  | 0, _ => []
  | n + 1, v => (v % 2 ^ w) :: digits w n (v >>> w)

/-- The number whose digits of `w` bits are given, least significant first. -/
def ofDigits (w : Nat) : List Nat → Nat
  | [] => 0
  | d :: ds => d % 2 ^ w + (ofDigits w ds) <<< w

/-- `lo, lo + 1, …`: `n` numbers. -/
def rangeFrom : Nat → Nat → List Nat
  | _, 0 => []
  | lo, n + 1 => lo :: rangeFrom (lo + 1) n

/-- `0, 1, …, n - 1`. -/
def upto (n : Nat) : List Nat := rangeFrom 0 n

/-- Bit n of a number. -/
def bit (v n : Nat) : Bool := v.testBit n

/-- ⌈a / b⌉. -/
def ceilDiv (a b : Nat) : Nat := (a + b - 1) / b

/-- The number with the bits of a Boolean list, bit 0 first. -/
def ofBits (bs : List Bool) : Nat := ofDigits 1 (bs.map fun b => if b then 1 else 0)

/-- The numbers of bits set in a number among its `n` low bits. -/
def popCount (v n : Nat) : Nat := (upto n).foldl (fun s k => if bit v k then s + 1 else s) 0

/-- The first element of a list that meets a test, with its position. -/
def findPos (p : α → Bool) : List α → Option Nat
  | [] => none
  | x :: xs => if p x then some 0 else (findPos p xs).map (· + 1)

/-- Insert into a list sorted by a key, after the elements of equal key. -/
def insertBy (key : α → Nat) (x : α) : List α → List α
  | [] => [x]
  | y :: ys => if key x < key y then x :: y :: ys else y :: insertBy key x ys

/-- Stable sort by a key. -/
def sortBy (key : α → Nat) (xs : List α) : List α := xs.foldl (fun acc x => insertBy key x acc) []

/-- Apply a function that may stop to each element in turn. -/
def foldE (f : β → α → Except ε β) : β → List α → Except ε β
  | b, [] => .ok b
  | b, x :: xs =>
    match f b x with
    | .ok b' => foldE f b' xs
    | .error e => .error e

end Sys2Proof.Machine
end

