-- ==== Sys2Proof/Machine/Flags.lean ====
section
/-! DEFINITION. The sticky floating-point flags of FLAGS (R92). -/
namespace Sys2Proof.Machine

/-- A set of flags, laid out as FLAGS[4:0] (R92). -/
abbrev Flags := BitVec 5

def Flags.none_ : Flags := 0
/-- R90 -/
def Flags.invalid : Flags := 0b00001
/-- R88 -/
def Flags.overflow : Flags := 0b00010
/-- R89 -/
def Flags.underflow : Flags := 0b00100
/-- R87, R96 -/
def Flags.inexact : Flags := 0b01000
/-- R88, R90 -/
def Flags.saturate : Flags := 0b10000

/-- The flag if the condition holds. -/
def Flags.when (b : Bool) (f : Flags) : Flags := if b then f else 0

/-- The union of the flags of all elements (R93). -/
def Flags.union (fs : List Flags) : Flags := fs.foldl (· ||| ·) 0

end Sys2Proof.Machine
end

