-- ==== Sys2Proof/Machine/Numbers.lean ====
section
/-! DEFINITION. Number formats and exact arithmetic (R72-R102): format codes, exact values, the rounding of an exact value to
a format with its flags, sums, products, quotients and the four correctly rounded functions. -/
namespace Sys2Proof.Machine

/-! ## Formats (R72-R78) -/

/-- Width in bits of an element of a format code (R72); 0 for the reserved codes. -/
def widthOf (t : Nat) : Nat :=
  match t with
  | 0 | 1 | 5 | 6 => 8
  | 2 | 7 | 8 => 16
  | 3 | 9 => 32
  | 4 | 13 => 4
  | 10 | 11 => 64
  | 12 => 128
  | _ => 0

def isReserved (t : Nat) : Bool := 14 ≤ t
/-- INT4, INT8, INT16, INT32 (R74). -/
def isSigned (t : Nat) : Bool := t == 0 || t == 2 || t == 3 || t == 13
def isInt (t : Nat) : Bool := isSigned t || t == 1
def isFloat (t : Nat) : Bool := 4 ≤ t && t ≤ 10
def isComplex (t : Nat) : Bool := t == 11 || t == 12

/-- The format of one part of a complex format (R78); any other format is its own part. -/
def partOf (t : Nat) : Nat := if t == 11 then 9 else if t == 12 then 10 else t

/-- How a floating-point format spends its top exponent (R76). -/
inductive Special where
  /-- FP4: neither infinity nor NaN -/
  | none
  /-- E4M3: NaN only -/
  | nanOnly
  | ieee
  deriving DecidableEq, Repr

/-- A floating-point format (R75): width, precision p, bias, and its special encodings. -/
structure FF where
  w : Nat
  p : Nat
  bias : Nat
  sp : Special
  deriving DecidableEq, Repr

def FF.fp4 : FF := { w := 4, p := 2, bias := 1, sp := .none }
def FF.e4m3 : FF := { w := 8, p := 4, bias := 7, sp := .nanOnly }
def FF.e5m2 : FF := { w := 8, p := 3, bias := 15, sp := .ieee }
def FF.fp16 : FF := { w := 16, p := 11, bias := 15, sp := .ieee }
def FF.bf16 : FF := { w := 16, p := 8, bias := 127, sp := .ieee }
def FF.fp32 : FF := { w := 32, p := 24, bias := 127, sp := .ieee }
def FF.fp64 : FF := { w := 64, p := 53, bias := 1023, sp := .ieee }

/-- The floating-point format of a code. -/
def ffOf (t : Nat) : FF :=
  match t with
  | 4 => .fp4
  | 5 => .e4m3
  | 6 => .e5m2
  | 7 => .fp16
  | 8 => .bf16
  | 9 => .fp32
  | _ => .fp64

/-- Exponent of the smallest normal value (R75). -/
def FF.emin (f : FF) : Int := 1 - (f.bias : Int)
/-- The code of +∞ in a format that has one (R76). -/
def FF.infCode (f : FF) : Nat := 2 ^ (f.w - 1) - 2 ^ (f.p - 1)
/-- The code of the largest finite value (R75, R76). -/
def FF.maxCode (f : FF) : Nat :=
  match f.sp with
  | .none => 2 ^ (f.w - 1) - 1
  | .nanOnly => 2 ^ (f.w - 1) - 2
  | .ieee => f.infCode - 1
/-- The canonical NaN (R77). FP4 has none: a NaN converted to FP4 gives +0 (R90). -/
def FF.cnan (f : FF) : Nat :=
  match f.sp with
  | .none => 0
  | .nanOnly => 2 ^ (f.w - 1) - 1
  | .ieee => f.infCode + 2 ^ (f.p - 2)
def FF.signBit (f : FF) (neg : Bool) : Nat := if neg then 2 ^ (f.w - 1) else 0

/-! ## Exact values -/

/-- An exact real value ±(m + δ) × 2^e; δ = 0, or 0 < δ < 1 where `sticky`. A zero keeps its sign. -/
structure Ex where
  neg : Bool
  m : Nat
  e : Int
  sticky : Bool
  deriving DecidableEq, Repr

/-- A value as the helpers of R94 hold it. -/
inductive Num where
  | nan
  | inf (neg : Bool)
  | fin (x : Ex)
  deriving DecidableEq, Repr

def Ex.ofNat (n : Nat) (e : Int) : Ex := { neg := false, m := n, e := e, sticky := false }
def Ex.ofInt (n : Int) : Ex := { neg := n < 0, m := n.natAbs, e := 0, sticky := false }
def Ex.isZero (x : Ex) : Bool := x.m == 0 && !x.sticky
/-- Exponent of the leading bit of a nonzero value. -/
def Ex.lead (x : Ex) : Int := (Nat.log2 x.m : Int) + x.e

def Num.isZero : Num → Bool
  | .fin x => x.isZero
  | _ => false
def Num.isNan : Num → Bool
  | .nan => true
  | _ => false
def Num.isInf : Num → Bool
  | .inf _ => true
  | _ => false
def Num.neg : Num → Bool
  | .nan => false
  | .inf n => n
  | .fin x => x.neg
def Num.negate : Num → Num
  | .nan => .nan
  | .inf n => .inf (!n)
  | .fin x => .fin { x with neg := !x.neg }
def Num.zero : Num := .fin { neg := false, m := 0, e := 0, sticky := false }

/-- `val(c, F)` of a floating-point format (R75, R76). -/
def FF.val (f : FF) (c : Nat) : Num :=
  let neg := bit c (f.w - 1)
  let mag := bitsOf c 0 (f.w - 1)
  if f.sp = .ieee && mag == f.infCode then .inf neg
  else if mag > f.maxCode then .nan
  else
    let ef := mag >>> (f.p - 1)
    let mf := bitsOf mag 0 (f.p - 1)
    if ef == 0 then .fin { neg := neg, m := mf, e := f.emin - (f.p - 1 : Nat), sticky := false }
    else .fin { neg := neg, m := 2 ^ (f.p - 1) + mf, e := (ef : Int) - f.bias - (f.p - 1 : Nat), sticky := false }

/-- The integer an integer code denotes (R74). -/
def intVal (t c : Nat) : Int := if isSigned t then sextInt c (widthOf t) else (c : Int)

/-- `val(c, F)` of a format code that is not complex (R94). -/
def valOf (t c : Nat) : Num := if isInt t then .fin (.ofInt (intVal t c)) else (ffOf t).val c

/-- The E3M5 fine scale (R79). -/
def fineVal (c : Nat) : Ex :=
  let ef := bitsOf c 5 3
  let mf := bitsOf c 0 5
  if ef == 0 then .ofNat mf (-7) else .ofNat (32 + mf) ((ef : Int) - 8)

/-! ## Rounding (R86-R91) -/

/-- Whether a magnitude truncated to M with the given remainder rounds away from zero (R87). `half` says how the remainder
stands to one half: less, equal or greater. -/
def roundsUp (rm : Nat) (neg odd : Bool) (half : Ordering) (exact : Bool) : Bool :=
  if exact then false
  else match rm with
    | 0 => half == .gt || (half == .eq && odd)
    | 1 => false
    | 2 => !neg
    | _ => neg

/-- A magnitude m × 2^e (plus sticky) cut at the grid 2^g: the truncated multiple, how the rest stands to half a step, and
whether the rest is zero. A sticky value must lie on a grid finer than 2^g. -/
def cutAt (x : Ex) (g : Int) : Nat × Ordering × Bool :=
  if g ≤ x.e then (x.m <<< (x.e - g).toNat, .lt, !x.sticky)
  else
    let d := (g - x.e).toNat
    let q := x.m >>> d
    let r := x.m - q <<< d
    let h := 2 ^ (d - 1)
    (q, if r < h then .lt else if r == h && !x.sticky then .eq else .gt, r == 0 && !x.sticky)

/-- The result of an overflow (R88). -/
def FF.overflowed (f : FF) (rm : Nat) (neg : Bool) : Nat × Flags :=
  match f.sp with
  | .ieee =>
    let big := match rm with
      | 0 => true
      | 1 => false
      | 2 => !neg
      | _ => neg
    (f.signBit neg + (if big then f.infCode else f.maxCode), Flags.overflow ||| Flags.inexact)
  | _ => (f.signBit neg + f.maxCode, Flags.saturate ||| Flags.inexact)

/-- `round` of an exact value to a floating-point format (R87-R89); a zero keeps its sign. -/
def FF.roundEx (f : FF) (rm : Nat) (x : Ex) : Nat × Flags :=
  if x.m == 0 then (f.signBit x.neg, 0)
  else
    let tiny := x.lead < f.emin
    let q := if tiny then f.emin else x.lead
    let (m0, half, exact) := cutAt x (q - (f.p - 1 : Nat))
    let m1 := if roundsUp rm x.neg (m0 % 2 == 1) half exact then m0 + 1 else m0
    let code := (q - f.emin).toNat <<< (f.p - 1) + m1
    if code > f.maxCode then f.overflowed rm x.neg
    else (f.signBit x.neg + code, Flags.when (!exact) .inexact ||| Flags.when (tiny && !exact) .underflow)

/-- `round` of a value to a floating-point format, with the special values of R77, R88 and R90. -/
def FF.round (f : FF) (rm : Nat) : Num → Nat × Flags
  | .nan => (f.cnan, Flags.when (f.sp = .none) .invalid)
  | .inf neg =>
    match f.sp with
    | .ieee => (f.signBit neg + f.infCode, 0)
    | _ => (f.signBit neg + f.maxCode, Flags.saturate)
  | .fin x => f.roundEx rm x

/-- The range of an integer format (R74). -/
def intLo (t : Nat) : Int := if isSigned t then -((2 : Int) ^ (widthOf t - 1)) else 0
def intHi (t : Nat) : Int := if isSigned t then (2 : Int) ^ (widthOf t - 1) - 1 else (2 : Int) ^ widthOf t - 1

/-- `sat` of an integer into an integer format (R94). -/
def satInt (t : Nat) (n : Int) : Nat × Flags :=
  let lo := intLo t
  let hi := intHi t
  if n < lo then (wrapInt lo (widthOf t), Flags.saturate)
  else if hi < n then (wrapInt hi (widthOf t), Flags.saturate)
  else (wrapInt n (widthOf t), 0)

/-- `round` to an integer format (R90). -/
def roundInt (t rm : Nat) : Num → Nat × Flags
  | .nan => (0, Flags.invalid)
  | .inf neg => (wrapInt (if neg then intLo t else intHi t) (widthOf t), Flags.saturate)
  | .fin x =>
    let (m0, half, exact) := cutAt x 0
    let m1 := if roundsUp rm x.neg (m0 % 2 == 1) half exact then m0 + 1 else m0
    let (c, f) := satInt t (if x.neg then -(m1 : Int) else (m1 : Int))
    (c, f ||| Flags.when (!exact) .inexact)

/-- `round(x, F, rm)` for any format code that is not complex (R94). -/
def roundTo (t rm : Nat) (x : Num) : Nat × Flags :=
  if isInt t then roundInt t rm x else (ffOf t).round rm x

/-! ## Exact arithmetic (R90, R91) -/

/-- The signed numerator of a value on the grid 2^g, for g not above its exponent. -/
def Ex.onGrid (x : Ex) (g : Int) : Int :=
  let n : Int := (x.m <<< (x.e - g).toNat : Nat)
  if x.neg then -n else n

/-- The exact sum of two finite values; an exact zero is +0, or -0 in RDN, and a sum of zeros of one sign keeps the sign
(R91). -/
def addEx (rm : Nat) (x y : Ex) : Ex :=
  if x.m == 0 && y.m == 0 then
    { neg := if x.neg == y.neg then x.neg else rm == 3, m := 0, e := 0, sticky := false }
  else if x.m == 0 then y
  else if y.m == 0 then x
  else
    let g := if x.e ≤ y.e then x.e else y.e
    let s := x.onGrid g + y.onGrid g
    { neg := if s == 0 then rm == 3 else s < 0, m := s.natAbs, e := g, sticky := false }

/-- A sum of two values with the invalid case ∞ − ∞ (R90). -/
def addNum (rm : Nat) : Num → Num → Num × Flags
  | .nan, _ => (.nan, 0)
  | _, .nan => (.nan, 0)
  | .inf a, .inf b => if a == b then (.inf a, 0) else (.nan, Flags.invalid)
  | .inf a, .fin _ => (.inf a, 0)
  | .fin _, .inf b => (.inf b, 0)
  | .fin x, .fin y => (.fin (addEx rm x y), 0)

/-- A product. A zero product has the sign that the factors' signs give: the model's choice where the spec gives none (log 80). -/
def mulEx (x y : Ex) : Ex := { neg := x.neg != y.neg, m := x.m * y.m, e := x.e + y.e, sticky := false }

/-- A product of two values with the invalid case 0 × ∞ (R90). -/
def mulNum : Num → Num → Num × Flags
  | .nan, _ => (.nan, 0)
  | _, .nan => (.nan, 0)
  | .inf a, .inf b => (.inf (a != b), 0)
  | .inf a, .fin y => if y.isZero then (.nan, Flags.invalid) else (.inf (a != y.neg), 0)
  | .fin x, .inf b => if x.isZero then (.nan, Flags.invalid) else (.inf (x.neg != b), 0)
  | .fin x, .fin y => (.fin (mulEx x y), 0)

/-- a × b + c formed exactly; 0 × ∞ is invalid whatever the addend (R174). -/
def fmaNum (rm : Nat) (a b c : Num) : Num × Flags :=
  let (p, f) := mulNum a b
  if f != 0 then (.nan, f)
  else
    let (s, g) := addNum rm p c
    (s, g)

/-- The quotient of two finite values, the second nonzero, to more bits than any format holds, with the rest as sticky. A zero
quotient has the sign that the operands' signs give: the model's choice where the spec gives none (log 80). -/
def divEx (x y : Ex) : Ex :=
  let k := Nat.log2 y.m + 80
  let n := x.m <<< k
  { neg := x.neg != y.neg, m := n / y.m, e := x.e - y.e - (k : Int), sticky := n % y.m != 0 }

/-- Whether the first of two nonzero magnitudes is the smaller. -/
def Ex.magLt (x y : Ex) : Bool :=
  let g := if x.e ≤ y.e then x.e else y.e
  x.m <<< (x.e - g).toNat < y.m <<< (y.e - g).toNat

/-- The order of values for `vmin`, `vmax` (R173): −0 below +0. NaN is not ordered. -/
def ltNum (signedZero : Bool) : Num → Num → Bool
  | .nan, _ => false
  | _, .nan => false
  | .inf a, .inf b => a && !b
  | .inf a, .fin _ => a
  | .fin _, .inf b => !b
  | .fin x, .fin y =>
    if x.m == 0 && y.m == 0 then signedZero && x.neg && !y.neg
    else
      let g := if x.e ≤ y.e then x.e else y.e
      x.onGrid g < y.onGrid g

/-- Equality of values for compares (R175): −0 equals +0, NaN equals nothing. -/
def eqNum : Num → Num → Bool
  | .nan, _ => false
  | _, .nan => false
  | .inf a, .inf b => a == b
  | .inf _, .fin _ => false
  | .fin _, .inf _ => false
  | .fin x, .fin y =>
    if x.m == 0 && y.m == 0 then true
    else
      let g := if x.e ≤ y.e then x.e else y.e
      x.onGrid g == y.onGrid g

/-- Rounded sum of two codes of one format (R173). -/
def addCode (t rm a b : Nat) : Nat × Flags :=
  let (s, f) := addNum rm (valOf t a) (valOf t b)
  let (c, g) := roundTo t rm s
  (c, f ||| g)

/-- Rounded product of two codes of one format (R173). -/
def mulCode (t rm a b : Nat) : Nat × Flags :=
  let (s, f) := mulNum (valOf t a) (valOf t b)
  let (c, g) := roundTo t rm s
  (c, f ||| g)

/-- One part of `cmul`: a × b ± c × d formed exactly and rounded once in RNE (R102). -/
def cmulPart (t : Nat) (sub : Bool) (a b c d : Nat) : Nat × Flags :=
  let (p, f) := mulNum (valOf t a) (valOf t b)
  let (q, g) := mulNum (valOf t c) (valOf t d)
  let (s, h) := addNum 0 p (if sub then q.negate else q)
  let (r, k) := roundTo t 0 s
  (r, f ||| g ||| h ||| k)

/-- `cmul` of two complex codes whose parts have format t (R102). -/
def cmul (t a b : Nat) : Nat × Flags :=
  let w := widthOf t
  let ar := bitsOf a 0 w
  let ai := bitsOf a w w
  let br := bitsOf b 0 w
  let bi := bitsOf b w w
  let (re, f) := cmulPart t true ar br ai bi
  let (im, g) := cmulPart t false ar bi ai br
  (re + im <<< w, f ||| g)

/-! ## Summation orders (R100) -/

/-- One level of `tree_sum`. -/
def treeLevel (t rm : Nat) : List Nat → List Nat × Flags
  | a :: b :: r =>
    let (s, f) := addCode t rm a b
    let (l, g) := treeLevel t rm r
    (s :: l, f ||| g)
  | l => (l, 0)

/-- `tree_sum` over codes, `fuel` levels at most (R100). -/
def treeSum (t rm : Nat) : Nat → List Nat → Nat × Flags
  | 0, l => (l.headD 0, 0)
  | fuel + 1, l =>
    match l with
    | [] => (0, 0)
    | [x] => (x, 0)
    | _ =>
      let (l', f) := treeLevel t rm l
      let (s, g) := treeSum t rm fuel l'
      (s, f ||| g)

/-- The exact sum of finite values; an exact zero is +0 (R98). -/
def exactSum (xs : List Ex) : Ex :=
  let ys := xs.filter fun x => x.m != 0
  match ys with
  | [] => { neg := false, m := 0, e := 0, sticky := false }
  | y :: r =>
    let g := r.foldl (fun (g : Int) x => if x.e < g then x.e else g) y.e
    let s := ys.foldl (fun (s : Int) x => s + x.onGrid g) 0
    { neg := s < 0, m := s.natAbs, e := g, sticky := false }

/-! ## Correctly rounded functions (R177, R178) -/

/-- Newton's steps towards ⌊√n⌋ from above. -/
def isqrtStep (n : Nat) : Nat → Nat → Nat
  | 0, r => r
  | fuel + 1, r =>
    let r' := (r + n / r) / 2
    if r' < r then isqrtStep n fuel r' else r

/-- ⌊√n⌋. -/
def isqrt (n : Nat) : Nat := if n == 0 then 0 else isqrtStep n (Nat.log2 n + 8) (2 ^ (Nat.log2 n / 2 + 1))

/-- 1/√x of a positive value. -/
def rsqrtEx (x : Ex) : Ex :=
  let odd := x.e % 2 != 0
  let m := if odd then 2 * x.m else x.m
  let e := if odd then x.e - 1 else x.e
  let k := Nat.log2 m + 80
  let r := isqrt (2 ^ (2 * k) / m)
  { neg := false, m := r, e := -(k : Int) - e / 2, sticky := r * r * m != 2 ^ (2 * k) }

/-- Bits of fraction that the functions carry. -/
def fracBits : Nat := 400

/-- 2^f × 2^fracBits, truncated, for a fraction f of k bits: √(2^b × y) for each bit b from the lowest. -/
def exp2Frac : Nat → Nat → Nat → Nat
  | 0, _, y => y
  | k + 1, f, y => exp2Frac k (f / 2) (isqrt ((if f % 2 == 1 then 2 * y else y) <<< fracBits))

/-- 2^x of a finite value; far outside every format's range x is replaced by ±4096 (log 16). -/
def exp2Ex (x : Ex) : Ex :=
  if x.isZero then .ofNat 1 0
  else if x.lead ≥ 12 then { neg := false, m := 1, e := if x.neg then -4096 else 4096, sticky := false }
  else if x.e ≥ 0 then .ofNat 1 (x.onGrid 0)
  else
    let k := (-x.e).toNat
    let n : Int := if x.neg then -(x.m : Int) else (x.m : Int)
    let i := n / (2 : Int) ^ k
    let f := (n % (2 : Int) ^ k).toNat
    if f == 0 then .ofNat 1 i
    else { neg := false, m := exp2Frac k f (2 ^ fracBits), e := i - (fracBits : Int), sticky := true }

/-- Fraction bits of log2 y for y in [1, 2), y scaled by 2^fracBits: square, and take a bit when the square reaches 2. -/
def log2Frac : Nat → Nat → Nat → Nat
  | 0, _, acc => acc
  | k + 1, y, acc =>
    let s := (y * y) >>> fracBits
    if s ≥ 2 ^ (fracBits + 1) then log2Frac k (s / 2) (2 * acc + 1) else log2Frac k s (2 * acc)

/-- log2 of a positive value. -/
def log2Ex (x : Ex) : Ex :=
  let l := Nat.log2 x.m
  if x.m == 2 ^ l then .ofInt x.lead
  else
    let n : Int := x.lead * (2 : Int) ^ 160 + (log2Frac 160 (x.m <<< (fracBits - l)) 0 : Nat)
    if n ≥ 0 then { neg := false, m := n.toNat, e := -160, sticky := true }
    else { neg := true, m := n.natAbs - 1, e := -160, sticky := true }

/-- The four functions of R177. -/
inductive Fn where
  | rcp | rsq | exp2 | log2
  deriving DecidableEq, Repr

/-- A function's value before rounding, with the special operands of R178. -/
def Fn.eval : Fn → Num → Num × Flags
  | _, .nan => (.nan, 0)
  | .rcp, .inf n => (.fin { neg := n, m := 0, e := 0, sticky := false }, 0)
  | .rcp, .fin x => if x.m == 0 then (.inf x.neg, 0) else (.fin (divEx (.ofNat 1 0) x |> fun q => { q with neg := x.neg }), 0)
  | .rsq, .inf n => if n then (.nan, Flags.invalid) else (.zero, 0)
  | .rsq, .fin x =>
    if x.m == 0 then (.inf x.neg, 0) else if x.neg then (.nan, Flags.invalid) else (.fin (rsqrtEx x), 0)
  | .exp2, .inf n => if n then (.zero, 0) else (.inf false, 0)
  | .exp2, .fin x => (.fin (exp2Ex x), 0)
  | .log2, .inf n => if n then (.nan, Flags.invalid) else (.inf false, 0)
  | .log2, .fin x =>
    if x.m == 0 then (.inf true, 0) else if x.neg then (.nan, Flags.invalid) else (.fin (log2Ex x), 0)

/-- round(f(x), t, rm) of one code (R177). -/
def fnCode (f : Fn) (t rm c : Nat) : Nat × Flags :=
  let (y, g) := f.eval (valOf t c)
  let (r, h) := roundTo t rm y
  (r, g ||| h)

end Sys2Proof.Machine
end

