-- ==== Sys2Proof/Syntax.lean ====
section
/-! DEFINITION. The abstract syntax: ports (R48), sources (R51), and the ONE inductive `Instr` with one constructor per
row of the opcode table: 144 instruction words (R34, R35, R61), each carrying its chain bit `c` and its fields, and 104
events and commands of the device, each carrying the data that the outside world or the physical moment supplies. -/

namespace Sys2Proof

/-- The eight last-result latches (R109). -/
inductive Latch where
  | s | v0 | v1 | m | c0 | c1 | q | a
  deriving DecidableEq, Repr

/-- The 128 ports of R48. -/
inductive Port where
  | s (n : Fin 32) | v (n : Fin 32) | o (n : Fin 8) | latch (l : Latch)
  | mxA | mxB | ampU | lk
  | zero | one | ones | lane | core | ltlo
  /-- Ports 84-95 (`reserved 0`-`11`) and 102-127 (`reserved 12`-`37`): ILLEGAL_PORT in every use. -/
  | reserved (n : Fin 38)
  deriving DecidableEq, Repr

/-- A source operand: a port and its peek bit (R48, R51). -/
structure Src where
  port : Port
  peek : Bool
  deriving DecidableEq, Repr

/-- What an ATS completion says of a 512 KiB granule (R267, R391): a translation of at least 512 KiB with the access
and execute permissions the host grants, or a translation that is too small, or a page that is not present. -/
inductive AtsVerdict where
  | translated (pa : Nat) (read write exec : Bool)
  | tooSmall
  | notPresent
  deriving DecidableEq, Repr

namespace Machine

/-- A 64-byte beat as it lands in scratchpad; `bad` beats give element poison to every word (R278, R467). -/
structure BeatData where
  bits : Beat512
  bad : Bool
  deriving DecidableEq, Repr

end Machine

/-- The operations a peer package may ask for (R324). -/
inductive PeerOp where
  /-- a read; a write of the beat, or of its first 32 bytes alone (R232); a reduction -/
  | read | write (data : Beat512) (half : Bool) | amo (op : BitVec 3) (type : BitVec 4) (data : Beat512)
  deriving DecidableEq, Repr

/-- A peer access arriving over UALink: the requesting package, the address, the operation on one 64-byte beat (R324). -/
structure PeerReq where
  package : Nat
  addr : Nat
  op : PeerOp
  deriving DecidableEq, Repr

/-- A `pk.snd` packet between packages (R327, R347): its descriptor, generation, width and payload. -/
structure PkPacket where
  desc : W64
  gen : BitVec 8
  wide : Bool
  data : V2048
  deriving DecidableEq, Repr

/-- A collective packet (R327, R331, R332): plan handle, firing sequence, group number and generation, the package it comes from
(`none`: a switch), the tag and the node of its SEND, whether that node is computed in a switch and, if it is, whether this is the
node's result or a child on its way to it, and its payload beats. -/
structure CollPacket where
  handle : Nat
  seq : Nat
  group : Nat
  gen : BitVec 8
  from_ : Option Nat
  tag : Nat
  level : Nat
  index : Nat
  site : Bool
  result : Bool
  data : List Beat512
  deriving DecidableEq, Repr

/-- A chunk of an amplitude exchange (R355): sending rank, sequence number, transposition, index, and the codes of the
elements that up to 4 KiB hold. -/
structure AmpChunk where
  src : Nat
  seq : Nat
  a : Nat
  b : Nat
  index : Nat
  data : List Nat
  deriving DecidableEq, Repr

/-- Why the standby takes over unplanned (R434): no heartbeat for 1 ms, or an uncorrectable error that the active core reports. -/
inductive TakeoverCause where
  | heartbeatLost | errorReport
  deriving DecidableEq, Repr

/-- The classes of PCIe configuration registers that R442 tells apart: a BAR or Command; the MSI-X message control (R444); the
Resizable BAR control; the control of the IDE stream; any other. -/
inductive ConfigReg where
  | decode | msix | resizableBar | ide | other
  deriving DecidableEq, Repr

/-- The lifecycle states a token can name (R445). -/
inductive Lifecycle where
  | blank | provisioned | deployed | returned | scrapped
  deriving DecidableEq, Repr

/-- The transport a management request came in on (R439, R449). -/
inductive Master where
  | host | sideBand
  deriving DecidableEq, Repr

/-- The instructions and events of the machine. Field letters: `c` chain bit, `d` destination, `a` `b` `k` `s` sources,
`i` immediate, `o` word offset, `n` `m` `g` `x` numbers and masks, as the table names them. -/
inductive Instr where
  /-- `pfx.imm` (R53). -/
  | pfxImm (p : BitVec 23)
  /-- `pfx.fmt` (R54). -/
  | pfxFmt (e : Bool) (r : BitVec 2) (n : BitVec 4)
  /-- `pfx.ts` (R55). -/
  | pfxTs (d : BitVec 23)
  /-- `pfx.row` (R56). -/
  | pfxRow (s l : Bool)
  /-- `sfx.arv` (R57). -/
  | sfxArv (c : Bool) (a : BitVec 19)
  /-- `mov` (R116). -/
  | mov (c : Bool) (d : Port) (a : Src)
  /-- `vmov` (R117). -/
  | vmov (c : Bool) (d : Port) (a : Src)
  /-- `movi` (R118). -/
  | movi (c : Bool) (d : Port) (i : BitVec 16)
  /-- `qdrop` (R119). -/
  | qdrop (c : Bool) (q : Port) (n : BitVec 8)
  /-- `qlen` (R120). -/
  | qlen (c : Bool) (d : Port) (q : Port)
  /-- `vbcast` (R121). -/
  | vbcast (c : Bool) (d : Port) (a : Src) (b : Src)
  /-- `vext` (R122). -/
  | vext (c : Bool) (d : Port) (a : Src) (i : BitVec 8)
  /-- `vins` (R122). -/
  | vins (c : Bool) (d : Port) (a : Src) (i : BitVec 8)
  /-- `add` (R131). -/
  | add (c : Bool) (d : Port) (a : Src) (b : Src)
  /-- `sub` (R131). -/
  | sub (c : Bool) (d : Port) (a : Src) (b : Src)
  /-- `mul` (R132). -/
  | mul (c : Bool) (d : Port) (a : Src) (b : Src)
  /-- `mulh` (R132). -/
  | mulh (c : Bool) (d : Port) (a : Src) (b : Src)
  /-- `and` (R131). -/
  | and (c : Bool) (d : Port) (a : Src) (b : Src)
  /-- `or` (R131). -/
  | or (c : Bool) (d : Port) (a : Src) (b : Src)
  /-- `xor` (R131). -/
  | xor (c : Bool) (d : Port) (a : Src) (b : Src)
  /-- `shl` (R133). -/
  | shl (c : Bool) (d : Port) (a : Src) (b : Src)
  /-- `shr` (R133). -/
  | shr (c : Bool) (d : Port) (a : Src) (b : Src)
  /-- `sra` (R133). -/
  | sra (c : Bool) (d : Port) (a : Src) (b : Src)
  /-- `min` (R131). -/
  | min (c : Bool) (d : Port) (a : Src) (b : Src)
  /-- `max` (R131). -/
  | max (c : Bool) (d : Port) (a : Src) (b : Src)
  /-- `ceq` (R134). -/
  | ceq (c : Bool) (d : Port) (a : Src) (b : Src)
  /-- `clt` (R134). -/
  | clt (c : Bool) (d : Port) (a : Src) (b : Src)
  /-- `cltu` (R134). -/
  | cltu (c : Bool) (d : Port) (a : Src) (b : Src)
  /-- `sel` (R135). -/
  | sel (c : Bool) (d : Port) (a : Src) (b : Src)
  /-- `addi` (R136). -/
  | addi (c : Bool) (d : Port) (a : Src) (i : BitVec 8)
  /-- `clz` (R137). -/
  | clz (c : Bool) (d : Port) (a : Src)
  /-- `popc` (R137). -/
  | popc (c : Bool) (d : Port) (a : Src)
  /-- `bfx` (R138). -/
  | bfx (c : Bool) (d : Port) (a : Src) (b : Src)
  /-- `br` (R160). -/
  | br (c : Bool) (o : BitVec 15)
  /-- `brz` (R160). -/
  | brz (c : Bool) (k : Src) (o : BitVec 15)
  /-- `brnz` (R160). -/
  | brnz (c : Bool) (k : Src) (o : BitVec 15)
  /-- `call` (R160). -/
  | call (c : Bool) (o : BitVec 15)
  /-- `ret` (R160). -/
  | ret (c : Bool) (s : Src)
  /-- `loop` (R161). -/
  | loop (c : Bool) (k : Src) (o : BitVec 15)
  /-- `loopf` (R161). -/
  | loopf (c : Bool) (k : Src) (o : BitVec 15)
  /-- `nop` (R162). -/
  | nop (c : Bool) (n : BitVec 16)
  /-- `waitlt` (R162). -/
  | waitlt (c : Bool) (a : Src)
  /-- `step` (R155). -/
  | step (c : Bool) (b : BitVec 16)
  /-- `rdv` (R153). -/
  | rdv (c : Bool) (g : BitVec 8)
  /-- `halt` (R164). -/
  | halt (c : Bool) (n : BitVec 16)
  /-- `vadd` (R173). -/
  | vadd (c : Bool) (d : Port) (a : Src) (b : Src)
  /-- `vsub` (R173). -/
  | vsub (c : Bool) (d : Port) (a : Src) (b : Src)
  /-- `vmul` (R173). -/
  | vmul (c : Bool) (d : Port) (a : Src) (b : Src)
  /-- `vfma` (R174). -/
  | vfma (c : Bool) (d : Port) (a : Src) (b : Src)
  /-- `vfms` (R174). -/
  | vfms (c : Bool) (d : Port) (a : Src) (b : Src)
  /-- `vmin` (R173). -/
  | vmin (c : Bool) (d : Port) (a : Src) (b : Src)
  /-- `vmax` (R173). -/
  | vmax (c : Bool) (d : Port) (a : Src) (b : Src)
  /-- `vabs` (R173). -/
  | vabs (c : Bool) (d : Port) (a : Src)
  /-- `vand` (R173). -/
  | vand (c : Bool) (d : Port) (a : Src) (b : Src)
  /-- `vor` (R173). -/
  | vor (c : Bool) (d : Port) (a : Src) (b : Src)
  /-- `vxor` (R173). -/
  | vxor (c : Bool) (d : Port) (a : Src) (b : Src)
  /-- `vshl` (R173). -/
  | vshl (c : Bool) (d : Port) (a : Src) (b : Src)
  /-- `vshr` (R173). -/
  | vshr (c : Bool) (d : Port) (a : Src) (b : Src)
  /-- `vceq` (R175). -/
  | vceq (c : Bool) (d : Port) (a : Src) (b : Src)
  /-- `vclt` (R175). -/
  | vclt (c : Bool) (d : Port) (a : Src) (b : Src)
  /-- `vsel` (R176). -/
  | vsel (c : Bool) (d : Port) (a : Src) (b : Src)
  /-- `vrcp` (R177). -/
  | vrcp (c : Bool) (d : Port) (a : Src)
  /-- `vrsq` (R177). -/
  | vrsq (c : Bool) (d : Port) (a : Src)
  /-- `vexp2` (R177). -/
  | vexp2 (c : Bool) (d : Port) (a : Src)
  /-- `vlog2` (R177). -/
  | vlog2 (c : Bool) (d : Port) (a : Src)
  /-- `vred` (R179). -/
  | vred (c : Bool) (d : Port) (a : Src)
  /-- `vredx` (R179). -/
  | vredx (c : Bool) (d : Port) (a : Src)
  /-- `vperm` (R180). -/
  | vperm (c : Bool) (d : Port) (a : Src) (b : Src)
  /-- `vcomp` (R181). -/
  | vcomp (c : Bool) (d : Port) (a : Src)
  /-- `vhash` (R183). -/
  | vhash (c : Bool) (d : Port) (a : Src) (b : Src)
  /-- `vlane` (R180). -/
  | vlane (c : Bool) (d : Port) (a : Src) (b : Src)
  /-- `vcvt` (R190). -/
  | vcvt (c : Bool) (d : Port) (a : Src) (b : Src)
  /-- `vquant` (R193). -/
  | vquant (c : Bool) (d : Port) (a : Src) (b : Src)
  /-- `vdequant` (R194). -/
  | vdequant (c : Bool) (d : Port) (a : Src) (b : Src)
  /-- `vscale` (R192). -/
  | vscale (c : Bool) (d : Port) (a : Src) (b : Src)
  /-- `vpack` (R191). -/
  | vpack (c : Bool) (d : Port) (a : Src) (b : Src)
  /-- `vunpack` (R191). -/
  | vunpack (c : Bool) (d : Port) (a : Src) (b : Src)
  /-- `vcvts` (R195). -/
  | vcvts (c : Bool) (d : Port) (a : Src) (b : Src)
  /-- `mx.ldb` (R224). -/
  | mxLdb (c : Bool) (a : Src)
  /-- `mx.ldbs` (R225). -/
  | mxLdbs (c : Bool) (a : Src)
  /-- `mx.lds` (R226). -/
  | mxLds (c : Bool) (a : Src) (b : Src)
  /-- `mx.pair` (R219). -/
  | mxPair (c : Bool) (a : Src) (b : Src)
  /-- `mx.run` (R228). -/
  | mxRun (c : Bool) (a : Src) (b : Src)
  /-- `mx.clr` (R230). -/
  | mxClr (c : Bool) (a : Src)
  /-- `mx.rd` (R231). -/
  | mxRd (c : Bool) (d : Port) (a : Src)
  /-- `mx.wr` (R230). -/
  | mxWr (c : Bool) (a : Src) (b : Src)
  /-- `mx.epi` (R232). -/
  | mxEpi (c : Bool) (a : Src) (b : Src)
  /-- `mx.arow` (R227). -/
  | mxArow (c : Bool) (a : Src) (b : Src)
  /-- `mx.sig` (R233). -/
  | mxSig (c : Bool) (d : Port) (a : Src)
  /-- `mx.mode` (R234). -/
  | mxMode (c : Bool) (d : Port) (h : Bool) (o : Bool)
  /-- `ld` (R248). -/
  | ld (c : Bool) (d : Port) (a : Src) (i : BitVec 8)
  /-- `st` (R248). -/
  | st (c : Bool) (a : Src) (b : Src)
  /-- `vld` (R249). -/
  | vld (c : Bool) (d : Port) (a : Src) (i : BitVec 8)
  /-- `vst` (R249). -/
  | vst (c : Bool) (a : Src) (b : Src)
  /-- `vgath` (R250). -/
  | vgath (c : Bool) (d : Port) (a : Src)
  /-- `vscat` (R250). -/
  | vscat (c : Bool) (a : Src) (b : Src)
  /-- `bdecl` (R254). -/
  | bdecl (c : Bool) (n : BitVec 7) (a : Src) (b : Src)
  /-- `bset` (R254). -/
  | bset (c : Bool) (n : BitVec 7) (k : BitVec 8)
  /-- `atom` (R251). -/
  | atom (c : Bool) (d : Port) (a : Src) (b : Src)
  /-- `vatom` (R252). -/
  | vatom (c : Bool) (d : Port) (a : Src) (b : Src)
  /-- `bstat` (R255). -/
  | bstat (c : Bool) (d : Port) (n : BitVec 8)
  /-- `rgath` (R253). -/
  | rgath (c : Bool) (d : Port) (a : Src) (b : Src)
  /-- `cp.get` (R279). -/
  | cpGet (c : Bool) (n : BitVec 3) (a : Src) (b : Src)
  /-- `cp.put` (R279). -/
  | cpPut (c : Bool) (n : BitVec 3) (a : Src) (b : Src)
  /-- `cp.gath` (R280). -/
  | cpGath (c : Bool) (n : BitVec 3) (a : Src) (b : Src)
  /-- `cp.fill` (R281). -/
  | cpFill (c : Bool) (n : BitVec 3) (a : Src) (b : Src)
  /-- `cp.scrub` (R283). -/
  | cpScrub (c : Bool) (n : BitVec 3) (a : Src) (b : Src)
  /-- `cp.fence` (R284). -/
  | cpFence (c : Bool) (m : BitVec 8)
  /-- `cp.wait` (R284). -/
  | cpWait (c : Bool) (m : BitVec 8)
  /-- `cp.wp` (R285). -/
  | cpWp (c : Bool) (d : Port) (n : BitVec 8)
  /-- `cp.bind` (R286). -/
  | cpBind (c : Bool) (n : BitVec 3) (a : Src)
  /-- `cp.inv` (R287). -/
  | cpInv (c : Bool) (l : Bool) (w : BitVec 6)
  /-- `cp.amo` (R282). -/
  | cpAmo (c : Bool) (n : BitVec 3) (a : Src) (b : Src)
  /-- `bar.init` (R311). -/
  | barInit (c : Bool) (d : Port) (a : Src) (b : Src)
  /-- `bar.arv` (R312). -/
  | barArv (c : Bool) (a : Src) (b : Src)
  /-- `bar.wait` (R313). -/
  | barWait (c : Bool) (a : Src) (b : Src)
  /-- `snd` (R314). -/
  | snd (c : Bool) (a : Src) (b : Src)
  /-- `rcv` (R315). -/
  | rcv (c : Bool) (d : Port) (a : Src)
  /-- `fence` (R316). -/
  | fence (c : Bool) (g : BitVec 8) (s : BitVec 2)
  /-- `acq` (R316). -/
  | acq (c : Bool) (g : BitVec 8) (s : BitVec 2)
  /-- `rel` (R316). -/
  | rel (c : Bool) (g : BitVec 8) (s : BitVec 2)
  /-- `ltrd` (R317). -/
  | ltrd (c : Bool) (d : Port) (s : BitVec 2)
  /-- `cl.base` (R344). -/
  | clBase (c : Bool) (a : Src) (b : Src)
  /-- `cl.fire` (R345). -/
  | clFire (c : Bool) (a : Src)
  /-- `cl.stat` (R346). -/
  | clStat (c : Bool) (d : Port) (a : Src) (s : BitVec 8)
  /-- `pk.snd` (R347). -/
  | pkSnd (c : Bool) (a : Src) (b : Src)
  /-- `amp.map` (R368). -/
  | ampMap (c : Bool) (a : Src) (b : Src)
  /-- `amp.gate` (R369). -/
  | ampGate (c : Bool) (a : Src) (b : Src)
  /-- `amp.diag` (R369). -/
  | ampDiag (c : Bool) (a : Src) (b : Src)
  /-- `amp.ctl` (R367). -/
  | ampCtl (c : Bool) (d : Port) (n : Bool)
  /-- `amp.swap` (R368). -/
  | ampSwap (c : Bool) (a : Src)
  /-- `amp.norm` (R370). -/
  | ampNorm (c : Bool) (d : Port) (a : Src) (b : Src)
  /-- `amp.prob` (R370). -/
  | ampProb (c : Bool) (d : Port) (a : Src)
  /-- `amp.init` (R366). -/
  | ampInit (c : Bool) (a : Src) (b : Src)
  /-- `qr.tab` (R382). -/
  | qrTab (c : Bool) (a : Src) (b : Src)
  /-- `qr.seed` (R383). -/
  | qrSeed (c : Bool) (a : Src) (b : Src)
  /-- `qr.gen` (R384). -/
  | qrGen (c : Bool) (d : Port) (a : Src) (b : Src)
  /-- `qr.genf` (R384). -/
  | qrGenf (c : Bool) (d : Port) (a : Src) (b : Src)
  /-- `qr.skip` (R385). -/
  | qrSkip (c : Bool) (d : Port) (a : Src) (b : Src)
  /-- `trap` (R408). -/
  | trap (c : Bool) (k : BitVec 16)
  /-- `brk` (R409). -/
  | brk (c : Bool) (k : BitVec 16)
  /-- `icinv` (R410). -/
  | icinv (c : Bool) (g : BitVec 8) (s : BitVec 2)
  /-- `rdsys` (R411). -/
  | rdsys (c : Bool) (d : Port) (x : BitVec 8)
  /-- `wrsys` (R412). -/
  | wrsys (c : Bool) (d : Port) (a : Src) (x : BitVec 8)
  /-- RESULT_LAND (R16). -/
  | resultLand (n k : Nat)
  /-- SEND_ARRIVAL (R288). -/
  | sendArrival (k : Nat)
  /-- TIMED_BEAT_ARRIVAL (R260). -/
  | timedBeatArrival (n id beat : Nat)
  /-- COPY_START (R257). -/
  | copyStart (n id : Nat)
  /-- COPY_BEAT_DONE (R258). -/
  | copyBeatDone (n id beat : Nat) (data : Machine.BeatData)
  /-- ATS_COMPLETION (R267). -/
  | atsCompletion (n w granule : Nat) (v : AtsVerdict)
  /-- ATS_INVALIDATION (R269). -/
  | atsInvalidation (granule : Nat)
  /-- PRI_RESPONSE (R388). -/
  | priResponse (n : Nat) (ok : Bool)
  /-- TRAP_HANDLING (R388). -/
  | trapHandling
  /-- MATRIX_TWIN_RERUN (R216). -/
  | matrixTwinRerun (n : Nat)
  /-- RDV_RELEASE (R153). -/
  | rdvRelease (n slot : Nat)
  /-- STEP_RELEASE (R155). -/
  | stepRelease (k : Nat)
  /-- BUDGET_EXPIRY (R157). -/
  | budgetExpiry (n : Nat)
  /-- PAIR_ROW_ARRIVAL (R221). -/
  | pairRowArrival (n : Nat)
  /-- PAIR_TIMEOUT (R222). -/
  | pairTimeout (n : Nat)
  /-- AMP_CHUNK_ARRIVAL (R355). -/
  | ampChunkArrival (n : Nat) (peer : Option AmpChunk)
  /-- CORE_HALT_REPORT (R164). -/
  | coreHaltReport (n : Nat)
  /-- KERNEL_FINISH (R420). -/
  | kernelFinish (k : Nat)
  /-- REMOTE_ARRIVAL (R296). -/
  | remoteArrival (k : Nat)
  /-- PK_SND_ARRIVAL (R347). -/
  | pkSndArrival (k : Nat) (peer : Option PkPacket)
  /-- PK_SND_REFUSAL (R327). -/
  | pkSndRefusal (n id : Nat)
  /-- ICINV_REQUEST_ARRIVAL (R410). -/
  | icinvRequestArrival (k : Nat)
  /-- HBM_ACCESS_ACCEPT (R274). -/
  | hbmAccessAccept (n id beat : Nat)
  /-- HBM_WRITE_DRAIN (R275). -/
  | hbmWriteDrain (ch : Nat)
  /-- HBM_REFRESH (R277). -/
  | hbmRefresh (ch : Nat)
  /-- REFRESH_FORCE (R277). -/
  | refreshForce (ch : Nat)
  /-- PEER_ACCESS (R324). -/
  | peerAccess (r : PeerReq)
  /-- LINK_BEAT_RECEIVE (R319). -/
  | linkBeatReceive (group : Nat) (beats : List (Option Beat512)) (xor : Option Beat512)
  /-- RAIL_STATE_CHANGE (R320). -/
  | railStateChange (rail : Nat) (up : Bool)
  /-- COLLECTIVE_PACKET_ARRIVAL (R332). -/
  | collectivePacketArrival (p : CollPacket)
  /-- CHUNK_OP_COMPLETE (R332). -/
  | chunkOpComplete (h op : Nat)
  /-- PLAN_PROGRESS_TIMEOUT (R337). -/
  | planProgressTimeout (h : Nat)
  /-- PLAN_SETUP_CONFIRM (R330). -/
  | planSetupConfirm (h who : Nat) (ok : Bool)
  /-- PLAN_SETUP_TIMEOUT (R330). -/
  | planSetupTimeout (h : Nat)
  /-- HOST_TRIGGER (R335). -/
  | hostTrigger (off width : Nat) (v : W64) (tee : Bool)
  /-- LAUNCH (R427). -/
  | launch (q : Nat)
  /-- WAIT (R430). -/
  | wait (q : Nat)
  /-- WAIT_REREAD (R430). -/
  | waitReread (q : Nat)
  /-- SIGNAL (R430). -/
  | signal (q : Nat)
  /-- FENCE_COMMAND (R420). -/
  | fenceCommand (q : Nat)
  /-- FIRE (R336). -/
  | fire (q : Nat)
  /-- PLAN_SETUP (R330). -/
  | planSetup (q : Nat)
  /-- PLAN_FREE (R329). -/
  | planFree (q : Nat)
  /-- COPY (R430): its start, or the next beat of started command k. -/
  | copy (q : Nat) (k : Option Nat)
  /-- SCRUB (R430): its start, or the next beat of started command k. -/
  | scrub (q : Nat) (k : Option Nat)
  /-- CAL (R430). -/
  | cal (q : Nat)
  /-- GROUP (R429). -/
  | group (q : Nat)
  /-- PREEMPT (R431). -/
  | preempt (q : Nat)
  /-- CONTEXT_SAVE_COMPLETE (R397). -/
  | contextSaveComplete (q : Nat)
  /-- RESUME (R398). -/
  | resume (q : Nat)
  /-- NOPC (R420). -/
  | nopc (q : Nat)
  /-- EXPORT (R423). -/
  | exportEntry (q : Nat)
  /-- QUEUE_STARVATION_TIMEOUT (R425). -/
  | queueStarvationTimeout (q : Nat)
  /-- QUEUE_ENABLE (R415). -/
  | queueEnable (q : Nat) (v : W64) (tee : Bool)
  /-- QUEUE_DISABLE (R415). -/
  | queueDisable (q : Nat) (v : W64) (tee : Bool)
  /-- QTAIL_WRITE (R416). -/
  | qtailWrite (q width : Nat) (v : W64) (tee : Bool)
  /-- DOORBELL_WRITE (R417). -/
  | doorbellWrite (k : Nat)
  /-- AP4BASE_WRITE (R418). -/
  | ap4baseWrite (v : W64) (tee : Bool)
  /-- BAR4_ACCESS (R418). -/
  | bar4Access (off width : Nat) (wr : Option W64)
  /-- BAR_RESIZE (R418). -/
  | barResize (log2 : Nat)
  /-- PKGNUM_WRITE (R453). -/
  | pkgnumWrite (v : W64) (tee : Bool)
  /-- SET_PKGNUM (R453). -/
  | setPkgnum (payload : BitVec 16)
  /-- REGISTER_WRITE (R413). -/
  | registerWrite (off width : Nat) (v : W64) (tee : Bool)
  /-- DEBUG_OPEN (R436). -/
  | debugOpen (v : W64) (tee : Bool)
  /-- DEBUG_CLOSE (R436). -/
  | debugClose (v : W64) (tee : Bool)
  /-- DEBUG_HALT (R399). -/
  | debugHalt (v : W64) (tee : Bool)
  /-- DEBUG_RESUME (R399). -/
  | debugResume (v : W64) (tee : Bool)
  /-- DEBUG_STEP (R399). -/
  | debugStep (v : W64) (tee : Bool)
  /-- DEBUG_READ (R400). -/
  | debugRead (v : W64) (tee : Bool)
  /-- DEBUG_WRITE (R400). -/
  | debugWrite (v : W64) (tee : Bool)
  /-- DEBUG_CANCEL (R114). -/
  | debugCancel (v : W64) (tee : Bool)
  /-- SCAN_START (R432). -/
  | scanStart
  /-- SCAN_MOVE (R432). -/
  | scanMove
  /-- SCAN_PASS_COMPLETE (R433). -/
  | scanPassComplete (ok : Bool)
  /-- HEARTBEAT (R434). -/
  | heartbeat
  /-- TAKEOVER (R434), and whether the former active core then passes its self-test. -/
  | takeover (cause : TakeoverCause) (selfTest : Bool)
  /-- FIRMWARE_UPDATE (R435): an image and whether its signature verifies. -/
  | firmwareUpdate (who : Master) (image : Nat) (valid : Bool)
  /-- PROBATION_END (R435). -/
  | probationEnd (ok : Bool)
  /-- GET_MEASUREMENTS (R439). -/
  | getMeasurements (who : Master) (index : Nat)
  /-- LOCK_INTERFACE (R442). -/
  | lockInterface
  /-- START_INTERFACE (R442). -/
  | startInterface
  /-- STOP_INTERFACE (R443). -/
  | stopInterface
  /-- GET_DEVICE_INTERFACE_REPORT (R444). -/
  | getDeviceInterfaceReport
  /-- GET_DEVICE_INTERFACE_STATE (R443). -/
  | getDeviceInterfaceState
  /-- PCIE_CONFIG_WRITE (R442). -/
  | pcieConfigWrite (r : ConfigReg) (v : W64)
  /-- LIFECYCLE_TOKEN (R445). -/
  | lifecycleToken (target : Lifecycle) (valid : Bool)
  /-- EMERGENCY_WIPE (R446). -/
  | emergencyWipe (slotA slotB : Bool)
  /-- COLD_RESET (R452). -/
  | coldReset (slotA slotB : Bool)
  /-- FUNCTION_LEVEL_RESET (R452). -/
  | functionLevelReset
  /-- HOT_RESET (R452). -/
  | hotReset
  /-- HBM_ZERO_FILL_DONE (R447). -/
  | hbmZeroFillDone
  /-- FIRMWARE_UPDATE_SESSION (R449). -/
  | firmwareUpdateSession (who : Master) (isOpen : Bool)
  /-- PLDM_MONITORING (R448). -/
  | pldmMonitoring
  /-- FREQUENCY_STEP_CHANGE (R450). -/
  | frequencyStepChange (n : Nat)
  /-- THERMAL_STEP_DOWN (R451). -/
  | thermalStepDown
  /-- THERMAL_TRIP (R451). -/
  | thermalTrip
  /-- POWER_LIMIT_TRIP (R451). -/
  | powerLimitTrip
  /-- THERMAL_CLEAR (R451). -/
  | thermalClear
  /-- PEER_ACCESS_REFUSAL (R268). -/
  | peerAccessRefusal (n id beat : Nat)
  /-- CORE_TRIGGER_ARRIVAL (R345). -/
  | coreTriggerArrival (k : Nat)
  /-- RETRANSMIT_REQUEST (R319). -/
  | retransmitRequest (k : Nat)
  /-- FLUSHING_READ_COMPLETE (R300). -/
  | flushingReadComplete (n id : Nat)
  /-- SRAM_CLEAR_COMPLETE (R447). -/
  | sramClearComplete
  /-- NEGOTIATE_ALGORITHMS (R439). -/
  | negotiateAlgorithms (who : Master) (offersSlhDsa : Bool)
  deriving DecidableEq, Repr

end Sys2Proof
end

