-- ==== Sys2Proof/Machine/Forms.lean ====
section
/-! DEFINITION. What the opcode map and the entries fix about a word without reading the machine: its pipe (R61), its
operand classes (R48, R49, R51), its field limits, and the prefixes it accepts (R52-R57). -/
namespace Sys2Proof

/-- The pipes of R12 an operation word issues on; V and C stand for V0 or V1 and C0 or C1 (R60). -/
inductive PipeClass where
  | s | v | m | c
  deriving DecidableEq, Repr

/-- How an entry uses a port field. -/
inductive Use where
  /-- scalar operand (R124) -/
  | srcS (a : Src)
  /-- vector operand (R49, R50) -/
  | srcV (a : Src)
  /-- scalar or vector operand: `snd`, `pk.snd` (R314, R347) -/
  | srcAny (a : Src)
  /-- source of `ret`: lk, s0-s31 or l.s (R160) -/
  | srcRet (a : Src)
  /-- scalar destination (R115, R124) -/
  | dstS (d : Port)
  /-- vector destination with the unit ports mx.a, mx.b, amp.u (R111, R172) -/
  | dstV (d : Port)
  /-- destination of `vbcast`: mx.a, mx.b but not amp.u (R121) -/
  | dstB (d : Port)
  /-- destination that is also popped: v0-v31, o0-o7 (R122, R174) -/
  | dstVO (d : Port)
  /-- v0-v31, o0-o7 or zero (R231) -/
  | dstRd (d : Port)
  /-- scalar destination, v0-v31 or o0-o7 (R315) -/
  | dstRcv (d : Port)
  /-- a queue 0-71 named but not read (R119) -/
  | queue (q : Port)
  /-- a queue 0-71 or lk (R120) -/
  | queueLk (q : Port)
  deriving DecidableEq, Repr

/-- The queues of R51: ports 0-71 and the link queue. -/
def Port.isQueue : Port → Bool
  | .s _ | .v _ | .o _ | .lk => true
  | _ => false

/-- A port allowed as a scalar source (R48, R49, R124). -/
def Port.scalarSrc : Port → Bool
  | .s _ | .latch _ | .zero | .one | .ones | .core | .ltlo => true
  | _ => false

/-- A port allowed as a vector source (R48, R49, R50). -/
def Port.vectorSrc : Port → Bool
  | .v _ | .o _ | .latch _ | .zero | .one | .ones | .lane => true
  | _ => false

/-- A port allowed as a scalar destination (R124). -/
def Port.scalarDst : Port → Bool
  | .s _ | .lk | .zero => true
  | _ => false

/-- Whether the port of a use is one its entry accepts; otherwise ILLEGAL_PORT (R48, R49). -/
def Use.portOk : Use → Bool
  | .srcS a => a.port.scalarSrc
  | .srcV a => a.port.vectorSrc
  | .srcAny a => a.port.scalarSrc || a.port.vectorSrc
  | .srcRet a => match a.port with | .lk | .s _ | .latch .s => true | _ => false
  | .dstS d => d.scalarDst
  | .dstV d => match d with | .v _ | .o _ | .zero | .mxA | .mxB | .ampU => true | _ => false
  | .dstB d => match d with | .v _ | .o _ | .zero | .mxA | .mxB => true | _ => false
  | .dstVO d => match d with | .v _ | .o _ => true | _ => false
  | .dstRd d => match d with | .v _ | .o _ | .zero => true | _ => false
  | .dstRcv d => match d with | .s _ | .lk | .zero | .v _ | .o _ => true | _ => false
  | .queue q => match q with | .s _ | .v _ | .o _ => true | _ => false
  | .queueLk q => match q with | .s _ | .v _ | .o _ | .lk => true | _ => false

/-- A peek bit stands only on a queue; otherwise ILLEGAL_FIELD (R51). -/
def Use.peekOk : Use → Bool
  | .srcS a | .srcV a | .srcAny a | .srcRet a => !a.peek || a.port.isQueue
  | _ => true

/-- The port uses of a word in the order of its fields; events have none. -/
def Instr.uses : Instr → List Use
  | .pfxImm _ | .pfxFmt _ _ _ | .pfxTs _ | .pfxRow _ _ | .sfxArv _ _ => []
  | .mov _ d a => [.dstS d, .srcS a]
  | .vmov _ d a => [.dstV d, .srcV a]
  | .movi _ d _ => [.dstS d]
  | .qdrop _ q _ => [.queue q]
  | .qlen _ d q => [.dstS d, .queueLk q]
  | .vbcast _ d a b => [.dstB d, .srcS a, .srcS b]
  | .vext _ d a _ => [.dstS d, .srcV a]
  | .vins _ d a _ => [.dstVO d, .srcS a]
  | .add _ d a b | .sub _ d a b | .mul _ d a b | .mulh _ d a b | .and _ d a b | .or _ d a b | .xor _ d a b
  | .shl _ d a b | .shr _ d a b | .sra _ d a b | .min _ d a b | .max _ d a b | .ceq _ d a b | .clt _ d a b
  | .cltu _ d a b | .sel _ d a b | .bfx _ d a b => [.dstS d, .srcS a, .srcS b]
  | .addi _ d a _ | .clz _ d a | .popc _ d a => [.dstS d, .srcS a]
  | .br _ _ | .call _ _ | .nop _ _ | .step _ _ | .rdv _ _ | .halt _ _ => []
  | .brz _ k _ | .brnz _ k _ | .loop _ k _ | .loopf _ k _ => [.srcS k]
  | .ret _ a => [.srcRet a]
  | .waitlt _ a => [.srcS a]
  | .vadd _ d a b | .vsub _ d a b | .vmul _ d a b | .vmin _ d a b | .vmax _ d a b | .vand _ d a b | .vor _ d a b
  | .vxor _ d a b | .vshl _ d a b | .vshr _ d a b | .vceq _ d a b | .vclt _ d a b | .vsel _ d a b
  | .vperm _ d a b => [.dstV d, .srcV a, .srcV b]
  | .vfma _ d a b | .vfms _ d a b => [.dstVO d, .srcV a, .srcV b]
  | .vabs _ d a | .vrcp _ d a | .vrsq _ d a | .vexp2 _ d a | .vlog2 _ d a | .vred _ d a | .vredx _ d a
  | .vcomp _ d a => [.dstV d, .srcV a]
  | .vhash _ d a b | .vlane _ d a b | .vcvt _ d a b | .vscale _ d a b | .vpack _ d a b
  | .vunpack _ d a b => [.dstV d, .srcV a, .srcS b]
  | .vquant _ d a b | .vdequant _ d a b | .vcvts _ d a b => [.dstV d, .srcV a, .srcV b]
  | .mxLdb _ a | .mxLdbs _ a | .mxClr _ a => [.srcS a]
  | .mxLds _ a b => [.srcS a, .srcV b]
  | .mxArow _ a b => [.srcV a, .srcS b]
  | .mxRun _ a b | .mxPair _ a b | .mxEpi _ a b => [.srcS a, .srcS b]
  | .mxWr _ a b => [.srcV a, .srcS b]
  | .mxRd _ d a => [.dstRd d, .srcS a]
  | .mxSig _ d a => [.dstS d, .srcS a]
  | .mxMode _ d _ _ => [.dstS d]
  | .ld _ d a _ => [.dstS d, .srcS a]
  | .st _ a b => [.srcS a, .srcS b]
  | .vld _ d a _ => [.dstV d, .srcS a]
  | .vst _ a b => [.srcV a, .srcS b]
  | .vgath _ d a => [.dstV d, .srcV a]
  | .vscat _ a b => [.srcV a, .srcV b]
  | .bdecl _ _ a b => [.srcS a, .srcS b]
  | .bset _ _ _ => []
  | .atom _ d a b => [.dstS d, .srcS a, .srcS b]
  | .vatom _ d a b => [.dstV d, .srcV a, .srcV b]
  | .bstat _ d _ => [.dstS d]
  | .rgath _ d a b => [.dstV d, .srcV a, .srcS b]
  | .cpGet _ _ a b | .cpPut _ _ a b | .cpFill _ _ a b | .cpScrub _ _ a b | .cpAmo _ _ a b => [.srcS a, .srcS b]
  | .cpGath _ _ a b => [.srcV a, .srcS b]
  | .cpFence _ _ | .cpWait _ _ | .cpInv _ _ _ => []
  | .cpWp _ d _ => [.dstS d]
  | .cpBind _ _ a => [.srcS a]
  | .barInit _ d a b => [.dstS d, .srcS a, .srcS b]
  | .barArv _ a b | .barWait _ a b => [.srcS a, .srcS b]
  | .snd _ a b => [.srcAny a, .srcS b]
  | .rcv _ d a => [.dstRcv d, .srcS a]
  | .fence _ _ _ | .acq _ _ _ | .rel _ _ _ => []
  | .ltrd _ d _ => [.dstS d]
  | .clBase _ a b => [.srcS a, .srcS b]
  | .clFire _ a => [.srcS a]
  | .clStat _ d a _ => [.dstS d, .srcS a]
  | .pkSnd _ a b => [.srcAny a, .srcS b]
  | .ampMap _ a b => [.srcV a, .srcS b]
  | .ampGate _ a b | .ampDiag _ a b | .ampInit _ a b => [.srcS a, .srcS b]
  | .ampCtl _ d _ => [.dstS d]
  | .ampSwap _ a => [.srcS a]
  | .ampNorm _ d a b => [.dstS d, .srcS a, .srcS b]
  | .ampProb _ d a => [.dstS d, .srcS a]
  | .qrTab _ a b | .qrSeed _ a b => [.srcV a, .srcS b]
  | .qrGen _ d a b | .qrGenf _ d a b => [.dstV d, .srcS a, .srcS b]
  | .qrSkip _ d a b => [.dstS d, .srcS a, .srcS b]
  | .trap _ _ | .brk _ _ | .icinv _ _ _ => []
  | .rdsys _ d _ => [.dstS d]
  | .wrsys _ d a _ => [.dstS d, .srcS a]
  | _ => []

/-- The depth of a queue or unit input port (R103, R111); 0 for a port that is neither. -/
def Port.depth : Port → Nat
  | .s _ | .v _ => 4
  | .o _ => 2
  | .mxA | .mxB => 2
  | .ampU => 4
  | .lk => 8
  | _ => 0

/-- The indices R402 lists; every other index is reserved. -/
def sysIndexOk (x : BitVec 8) : Bool :=
  let n := x.toNat
  n ≤ 0x11 || (0x20 ≤ n && n ≤ 0x2F) || (0x30 ≤ n && n ≤ 0x3B) || (0x40 ≤ n && n ≤ 0x46)

/-- GROUP is a reserved field unless SCOPE is 1 (R316, R410). -/
def scopeFieldOk (g : BitVec 8) (s : BitVec 2) : Bool := s == 1 || g == 0

/-- The field limits an entry states as ILLEGAL_FIELD without reading the machine (R35, R36, and the entries). -/
def Instr.fieldsOk : Instr → Bool
  | .qdrop _ q n => n != 0 && (q.depth == 0 || n.toNat ≤ q.depth)
  | .bdecl _ n _ _ => n.toNat < 32
  | .bset _ n k => n.toNat < 32 && 1 ≤ k.toNat && k.toNat ≤ 5
  | .bstat _ _ n => n.toNat < 32
  | .cpWp _ _ n => n.toNat < 8
  | .fence _ g s | .acq _ g s | .rel _ g s => scopeFieldOk g s
  | .icinv _ g s => s != 3 && scopeFieldOk g s
  | .ltrd _ _ s => s != 3
  | .clStat _ _ _ s => s.toNat ≤ 2 || s.toNat == 4
  | .rdsys _ _ x | .wrsys _ _ _ x => sysIndexOk x
  | _ => true

/-- The pipe of an operation word (R61); `none` for P-format words and events. -/
def Instr.pipe : Instr → Option PipeClass
  | .mov .. | .movi .. | .qdrop .. | .qlen .. | .add .. | .sub .. | .mul .. | .mulh .. | .and .. | .or .. | .xor ..
  | .shl .. | .shr .. | .sra .. | .min .. | .max .. | .ceq .. | .clt .. | .cltu .. | .sel .. | .addi .. | .clz ..
  | .popc .. | .bfx .. | .br .. | .brz .. | .brnz .. | .call .. | .ret .. | .loop .. | .loopf .. | .nop ..
  | .waitlt .. | .step .. | .rdv .. | .halt .. | .ld .. | .st .. | .bdecl .. | .bset .. | .atom .. | .bstat ..
  | .barInit .. | .barArv .. | .barWait .. | .fence .. | .acq .. | .rel .. | .ltrd .. | .trap .. | .brk ..
  | .icinv .. | .rdsys .. | .wrsys .. => some .s
  | .vmov .. | .vbcast .. | .vext .. | .vins .. | .vadd .. | .vsub .. | .vmul .. | .vfma .. | .vfms .. | .vmin ..
  | .vmax .. | .vabs .. | .vand .. | .vor .. | .vxor .. | .vshl .. | .vshr .. | .vceq .. | .vclt .. | .vsel ..
  | .vrcp .. | .vrsq .. | .vexp2 .. | .vlog2 .. | .vred .. | .vredx .. | .vperm .. | .vcomp .. | .vhash ..
  | .vlane .. | .vcvt .. | .vquant .. | .vdequant .. | .vscale .. | .vpack .. | .vunpack .. | .vcvts .. | .vld ..
  | .vst .. | .vgath .. | .vscat .. | .vatom .. | .rgath .. | .qrTab .. | .qrSeed .. | .qrGen .. | .qrGenf ..
  | .qrSkip .. => some .v
  | .mxLdb .. | .mxLdbs .. | .mxLds .. | .mxRun .. | .mxPair .. | .mxClr .. | .mxRd .. | .mxWr .. | .mxEpi ..
  | .mxArow .. | .mxSig .. | .mxMode .. => some .m
  | .cpGet .. | .cpPut .. | .cpGath .. | .cpFill .. | .cpScrub .. | .cpFence .. | .cpWait .. | .cpWp .. | .cpBind ..
  | .cpInv .. | .cpAmo .. | .snd .. | .rcv .. | .clBase .. | .clFire .. | .clStat .. | .pkSnd .. | .ampMap ..
  | .ampGate .. | .ampDiag .. | .ampCtl .. | .ampSwap .. | .ampNorm .. | .ampProb .. | .ampInit .. => some .c
  | _ => none

/-- The chain bit of a word (R37); events have none. -/
def Instr.chain : Instr → Bool
  | .pfxImm _ | .pfxFmt _ _ _ | .pfxTs _ | .pfxRow _ _ => true
  | .sfxArv c _ => c
  | .mov c _ _ | .vmov c _ _ | .movi c _ _ | .qdrop c _ _ | .qlen c _ _ | .vbcast c _ _ _ | .vext c _ _ _
  | .vins c _ _ _ | .add c _ _ _ | .sub c _ _ _ | .mul c _ _ _ | .mulh c _ _ _ | .and c _ _ _ | .or c _ _ _
  | .xor c _ _ _ | .shl c _ _ _ | .shr c _ _ _ | .sra c _ _ _ | .min c _ _ _ | .max c _ _ _ | .ceq c _ _ _
  | .clt c _ _ _ | .cltu c _ _ _ | .sel c _ _ _ | .addi c _ _ _ | .clz c _ _ | .popc c _ _ | .bfx c _ _ _
  | .br c _ | .brz c _ _ | .brnz c _ _ | .call c _ | .ret c _ | .loop c _ _ | .loopf c _ _ | .nop c _ | .waitlt c _
  | .step c _ | .rdv c _ | .halt c _ | .vadd c _ _ _ | .vsub c _ _ _ | .vmul c _ _ _ | .vfma c _ _ _ | .vfms c _ _ _
  | .vmin c _ _ _ | .vmax c _ _ _ | .vabs c _ _ | .vand c _ _ _ | .vor c _ _ _ | .vxor c _ _ _ | .vshl c _ _ _
  | .vshr c _ _ _ | .vceq c _ _ _ | .vclt c _ _ _ | .vsel c _ _ _ | .vrcp c _ _ | .vrsq c _ _ | .vexp2 c _ _
  | .vlog2 c _ _ | .vred c _ _ | .vredx c _ _ | .vperm c _ _ _ | .vcomp c _ _ | .vhash c _ _ _ | .vlane c _ _ _
  | .vcvt c _ _ _ | .vquant c _ _ _ | .vdequant c _ _ _ | .vscale c _ _ _ | .vpack c _ _ _ | .vunpack c _ _ _
  | .vcvts c _ _ _ | .mxLdb c _ | .mxLdbs c _ | .mxLds c _ _ | .mxPair c _ _ | .mxRun c _ _ | .mxClr c _
  | .mxRd c _ _ | .mxWr c _ _ | .mxEpi c _ _ | .mxArow c _ _ | .mxSig c _ _ | .mxMode c _ _ _ | .ld c _ _ _
  | .st c _ _ | .vld c _ _ _ | .vst c _ _ | .vgath c _ _ | .vscat c _ _ | .bdecl c _ _ _ | .bset c _ _ | .atom c _ _ _
  | .vatom c _ _ _ | .bstat c _ _ | .rgath c _ _ _ | .cpGet c _ _ _ | .cpPut c _ _ _ | .cpGath c _ _ _ | .cpFill c _ _ _
  | .cpScrub c _ _ _ | .cpFence c _ | .cpWait c _ | .cpWp c _ _ | .cpBind c _ _ | .cpInv c _ _ | .cpAmo c _ _ _
  | .barInit c _ _ _ | .barArv c _ _ | .barWait c _ _ | .snd c _ _ | .rcv c _ _ | .fence c _ _ | .acq c _ _
  | .rel c _ _ | .ltrd c _ _ | .clBase c _ _ | .clFire c _ | .clStat c _ _ _ | .pkSnd c _ _ | .ampMap c _ _
  | .ampGate c _ _ | .ampDiag c _ _ | .ampCtl c _ _ | .ampSwap c _ | .ampNorm c _ _ _ | .ampProb c _ _
  | .ampInit c _ _ | .qrTab c _ _ | .qrSeed c _ _ | .qrGen c _ _ _ | .qrGenf c _ _ _ | .qrSkip c _ _ _ | .trap c _
  | .brk c _ | .icinv c _ _ | .rdsys c _ _ | .wrsys c _ _ _ => c
  | _ => false

/-- The kinds of prefix word (R53-R56). -/
inductive PfxKind where
  | imm | fmt | ts | row
  deriving DecidableEq, Repr

/-- The kind of a prefix word. -/
def Instr.pfxKind : Instr → Option PfxKind
  | .pfxImm _ => some .imm
  | .pfxFmt _ _ _ => some .fmt
  | .pfxTs _ => some .ts
  | .pfxRow _ _ => some .row
  | _ => none

/-- Whether the word is a suffix word (R57). -/
def Instr.isSfx : Instr → Bool
  | .sfxArv _ _ => true
  | _ => false

/-- Whether a target accepts a prefix of the kind (R53-R56). -/
def Instr.accepts (i : Instr) : PfxKind → Bool
  | .imm => match i with
    | .movi .. | .addi .. | .ld .. | .vld .. | .nop .. | .br .. | .brz .. | .brnz .. | .call .. | .loop .. | .loopf ..
    | .trap .. => true
    | _ => false
  | .fmt => match i with
    | .vadd .. | .vsub .. | .vmul .. | .vfma .. | .vfms .. | .vmin .. | .vmax .. | .vabs .. | .vand .. | .vor ..
    | .vxor .. | .vshl .. | .vshr .. | .vceq .. | .vclt .. | .vsel .. | .vrcp .. | .vrsq .. | .vexp2 .. | .vlog2 ..
    | .vred .. | .vredx .. | .vperm .. | .vcomp .. | .vhash .. | .vlane .. | .vcvt .. | .vquant .. | .vdequant ..
    | .vscale .. | .vpack .. | .vunpack .. | .vcvts .. | .mxLdb .. | .mxLdbs .. | .mxLds .. | .mxRun .. | .mxPair ..
    | .mxClr .. | .mxRd .. | .mxWr .. | .mxEpi .. | .mxArow .. | .mxSig .. | .mxMode .. | .vatom .. | .rgath .. => true
    | _ => false
  | .ts => match i with
    | .snd .. | .rcv .. | .rdv .. | .step .. | .mxPair .. | .cpGet .. | .cpGath .. => true
    | _ => false
  | .row => match i with
    | .cpGet .. | .cpPut .. | .cpGath .. | .cpFill .. | .cpScrub .. | .cpAmo .. => true
    | _ => false

/-- Control-transfer words (R139) and loop words, which a delay bundle must not hold (R140). -/
def Instr.isTransferOrLoop : Instr → Bool
  | .br .. | .brz .. | .brnz .. | .call .. | .ret .. | .loop .. | .loopf .. => true
  | _ => false

/-- `mx.pair` must stand in a segment-entry bundle (R218), which R210 excepts. -/
def Instr.isMxPair : Instr → Bool
  | .mxPair .. => true
  | _ => false

end Sys2Proof
end

