-- ==== Sys2Proof/WellFormed.lean ====
section
/-! DEFINITION. Static well-formedness of an instruction: the field limits, peek bits and port classes of R35, R36, R48,
R49 and R51, checked without reading the machine. -/
namespace Sys2Proof

/-- Every limited field in its range and every peek bit on a queue; otherwise ILLEGAL_FIELD (R58). -/
def Instr.fieldWf (i : Instr) : Bool := i.fieldsOk && i.uses.all Use.peekOk

/-- Every port of the class its entry names; otherwise ILLEGAL_PORT (R58). -/
def Instr.portWf (i : Instr) : Bool := i.uses.all Use.portOk

/-- A word that R58 does not refuse on its own. -/
def Instr.wellFormed (i : Instr) : Bool := i.fieldWf && i.portWf

end Sys2Proof
end

