-- ==== Sys2Proof/Decode.lean ====
section
/-! DEFINITION. Decoding of instruction words (R34-R36, R61) and, after it, the encoder of the same formats. Decoding is
raw: it reads every field and refuses reserved opcodes and nonzero reserved fields (R58); the operand classes of R48-R51
are checked by `Instr.wellFormed` (Sys2Proof/WellFormed.lean). -/
namespace Sys2Proof

/-- What the 32 bits of a word are: an instruction, or the class of R58 that refuses them. -/
inductive Decoded where
  | ok (i : Instr)
  /-- Opcode reserved (R61): ILLEGAL_OP. -/
  | illegalOp
  /-- A reserved field is not zero (R36): ILLEGAL_FIELD. -/
  | illegalField
  /-- A prefix word with chain bit 0 has no target (R52): ILLEGAL_PREFIX. -/
  | illegalPrefix
  /-- Fewer than the four bytes of a word: no instruction at all. -/
  | truncated
  deriving DecidableEq, Repr

/-- The port of a 7-bit port field (R48). -/
def Port.ofCode (x : BitVec 7) : Port :=
  let n := x.toNat
  if h : n < 32 then .s ⟨n, h⟩
  else if h : n < 64 then .v ⟨n - 32, by omega⟩
  else if h : n < 72 then .o ⟨n - 64, by omega⟩
  else match n with
  | 72 => .latch .s | 73 => .latch .v0 | 74 => .latch .v1 | 75 => .latch .m
  | 76 => .latch .c0 | 77 => .latch .c1 | 78 => .latch .q | 79 => .latch .a
  | 80 => .mxA | 81 => .mxB | 82 => .ampU | 83 => .lk
  | 96 => .zero | 97 => .one | 98 => .ones | 99 => .lane | 100 => .core | 101 => .ltlo
  | _ => if h : n < 96 then .reserved ⟨(n - 84) % 38, by omega⟩ else .reserved ⟨(n - 90) % 38, by omega⟩

/-- The number of a port (R48). -/
def Port.code : Port → BitVec 7
  | .s n => BitVec.ofNat 7 n.val
  | .v n => BitVec.ofNat 7 (32 + n.val)
  | .o n => BitVec.ofNat 7 (64 + n.val)
  | .latch .s => 72#7 | .latch .v0 => 73#7 | .latch .v1 => 74#7 | .latch .m => 75#7
  | .latch .c0 => 76#7 | .latch .c1 => 77#7 | .latch .q => 78#7 | .latch .a => 79#7
  | .mxA => 80#7 | .mxB => 81#7 | .ampU => 82#7 | .lk => 83#7
  | .zero => 96#7 | .one => 97#7 | .ones => 98#7 | .lane => 99#7 | .core => 100#7 | .ltlo => 101#7
  | .reserved n => if n.val < 12 then BitVec.ofNat 7 (84 + n.val) else BitVec.ofNat 7 (90 + n.val)

/-! ## Fields (R34, R35) -/

def chainBit (w : Word) : Bool := w.getLsbD 31
def opcode (w : Word) : BitVec 8 := w.extractLsb' 23 8
def dstField (w : Word) : BitVec 7 := w.extractLsb' 16 7
def dstPort (w : Word) : Port := .ofCode (dstField w)
def srcA (w : Word) : Src := ⟨.ofCode (w.extractLsb' 9 7), w.getLsbD 8⟩
def srcB (w : Word) : Src := ⟨.ofCode (w.extractLsb' 1 7), w.getLsbD 0⟩
def low8 (w : Word) : BitVec 8 := w.extractLsb' 0 8
def imm16 (w : Word) : BitVec 16 := w.extractLsb' 0 16
/-- The condition, source or count port of the B format (R34). -/
def srcK (w : Word) : Src := ⟨.ofCode (dstField w), w.getLsbD 15⟩
def off15 (w : Word) : BitVec 15 := w.extractLsb' 0 15

/-- The instruction, provided every reserved field is zero (R36). -/
def reservedZero (ok : Bool) (i : Instr) : Decoded := if ok then .ok i else .illegalField

def decT (k : Bool → Port → Src → Src → Instr) (w : Word) : Decoded := .ok (k (chainBit w) (dstPort w) (srcA w) (srcB w))
def decTA (k : Bool → Port → Src → Instr) (w : Word) : Decoded :=
  reservedZero (low8 w == 0) (k (chainBit w) (dstPort w) (srcA w))
def decAB (k : Bool → Src → Src → Instr) (w : Word) : Decoded :=
  reservedZero (dstField w == 0) (k (chainBit w) (srcA w) (srcB w))
def decA (k : Bool → Src → Instr) (w : Word) : Decoded :=
  reservedZero (dstField w == 0 && low8 w == 0) (k (chainBit w) (srcA w))
def decI (k : Bool → Port → Src → BitVec 8 → Instr) (w : Word) : Decoded :=
  .ok (k (chainBit w) (dstPort w) (srcA w) (low8 w))
def decDI (k : Bool → Port → BitVec 8 → Instr) (w : Word) : Decoded :=
  reservedZero (w.extractLsb' 8 8 == 0) (k (chainBit w) (dstPort w) (low8 w))
def decQD (k : Bool → Port → BitVec 8 → Instr) (w : Word) : Decoded :=
  reservedZero (dstField w == 0 && !w.getLsbD 8) (k (chainBit w) (.ofCode (w.extractLsb' 9 7)) (low8 w))
def decQL (k : Bool → Port → Port → Instr) (w : Word) : Decoded :=
  reservedZero (w.extractLsb' 0 9 == 0) (k (chainBit w) (dstPort w) (.ofCode (w.extractLsb' 9 7)))
def decK (k : Bool → Port → BitVec 16 → Instr) (w : Word) : Decoded := .ok (k (chainBit w) (dstPort w) (imm16 w))
def decK0 (k : Bool → BitVec 16 → Instr) (w : Word) : Decoded :=
  reservedZero (dstField w == 0) (k (chainBit w) (imm16 w))
def decK8 (k : Bool → BitVec 8 → Instr) (w : Word) : Decoded :=
  reservedZero (w.extractLsb' 8 15 == 0) (k (chainBit w) (low8 w))
def decB (k : Bool → Src → BitVec 15 → Instr) (w : Word) : Decoded := .ok (k (chainBit w) (srcK w) (off15 w))
def decB0 (k : Bool → BitVec 15 → Instr) (w : Word) : Decoded :=
  reservedZero (w.extractLsb' 15 8 == 0) (k (chainBit w) (off15 w))
def decRET (k : Bool → Src → Instr) (w : Word) : Decoded :=
  reservedZero (off15 w == 0) (k (chainBit w) (srcK w))
def decTQ (k : Bool → BitVec 3 → Src → Src → Instr) (w : Word) : Decoded :=
  reservedZero (w.extractLsb' 19 4 == 0) (k (chainBit w) (w.extractLsb' 16 3) (srcA w) (srcB w))
def decTQA (k : Bool → BitVec 3 → Src → Instr) (w : Word) : Decoded :=
  reservedZero (w.extractLsb' 19 4 == 0 && low8 w == 0) (k (chainBit w) (w.extractLsb' 16 3) (srcA w))
def decBUF (k : Bool → BitVec 7 → Src → Src → Instr) (w : Word) : Decoded :=
  .ok (k (chainBit w) (dstField w) (srcA w) (srcB w))
def decBI (k : Bool → BitVec 7 → BitVec 8 → Instr) (w : Word) : Decoded :=
  reservedZero (w.extractLsb' 8 8 == 0) (k (chainBit w) (dstField w) (low8 w))
def decMODE (k : Bool → Port → Bool → Bool → Instr) (w : Word) : Decoded :=
  reservedZero (w.extractLsb' 2 14 == 0) (k (chainBit w) (dstPort w) (w.getLsbD 1) (w.getLsbD 0))
def decINV (k : Bool → Bool → BitVec 6 → Instr) (w : Word) : Decoded :=
  reservedZero (dstField w == 0 && w.extractLsb' 6 9 == 0) (k (chainBit w) (w.getLsbD 15) (w.extractLsb' 0 6))
def decSCOPE (k : Bool → BitVec 8 → BitVec 2 → Instr) (w : Word) : Decoded :=
  reservedZero (dstField w == 0 && w.extractLsb' 2 6 == 0) (k (chainBit w) (w.extractLsb' 8 8) (w.extractLsb' 0 2))
def decLT (k : Bool → Port → BitVec 2 → Instr) (w : Word) : Decoded :=
  reservedZero (w.extractLsb' 2 14 == 0) (k (chainBit w) (dstPort w) (w.extractLsb' 0 2))
def decCTL (k : Bool → Port → Bool → Instr) (w : Word) : Decoded :=
  reservedZero (w.extractLsb' 1 15 == 0) (k (chainBit w) (dstPort w) (w.getLsbD 0))

/-- A prefix word chains to its target; one that ends its bundle has none (R52). -/
def decPrefix (w : Word) (d : Decoded) : Decoded :=
  match d with
  | .ok i => if chainBit w then .ok i else .illegalPrefix
  | d => d

def decPfxImm (k : BitVec 23 → Instr) (w : Word) : Decoded := decPrefix w (.ok (k (w.extractLsb' 0 23)))
def decPfxFmt (k : Bool → BitVec 2 → BitVec 4 → Instr) (w : Word) : Decoded :=
  decPrefix w (reservedZero (w.extractLsb' 7 16 == 0) (k (w.getLsbD 6) (w.extractLsb' 4 2) (w.extractLsb' 0 4)))
def decPfxTs (k : BitVec 23 → Instr) (w : Word) : Decoded := decPrefix w (.ok (k (w.extractLsb' 0 23)))
def decPfxRow (k : Bool → Bool → Instr) (w : Word) : Decoded :=
  decPrefix w (reservedZero (w.extractLsb' 2 21 == 0) (k (w.getLsbD 1) (w.getLsbD 0)))
def decSfxArv (k : Bool → BitVec 19 → Instr) (w : Word) : Decoded :=
  reservedZero (w.extractLsb' 0 4 == 0) (k (chainBit w) (w.extractLsb' 4 19))

/-! ## The opcode map (R61) -/

/-- Opcodes 0x00-0x0F of R61. -/
def ofWord0 (w : Word) : Decoded :=
  match (opcode w).toNat with
  | 0x01 => decPfxImm .pfxImm w
  | 0x02 => decPfxFmt .pfxFmt w
  | 0x03 => decPfxTs .pfxTs w
  | 0x04 => decPfxRow .pfxRow w
  | 0x05 => decSfxArv .sfxArv w
  | 0x08 => decTA .mov w
  | 0x09 => decTA .vmov w
  | 0x0A => decK .movi w
  | 0x0B => decQD .qdrop w
  | 0x0C => decQL .qlen w
  | 0x0D => decT .vbcast w
  | 0x0E => decI .vext w
  | 0x0F => decI .vins w
  | _ => .illegalOp

/-- Opcodes 0x10-0x1F of R61. -/
def ofWord1 (w : Word) : Decoded :=
  match (opcode w).toNat with
  | 0x10 => decT .add w
  | 0x11 => decT .sub w
  | 0x12 => decT .mul w
  | 0x13 => decT .mulh w
  | 0x14 => decT .and w
  | 0x15 => decT .or w
  | 0x16 => decT .xor w
  | 0x17 => decT .shl w
  | 0x18 => decT .shr w
  | 0x19 => decT .sra w
  | 0x1A => decT .min w
  | 0x1B => decT .max w
  | 0x1C => decT .ceq w
  | 0x1D => decT .clt w
  | 0x1E => decT .cltu w
  | 0x1F => decT .sel w
  | _ => .illegalOp

/-- Opcodes 0x20-0x2F of R61. -/
def ofWord2 (w : Word) : Decoded :=
  match (opcode w).toNat with
  | 0x20 => decI .addi w
  | 0x21 => decTA .clz w
  | 0x22 => decTA .popc w
  | 0x23 => decT .bfx w
  | _ => .illegalOp

/-- Opcodes 0x30-0x3F of R61. -/
def ofWord3 (w : Word) : Decoded :=
  match (opcode w).toNat with
  | 0x30 => decB0 .br w
  | 0x31 => decB .brz w
  | 0x32 => decB .brnz w
  | 0x33 => decB0 .call w
  | 0x34 => decRET .ret w
  | 0x35 => decB .loop w
  | 0x36 => decB .loopf w
  | 0x37 => decK0 .nop w
  | 0x38 => decA .waitlt w
  | 0x39 => decK0 .step w
  | 0x3A => decK8 .rdv w
  | 0x3B => decK0 .halt w
  | _ => .illegalOp

/-- Opcodes 0x40-0x4F of R61. -/
def ofWord4 (w : Word) : Decoded :=
  match (opcode w).toNat with
  | 0x40 => decT .vadd w
  | 0x41 => decT .vsub w
  | 0x42 => decT .vmul w
  | 0x43 => decT .vfma w
  | 0x44 => decT .vfms w
  | 0x45 => decT .vmin w
  | 0x46 => decT .vmax w
  | 0x47 => decTA .vabs w
  | 0x48 => decT .vand w
  | 0x49 => decT .vor w
  | 0x4A => decT .vxor w
  | 0x4B => decT .vshl w
  | 0x4C => decT .vshr w
  | 0x4D => decT .vceq w
  | 0x4E => decT .vclt w
  | 0x4F => decT .vsel w
  | _ => .illegalOp

/-- Opcodes 0x50-0x5F of R61. -/
def ofWord5 (w : Word) : Decoded :=
  match (opcode w).toNat with
  | 0x50 => decTA .vrcp w
  | 0x51 => decTA .vrsq w
  | 0x52 => decTA .vexp2 w
  | 0x53 => decTA .vlog2 w
  | 0x54 => decTA .vred w
  | 0x55 => decTA .vredx w
  | 0x56 => decT .vperm w
  | 0x57 => decTA .vcomp w
  | 0x58 => decT .vhash w
  | 0x59 => decT .vlane w
  | _ => .illegalOp

/-- Opcodes 0x60-0x6F of R61. -/
def ofWord6 (w : Word) : Decoded :=
  match (opcode w).toNat with
  | 0x60 => decT .vcvt w
  | 0x61 => decT .vquant w
  | 0x62 => decT .vdequant w
  | 0x63 => decT .vscale w
  | 0x64 => decT .vpack w
  | 0x65 => decT .vunpack w
  | 0x66 => decT .vcvts w
  | _ => .illegalOp

/-- Opcodes 0x70-0x7F of R61. -/
def ofWord7 (w : Word) : Decoded :=
  match (opcode w).toNat with
  | 0x70 => decA .mxLdb w
  | 0x71 => decA .mxLdbs w
  | 0x72 => decAB .mxLds w
  | 0x73 => decAB .mxRun w
  | 0x74 => decAB .mxPair w
  | 0x75 => decA .mxClr w
  | 0x76 => decTA .mxRd w
  | 0x77 => decAB .mxWr w
  | 0x78 => decAB .mxEpi w
  | 0x79 => decAB .mxArow w
  | 0x7A => decTA .mxSig w
  | 0x7B => decMODE .mxMode w
  | _ => .illegalOp

/-- Opcodes 0x80-0x8F of R61. -/
def ofWord8 (w : Word) : Decoded :=
  match (opcode w).toNat with
  | 0x80 => decI .ld w
  | 0x81 => decAB .st w
  | 0x82 => decI .vld w
  | 0x83 => decAB .vst w
  | 0x84 => decTA .vgath w
  | 0x85 => decAB .vscat w
  | 0x86 => decBUF .bdecl w
  | 0x87 => decBI .bset w
  | 0x88 => decT .atom w
  | 0x89 => decT .vatom w
  | 0x8A => decDI .bstat w
  | 0x8B => decT .rgath w
  | _ => .illegalOp

/-- Opcodes 0x90-0x9F of R61. -/
def ofWord9 (w : Word) : Decoded :=
  match (opcode w).toNat with
  | 0x90 => decTQ .cpGet w
  | 0x91 => decTQ .cpPut w
  | 0x92 => decTQ .cpGath w
  | 0x93 => decTQ .cpFill w
  | 0x94 => decTQ .cpScrub w
  | 0x95 => decK8 .cpFence w
  | 0x96 => decK8 .cpWait w
  | 0x97 => decDI .cpWp w
  | 0x98 => decTQA .cpBind w
  | 0x99 => decINV .cpInv w
  | 0x9A => decTQ .cpAmo w
  | _ => .illegalOp

/-- Opcodes 0xA0-0xAF of R61. -/
def ofWordA (w : Word) : Decoded :=
  match (opcode w).toNat with
  | 0xA0 => decT .barInit w
  | 0xA1 => decAB .barArv w
  | 0xA2 => decAB .barWait w
  | 0xA3 => decAB .snd w
  | 0xA4 => decTA .rcv w
  | 0xA5 => decSCOPE .fence w
  | 0xA6 => decSCOPE .acq w
  | 0xA7 => decSCOPE .rel w
  | 0xA8 => decLT .ltrd w
  | 0xA9 => decAB .clBase w
  | 0xAA => decA .clFire w
  | 0xAB => decI .clStat w
  | 0xAC => decAB .pkSnd w
  | _ => .illegalOp

/-- Opcodes 0xB0-0xBF of R61. -/
def ofWordB (w : Word) : Decoded :=
  match (opcode w).toNat with
  | 0xB0 => decAB .ampMap w
  | 0xB1 => decAB .ampGate w
  | 0xB2 => decAB .ampDiag w
  | 0xB3 => decCTL .ampCtl w
  | 0xB4 => decA .ampSwap w
  | 0xB5 => decT .ampNorm w
  | 0xB6 => decTA .ampProb w
  | 0xB7 => decAB .ampInit w
  | 0xB8 => decAB .qrTab w
  | 0xB9 => decAB .qrSeed w
  | 0xBA => decT .qrGen w
  | 0xBB => decT .qrGenf w
  | 0xBC => decT .qrSkip w
  | _ => .illegalOp

/-- Opcodes 0xC0-0xCF of R61. -/
def ofWordC (w : Word) : Decoded :=
  match (opcode w).toNat with
  | 0xC0 => decK0 .trap w
  | 0xC1 => decK0 .brk w
  | 0xC2 => decSCOPE .icinv w
  | 0xC3 => decDI .rdsys w
  | 0xC4 => decI .wrsys w
  | _ => .illegalOp

/-- The instruction a 32-bit word holds, or the trap class of R58 that refuses it (R34-R36, R61). -/
def Instr.ofWord (w : Word) : Decoded :=
  match (opcode w).toNat / 16 with
  | 0x0 => ofWord0 w
  | 0x1 => ofWord1 w
  | 0x2 => ofWord2 w
  | 0x3 => ofWord3 w
  | 0x4 => ofWord4 w
  | 0x5 => ofWord5 w
  | 0x6 => ofWord6 w
  | 0x7 => ofWord7 w
  | 0x8 => ofWord8 w
  | 0x9 => ofWord9 w
  | 0xA => ofWordA w
  | 0xB => ofWordB w
  | 0xC => ofWordC w
  | _ => .illegalOp

/-! ## Encoding (R34, R35) -/

def Src.code (a : Src) : BitVec 8 := a.port.code ++ BitVec.ofBool a.peek

/-- A word from its chain bit, opcode and payload [22:0]. -/
def encWord (c : Bool) (op : BitVec 8) (p : BitVec 23) : Word := BitVec.ofBool c ++ op ++ p

def encT (op : BitVec 8) (c : Bool) (d : Port) (a b : Src) : Word := encWord c op (d.code ++ a.code ++ b.code)
def encTA (op : BitVec 8) (c : Bool) (d : Port) (a : Src) : Word := encWord c op (d.code ++ a.code ++ 0#8)
def encAB (op : BitVec 8) (c : Bool) (a b : Src) : Word := encWord c op (0#7 ++ a.code ++ b.code)
def encA (op : BitVec 8) (c : Bool) (a : Src) : Word := encWord c op (0#7 ++ a.code ++ 0#8)
def encI (op : BitVec 8) (c : Bool) (d : Port) (a : Src) (i : BitVec 8) : Word := encWord c op (d.code ++ a.code ++ i)
def encDI (op : BitVec 8) (c : Bool) (d : Port) (i : BitVec 8) : Word := encWord c op (d.code ++ 0#8 ++ i)
def encQD (op : BitVec 8) (c : Bool) (q : Port) (i : BitVec 8) : Word := encWord c op (0#7 ++ q.code ++ 0#1 ++ i)
def encQL (op : BitVec 8) (c : Bool) (d q : Port) : Word := encWord c op (d.code ++ q.code ++ 0#9)
def encK (op : BitVec 8) (c : Bool) (d : Port) (i : BitVec 16) : Word := encWord c op (d.code ++ i)
def encK0 (op : BitVec 8) (c : Bool) (i : BitVec 16) : Word := encWord c op (0#7 ++ i)
def encK8 (op : BitVec 8) (c : Bool) (i : BitVec 8) : Word := encWord c op (0#15 ++ i)
def encB (op : BitVec 8) (c : Bool) (k : Src) (o : BitVec 15) : Word := encWord c op (k.code ++ o)
def encB0 (op : BitVec 8) (c : Bool) (o : BitVec 15) : Word := encWord c op (0#8 ++ o)
def encRET (op : BitVec 8) (c : Bool) (k : Src) : Word := encWord c op (k.code ++ 0#15)
def encTQ (op : BitVec 8) (c : Bool) (n : BitVec 3) (a b : Src) : Word := encWord c op (0#4 ++ n ++ a.code ++ b.code)
def encTQA (op : BitVec 8) (c : Bool) (n : BitVec 3) (a : Src) : Word := encWord c op (0#4 ++ n ++ a.code ++ 0#8)
def encBUF (op : BitVec 8) (c : Bool) (n : BitVec 7) (a b : Src) : Word := encWord c op (n ++ a.code ++ b.code)
def encBI (op : BitVec 8) (c : Bool) (n : BitVec 7) (i : BitVec 8) : Word := encWord c op (n ++ 0#8 ++ i)
def encMODE (op : BitVec 8) (c : Bool) (d : Port) (h o : Bool) : Word :=
  encWord c op (d.code ++ 0#14 ++ BitVec.ofBool h ++ BitVec.ofBool o)
def encINV (op : BitVec 8) (c : Bool) (l : Bool) (w : BitVec 6) : Word := encWord c op (0#7 ++ BitVec.ofBool l ++ 0#9 ++ w)
def encSCOPE (op : BitVec 8) (c : Bool) (g : BitVec 8) (s : BitVec 2) : Word := encWord c op (0#7 ++ g ++ 0#6 ++ s)
def encLT (op : BitVec 8) (c : Bool) (d : Port) (s : BitVec 2) : Word := encWord c op (d.code ++ 0#14 ++ s)
def encCTL (op : BitVec 8) (c : Bool) (d : Port) (n : Bool) : Word := encWord c op (d.code ++ 0#15 ++ BitVec.ofBool n)
def encPfxImm (op : BitVec 8) (p : BitVec 23) : Word := encWord true op p
def encPfxFmt (op : BitVec 8) (e : Bool) (r : BitVec 2) (n : BitVec 4) : Word :=
  encWord true op (0#16 ++ BitVec.ofBool e ++ r ++ n)
def encPfxTs (op : BitVec 8) (d : BitVec 23) : Word := encWord true op d
def encPfxRow (op : BitVec 8) (s l : Bool) : Word := encWord true op (0#21 ++ BitVec.ofBool s ++ BitVec.ofBool l)
def encSfxArv (op : BitVec 8) (c : Bool) (a : BitVec 19) : Word := encWord c op (a ++ 0#4)

/-- The word of an instruction; `none` for the events and commands, which the spec gives no encoding. -/
def Instr.encode : Instr → Option Word
  | .pfxImm p => some (encPfxImm 0x01#8 p)
  | .pfxFmt e r n => some (encPfxFmt 0x02#8 e r n)
  | .pfxTs d => some (encPfxTs 0x03#8 d)
  | .pfxRow s l => some (encPfxRow 0x04#8 s l)
  | .sfxArv c a => some (encSfxArv 0x05#8 c a)
  | .mov c d a => some (encTA 0x08#8 c d a)
  | .vmov c d a => some (encTA 0x09#8 c d a)
  | .movi c d i => some (encK 0x0A#8 c d i)
  | .qdrop c d i => some (encQD 0x0B#8 c d i)
  | .qlen c d a => some (encQL 0x0C#8 c d a)
  | .vbcast c d a b => some (encT 0x0D#8 c d a b)
  | .vext c d a i => some (encI 0x0E#8 c d a i)
  | .vins c d a i => some (encI 0x0F#8 c d a i)
  | .add c d a b => some (encT 0x10#8 c d a b)
  | .sub c d a b => some (encT 0x11#8 c d a b)
  | .mul c d a b => some (encT 0x12#8 c d a b)
  | .mulh c d a b => some (encT 0x13#8 c d a b)
  | .and c d a b => some (encT 0x14#8 c d a b)
  | .or c d a b => some (encT 0x15#8 c d a b)
  | .xor c d a b => some (encT 0x16#8 c d a b)
  | .shl c d a b => some (encT 0x17#8 c d a b)
  | .shr c d a b => some (encT 0x18#8 c d a b)
  | .sra c d a b => some (encT 0x19#8 c d a b)
  | .min c d a b => some (encT 0x1A#8 c d a b)
  | .max c d a b => some (encT 0x1B#8 c d a b)
  | .ceq c d a b => some (encT 0x1C#8 c d a b)
  | .clt c d a b => some (encT 0x1D#8 c d a b)
  | .cltu c d a b => some (encT 0x1E#8 c d a b)
  | .sel c d a b => some (encT 0x1F#8 c d a b)
  | .addi c d a i => some (encI 0x20#8 c d a i)
  | .clz c d a => some (encTA 0x21#8 c d a)
  | .popc c d a => some (encTA 0x22#8 c d a)
  | .bfx c d a b => some (encT 0x23#8 c d a b)
  | .br c o => some (encB0 0x30#8 c o)
  | .brz c k o => some (encB 0x31#8 c k o)
  | .brnz c k o => some (encB 0x32#8 c k o)
  | .call c o => some (encB0 0x33#8 c o)
  | .ret c k => some (encRET 0x34#8 c k)
  | .loop c k o => some (encB 0x35#8 c k o)
  | .loopf c k o => some (encB 0x36#8 c k o)
  | .nop c i => some (encK0 0x37#8 c i)
  | .waitlt c a => some (encA 0x38#8 c a)
  | .step c i => some (encK0 0x39#8 c i)
  | .rdv c i => some (encK8 0x3A#8 c i)
  | .halt c i => some (encK0 0x3B#8 c i)
  | .vadd c d a b => some (encT 0x40#8 c d a b)
  | .vsub c d a b => some (encT 0x41#8 c d a b)
  | .vmul c d a b => some (encT 0x42#8 c d a b)
  | .vfma c d a b => some (encT 0x43#8 c d a b)
  | .vfms c d a b => some (encT 0x44#8 c d a b)
  | .vmin c d a b => some (encT 0x45#8 c d a b)
  | .vmax c d a b => some (encT 0x46#8 c d a b)
  | .vabs c d a => some (encTA 0x47#8 c d a)
  | .vand c d a b => some (encT 0x48#8 c d a b)
  | .vor c d a b => some (encT 0x49#8 c d a b)
  | .vxor c d a b => some (encT 0x4A#8 c d a b)
  | .vshl c d a b => some (encT 0x4B#8 c d a b)
  | .vshr c d a b => some (encT 0x4C#8 c d a b)
  | .vceq c d a b => some (encT 0x4D#8 c d a b)
  | .vclt c d a b => some (encT 0x4E#8 c d a b)
  | .vsel c d a b => some (encT 0x4F#8 c d a b)
  | .vrcp c d a => some (encTA 0x50#8 c d a)
  | .vrsq c d a => some (encTA 0x51#8 c d a)
  | .vexp2 c d a => some (encTA 0x52#8 c d a)
  | .vlog2 c d a => some (encTA 0x53#8 c d a)
  | .vred c d a => some (encTA 0x54#8 c d a)
  | .vredx c d a => some (encTA 0x55#8 c d a)
  | .vperm c d a b => some (encT 0x56#8 c d a b)
  | .vcomp c d a => some (encTA 0x57#8 c d a)
  | .vhash c d a b => some (encT 0x58#8 c d a b)
  | .vlane c d a b => some (encT 0x59#8 c d a b)
  | .vcvt c d a b => some (encT 0x60#8 c d a b)
  | .vquant c d a b => some (encT 0x61#8 c d a b)
  | .vdequant c d a b => some (encT 0x62#8 c d a b)
  | .vscale c d a b => some (encT 0x63#8 c d a b)
  | .vpack c d a b => some (encT 0x64#8 c d a b)
  | .vunpack c d a b => some (encT 0x65#8 c d a b)
  | .vcvts c d a b => some (encT 0x66#8 c d a b)
  | .mxLdb c a => some (encA 0x70#8 c a)
  | .mxLdbs c a => some (encA 0x71#8 c a)
  | .mxLds c a b => some (encAB 0x72#8 c a b)
  | .mxPair c a b => some (encAB 0x74#8 c a b)
  | .mxRun c a b => some (encAB 0x73#8 c a b)
  | .mxClr c a => some (encA 0x75#8 c a)
  | .mxRd c d a => some (encTA 0x76#8 c d a)
  | .mxWr c a b => some (encAB 0x77#8 c a b)
  | .mxEpi c a b => some (encAB 0x78#8 c a b)
  | .mxArow c a b => some (encAB 0x79#8 c a b)
  | .mxSig c d a => some (encTA 0x7A#8 c d a)
  | .mxMode c d h o => some (encMODE 0x7B#8 c d h o)
  | .ld c d a i => some (encI 0x80#8 c d a i)
  | .st c a b => some (encAB 0x81#8 c a b)
  | .vld c d a i => some (encI 0x82#8 c d a i)
  | .vst c a b => some (encAB 0x83#8 c a b)
  | .vgath c d a => some (encTA 0x84#8 c d a)
  | .vscat c a b => some (encAB 0x85#8 c a b)
  | .bdecl c n a b => some (encBUF 0x86#8 c n a b)
  | .bset c n i => some (encBI 0x87#8 c n i)
  | .atom c d a b => some (encT 0x88#8 c d a b)
  | .vatom c d a b => some (encT 0x89#8 c d a b)
  | .bstat c d i => some (encDI 0x8A#8 c d i)
  | .rgath c d a b => some (encT 0x8B#8 c d a b)
  | .cpGet c n a b => some (encTQ 0x90#8 c n a b)
  | .cpPut c n a b => some (encTQ 0x91#8 c n a b)
  | .cpGath c n a b => some (encTQ 0x92#8 c n a b)
  | .cpFill c n a b => some (encTQ 0x93#8 c n a b)
  | .cpScrub c n a b => some (encTQ 0x94#8 c n a b)
  | .cpFence c i => some (encK8 0x95#8 c i)
  | .cpWait c i => some (encK8 0x96#8 c i)
  | .cpWp c d i => some (encDI 0x97#8 c d i)
  | .cpBind c n a => some (encTQA 0x98#8 c n a)
  | .cpInv c l w => some (encINV 0x99#8 c l w)
  | .cpAmo c n a b => some (encTQ 0x9A#8 c n a b)
  | .barInit c d a b => some (encT 0xA0#8 c d a b)
  | .barArv c a b => some (encAB 0xA1#8 c a b)
  | .barWait c a b => some (encAB 0xA2#8 c a b)
  | .snd c a b => some (encAB 0xA3#8 c a b)
  | .rcv c d a => some (encTA 0xA4#8 c d a)
  | .fence c g s => some (encSCOPE 0xA5#8 c g s)
  | .acq c g s => some (encSCOPE 0xA6#8 c g s)
  | .rel c g s => some (encSCOPE 0xA7#8 c g s)
  | .ltrd c d s => some (encLT 0xA8#8 c d s)
  | .clBase c a b => some (encAB 0xA9#8 c a b)
  | .clFire c a => some (encA 0xAA#8 c a)
  | .clStat c d a i => some (encI 0xAB#8 c d a i)
  | .pkSnd c a b => some (encAB 0xAC#8 c a b)
  | .ampMap c a b => some (encAB 0xB0#8 c a b)
  | .ampGate c a b => some (encAB 0xB1#8 c a b)
  | .ampDiag c a b => some (encAB 0xB2#8 c a b)
  | .ampCtl c d n => some (encCTL 0xB3#8 c d n)
  | .ampSwap c a => some (encA 0xB4#8 c a)
  | .ampNorm c d a b => some (encT 0xB5#8 c d a b)
  | .ampProb c d a => some (encTA 0xB6#8 c d a)
  | .ampInit c a b => some (encAB 0xB7#8 c a b)
  | .qrTab c a b => some (encAB 0xB8#8 c a b)
  | .qrSeed c a b => some (encAB 0xB9#8 c a b)
  | .qrGen c d a b => some (encT 0xBA#8 c d a b)
  | .qrGenf c d a b => some (encT 0xBB#8 c d a b)
  | .qrSkip c d a b => some (encT 0xBC#8 c d a b)
  | .trap c i => some (encK0 0xC0#8 c i)
  | .brk c i => some (encK0 0xC1#8 c i)
  | .icinv c g s => some (encSCOPE 0xC2#8 c g s)
  | .rdsys c d i => some (encDI 0xC3#8 c d i)
  | .wrsys c d a i => some (encI 0xC4#8 c d a i)
  | _ => none

/-! ## Bytes -/

/-- The word of four bytes, little-endian (R3). -/
def wordOfBytes (b0 b1 b2 b3 : Byte) : Word := b3 ++ b2 ++ b1 ++ b0

/-- The four bytes of a word, little-endian (R3). -/
def bytesOfWord (w : Word) : List Byte :=
  [w.extractLsb' 0 8, w.extractLsb' 8 8, w.extractLsb' 16 8, w.extractLsb' 24 8]

/-- Decode the first instruction word of any bytes, with the bytes that follow it. -/
def Instr.ofBytes : List Byte → Decoded × List Byte
  | b0 :: b1 :: b2 :: b3 :: rest => (Instr.ofWord (wordOfBytes b0 b1 b2 b3), rest)
  | bs => (.truncated, bs)

/-- The instruction read from a table word: 32 bits, numbered as the opcode table numbers them. Rows of events and
commands have no bits (`nbits` is not 32) and decode to nothing. -/
def decodeTableWord (nbits w : Nat) : Option Instr :=
  if nbits = 32 then
    match Instr.ofBytes (bytesOfWord (BitVec.ofNat 32 w)) with
    | (.ok i, _) => some i
    | _ => none
  else none

end Sys2Proof
end

