-- ==== Sys2Proof/Machine/State.lean ====
section
/-! DEFINITION. The state of the whole package as plain data: everything the spec gives the machine, core by core and
for the package, and `State.reset`, the device at the end of bring-up (R452). Tables are sorted lists of key and value
in one canonical form (no entry equal to the default), see Sys2Proof/Machine/Ops.lean. -/
namespace Sys2Proof.Machine

/-- A finite table keyed by numbers: keys strictly rising, no entry equal to the table's default. -/
abbrev SMap (α : Type) := List (Nat × α)

/-! ## Values -/

/-- The two kinds of poison (R84): element poison and scale poison. -/
structure Kind where
  elem : Bool
  scale : Bool
  deriving DecidableEq, Repr

/-- A 2048-bit value with one poison kind per 32-bit word (R467): bit k of `ep` and `sp` is word k's element and scale
poison. A 64-bit value is its zero extension (R49) and carries no poison. -/
structure Val where
  bits : V2048
  ep : BitVec 64
  sp : BitVec 64
  deriving DecidableEq, Repr

/-- A 32-bit memory word with its poison kind (R240, R467). -/
structure PWord where
  w : BitVec 32
  k : Kind
  deriving DecidableEq, Repr

/-! ## Traps -/

/-- The trap codes of R387. -/
inductive TrapCode where
  | illegalOp | illegalField | illegalPort | illegalPrefix | illegalBundle | illegalTarget | lineFormat
  | queueOverflow | queueUnderflow | bufferState | pendingRead | timestamp | deadline | range | windowPerm | page
  | fetchPage | fetchPerm | uncorrectable | scalePoison | barrierFault | groupStale | commitOverflow | pairTimeout
  | signatureMismatch | trap | break | preempt | dependence | atomicSlot | feAbort | seqTable | ampMap | calendar | plan
  deriving DecidableEq, Repr

/-- A trap a core raises: its code and the FAULTADDR its rule names (R386). -/
structure Trap where
  code : TrapCode
  addr : BitVec 64
  /-- raised by a matrix instruction or by the exit check (R216) -/
  matrix : Bool
  /-- belongs to the segment that the bundle at TRAPPC would exit (R215, R270) -/
  exiting : Bool
  /-- CAUSE in the record of the barrier that a BARRIER_FAULT waits on, 0 for other traps (R297) -/
  cause : BitVec 8
  /-- dimensions of the sequence unit whose loaded bit a SEQ_TABLE clears (R378) -/
  dims : List Nat
  deriving DecidableEq, Repr

/-- A trap as the core reports it to the front-end (R386, R389). -/
structure TrapReport where
  core : Nat
  code : TrapCode
  pc : Nat
  addr : BitVec 64
  lt : Nat
  /-- the trap belongs to the segment that the named bundle would have exited (R215, R270) -/
  exiting : Bool
  /-- raised by a matrix instruction or by the exit check (R216) -/
  matrix : Bool
  /-- CAUSE of the barrier that a BARRIER_FAULT waits on, 0 for other traps (R297) -/
  cause : BitVec 8
  deriving DecidableEq, Repr

/-! ## Issue and results in flight -/

/-- The pipes of R12 in the order R106 and R237 give. -/
inductive Pipe where
  | s | v0 | v1 | m | c0 | c1
  deriving DecidableEq, Repr

/-- A buffer descriptor (R242): base, size in 64-byte units, state. -/
structure Buf where
  base : Nat
  size : Nat
  state : Nat
  deriving DecidableEq, Repr

/-- The A rows of a pass (R200): from scratchpad at an address, through a row-list entry with the buffers as they stood at issue (R243),
or popped from mx.a. -/
inductive RowSrc where
  | addr (a : Nat)
  | listed (i : Nat) (bufs : SMap Buf)
  | given (v : List PWord)
  /-- row j of the pair buffer: own half or partner half (R219) -/
  | pair (own : Bool) (j : Nat)
  deriving DecidableEq, Repr

/-- What a pass fixed at its issue (R203, R204): the format entry, MXMODE.OVW and the accumulator descriptor. -/
structure Pass where
  fmt : BitVec 32
  ovw : Bool
  acc : Nat
  asr : Nat
  deriving DecidableEq, Repr

/-- An update of a core's state that is due at a later LT (R16, R17, R395). Value entries carry the value; continuation
entries carry the reads still to perform. -/
inductive Act where
  /-- land a result: push to a queue or unit port (`zero` discards) and write a latch (R103-R111) -/
  | land (d : Port) (l : Option Latch) (v : Val)
  /-- OR flags into FLAGS (R93); the matrix pass collects its flags in its entry -/
  | flags (f : BitVec 5)
  | setP (b : Bool)
  | setM (m : BitVec 256)
  /-- `wrsys` of an index (R412), `qr.skip` of SEQBASE (R385); 0x100 and 0x101 stand for the words of the amplitude
  descriptor (R366) -/
  | sysWrite (x : Nat) (v : W64)
  | setMxmode (v : BitVec 2)
  | setAmpmode (b : Bool)
  /-- the FMTSEL value a `loopf` gives the next iteration or restores (R146) -/
  | loopFmtsel (v : BitVec 4)
  /-- `ld`: read eight bytes now, land them at the LT (R248) -/
  | readScalar (a : Nat) (d : Port) (at_ : Nat)
  /-- `vld`: read 256 bytes now (R249) -/
  | readVec (a : Nat) (d : Port) (at_ : Nat)
  /-- `vgath`: read one element per lane, `none` for an OFF lane (R250) -/
  | readLanes (wide : Bool) (as : List (Option Nat)) (d : Port) (at_ : Nat)
  /-- `atom`: read now, write two LTs later, land three later (R251) -/
  | readAtom (op : BitVec 3) (wide : Bool) (a : Nat) (v : W64) (d : Port)
  /-- `vatom`: read now, write two LTs later, land four later (R252) -/
  | readVatom (fmt : BitVec 32) (ls : List (Option (Nat × BitVec 3))) (v : Val) (d : Port)
  /-- `rgath` row: read now, write one LT later (R253) -/
  | readRow (src : Option Nat) (slen rb dest : Nat)
  /-- a core write of 32-bit words from a 4-byte-aligned address (R237) -/
  | write (a : Nat) (ws : List PWord)
  /-- `bar.init` writes its object and enters or leaves the barrier table (R311) -/
  | barInit (a : Nat) (count : Nat)
  /-- the same with its object as a debugger has edited it (R400) -/
  | barSet (a : Nat) (count : Nat) (w0 w1 : W64)
  /-- a local `bar.arv` (R312) -/
  | barArrive (a k : Nat)
  /-- an arrival of `sfx.arv` (R57) -/
  | suffixArrive (a : Nat)
  /-- a buffer descriptor comes into force (R242, R254) -/
  | bufSet (n base size state : Nat)
  /-- a copy-queue binding comes into force (R286) -/
  | bind (q : Nat) (a : Option Nat)
  /-- `cp.put`, `cp.amo`: read up to four beats of a held copy (R278) -/
  | readCopy (id j n : Nat)
  /-- one beat of a timed copy lands (R260) -/
  | timedBeat (id beat : Nat)
  /-- a receive takes its arrival (R290) -/
  | receive (chan : Nat) (d : Port)
  /-- the release LT of a rendezvous on a group slot (R153) -/
  | rdvGate (slot : Nat)
  /-- the release LT of a `step` (R155); the imm16 budget -/
  | stepGate (budget : BitVec 16)
  /-- the release LT of an `mx.pair` with H rows (R219) -/
  | pairGate (seq : BitVec 32) (par : Nat × Nat × Nat × Nat)
  /-- own row j of an `mx.pair` is read, `n` bytes of it, and sent (R219) -/
  | pairRead (j : Nat) (src : RowSrc) (n : Nat) (seq : BitVec 32) (par : Nat × Nat × Nat × Nat)
  /-- `mx.ldb`: 256 bytes of stored row k (R224) -/
  | ldbChunk (a k j : Nat)
  /-- `mx.ldbs` placement (R225) -/
  | ldbs (fmt : BitVec 32) (start : Nat) (v : Val)
  /-- `mx.lds` (R226) -/
  | lds (side : Bool) (group : Nat) (v : Val)
  /-- `mx.arow` (R227) -/
  | arow (quarter : Nat) (v : Val)
  /-- row i of a pass is read; its update is visible at the LT (R203) -/
  | passRow (p : Pass) (i : Nat) (src : RowSrc) (at_ : Nat)
  /-- the accumulator rows of one output row are updated (R207): rows from `acc`, one value per row; a row's kind is the
  union of its value's kinds; `checked` where the residue checks one of their elements (R214) -/
  | accUpdate (acc : Nat) (ovw checked : Bool) (rows : List Val)
  /-- `mx.clr` (R230) -/
  | accClear (first count : Nat)
  /-- the same with its rows as a debugger has edited them (R400) -/
  | accSet (first : Nat) (rows : List Val)
  /-- `mx.wr` (R230) -/
  | accWrite (row : Nat) (v : Val)
  | qrTab (dim : Nat) (two : Bool) (v : Val)
  | qrSeed (dim mode cnt : Nat) (v : Val)
  /-- the amplitude engine reads its slice (R361) -/
  | ampStart (id : Nat)
  /-- the amplitude engine writes its slice and QMAP (R361) -/
  | ampEnd (id base bytes : Nat)
  deriving DecidableEq, Repr

/-- A result, access or effect in flight: the LT it is due, the word that issued it, the queue slot it reserves (R105) and
whether its physical part has happened (R16). -/
structure Item where
  lt : Nat
  issue : Nat
  pipe : Pipe
  word : Nat
  dst : Option Port
  ready : Bool
  act : Act
  deriving DecidableEq, Repr

/-- A loop-stack entry (R142); `fmt` holds a `loopf`'s base, iteration and saved FMTSEL, which `fresh` says is still to be set at the
iteration's first bundle (R146). -/
structure LoopEntry where
  start : Nat
  last : Nat
  count : Nat
  fmt : Option (BitVec 4 × Nat × BitVec 4)
  fresh : Bool
  deriving DecidableEq, Repr

/-- How the next bundle is reached (R44, R45): sequentially from the preceding word, or at its own first word by a
transfer, a loop closure or kernel entry. -/
inductive Entry where
  | sequential | direct
  deriving DecidableEq, Repr

/-- The system registers that LT-timed updates change (R402), so that `rdsys` can read them as they stood before the
updates of its own LT (R411). -/
structure SysRegs where
  flags : BitVec 5
  fmtsel : BitVec 4
  /-- f0-f15 (R165), default 0 -/
  fmt : SMap (BitVec 32)
  rsig : BitVec 64
  seqbase : BitVec 32
  mxmode : BitVec 2
  ampmode : Bool
  p : Bool
  /-- RDVCNT of the four group slots (R405), default 0 -/
  rdvcnt : SMap (BitVec 32)
  /-- QMAP entries that differ from the identity (R350), keyed by qubit; the value is the entry plus one -/
  qmap : SMap Nat
  /-- amplitude descriptor words 0 and 1 (R349) -/
  amp0 : BitVec 64
  amp1 : BitVec 64
  deriving DecidableEq, Repr

/-- An outstanding rendezvous (R153): release LT and the word. -/
structure Rdv where
  group : Nat
  lt : Nat
  word : Nat
  deriving DecidableEq, Repr

/-- The B record (R199): BTYPE, BCELL and SPARSE of the latest B load. -/
structure BRec where
  btype : BitVec 4
  bcell : BitVec 2
  sparse : BitVec 2
  deriving DecidableEq, Repr

/-- An outstanding `cp.fence` (R284): queue mask and its place in the core's issue order of copies. -/
structure CpFence where
  mask : BitVec 8
  pos : Nat
  deriving DecidableEq, Repr

/-- The three fence instructions (R301). -/
inductive FenceKind where
  | fence | acq | rel
  deriving DecidableEq, Repr

/-- An ordering point (R301, R316): kind, scope, its place in the core's issue order of copies, and the completion LT of the amplitude
instruction in flight there whose accesses to an HBM slice it names (R362). -/
structure OrderPoint where
  kind : FenceKind
  scope : BitVec 2
  pos : Nat
  amp : Option Nat
  deriving DecidableEq, Repr

/-- The part of a core that a segment checkpoint holds (R148). -/
structure Arch where
  /-- window address of the next bundle, 48 bits (R148, R391) -/
  pc : Nat
  /-- LT reached; results of this LT have landed (R15) -/
  lt : Nat
  /-- LT at which the next bundle issues, after the idle cycles (R147) -/
  next : Nat
  entry : Entry
  /-- the next bundle re-issues a segment entry after a rewind: it exits nothing (R151) -/
  again : Bool
  /-- pending redirection of a taken transfer: target, delay bundles still to issue, and whether it pops loops (R139, R145) -/
  taken : Option (Nat × Nat × Bool)
  /-- landed entries of every queue and unit port, keyed by port number, head first (R103) -/
  queues : SMap (List Val)
  /-- results, accesses and effects in flight with their reserved slots (R105, R112, R395) -/
  inflight : List Item
  /-- last-result latches, keyed 0-7 in the order of `Latch` (R109) -/
  latches : SMap Val
  /-- mask latch (R169) -/
  m : BitVec 256
  sys : SysRegs
  /-- the system registers as they stood before the updates of an LT (R411) -/
  before : Nat × SysRegs
  loops : List LoopEntry
  /-- outstanding rendezvous keyed by slot (R153) -/
  rdv : SMap (Option Rdv)
  /-- outstanding step: release LT (R155) -/
  step : Option Nat
  /-- number of completed steps; the release a step belongs to (R155) -/
  steps : Nat
  /-- segment entry LT and first LT of the superstep (R317) -/
  segLt : Nat
  superLt : Nat
  /-- the next bundle begins a superstep: kernel entry or a step release (R156) -/
  superNext : Bool
  /-- the exit checks of the segment have passed and its commit buffer is released, ahead of a step's release LT or of the
  end of a halt (R155, R164) -/
  out : Bool
  bufs : SMap Buf
  /-- channel reservations F(c) (R272) -/
  chan : SMap Nat
  /-- last landing LT plus one of each send channel, keyed by logical receiver (R289) -/
  sendLt : SMap Nat
  /-- copy-queue bindings (R286), fence records (R284), ordering points (R301) -/
  binds : SMap (Option Nat)
  fences : List CpFence
  points : List OrderPoint
  /-- barrier table (R294) -/
  bars : List Nat
  /-- PSEQ (R221), B record (R199) -/
  pseq : BitVec 32
  brec : BRec
  /-- array free LT (R206) -/
  arrayFree : Nat
  /-- completion LT and word of matrix and amplitude instructions not complete (R210, R362) -/
  mxBusy : List (Nat × Nat)
  ampBusy : List (Nat × Nat)
  /-- issue LT of the latest amplitude data instruction, and the scratchpad slice it works on: base and bytes (R361) -/
  ampSlice : Option (Nat × Nat × Nat)
  /-- first LT at which V0 and V1 are free (R167) -/
  v0Free : Nat
  v1Free : Nat
  /-- read-modify-write slots: bank, first LT, last LT, word (R244) -/
  slots : List (Nat × Nat × Nat × Nat)
  /-- amplitude sequence number of the next data instruction (R355, R364, R366) -/
  ampSeq : Nat
  /-- amplitude data instructions issued in the segment (R364) -/
  ampCount : Nat
  trapcode : BitVec 8
  trappc : Nat
  faultaddr : BitVec 64
  traplt : Nat
  deriving DecidableEq, Repr

/-! ## Copies -/

/-- The operation of a copy or of another outbound word that the commit buffer holds (R150, R256, R301, R343). -/
inductive CopyOp where
  | get | put | gath
  /-- `mx.epi` with OFF = 1: its payload in bytes (R232, R256) -/
  | epi (bytes : Nat)
  | fill (pattern : BitVec 32)
  | scrub
  | amo (op : BitVec 3) (type : BitVec 4)
  /-- `cl.base`: handle, set, extent and the base address (R344) -/
  | clBase (handle set ext : Nat) (addr : BitVec 64)
  /-- `cl.fire`: trigger word (R345) -/
  | clFire (trigger : BitVec 64)
  /-- `pk.snd`: descriptor (R347), generation at issue, payload -/
  | pkSnd (desc : BitVec 64) (gen : BitVec 8) (wide : Bool) (v : Val)
  /-- `snd`: receiver, landing LT, width, payload (R314) -/
  | snd (dest land : Nat) (wide : Bool) (v : Val)
  /-- remote `bar.arv`: logical core, address, count (R312) -/
  | remoteArv (dest a k : Nat)
  /-- `icinv` of scope 1 or 2: the targets (R410) -/
  | icinv (scope : BitVec 2) (group : Nat)
  deriving DecidableEq, Repr

/-- The states of R256. -/
inductive CopyState where
  | held | started | complete
  | failed (code : TrapCode) (addr : BitVec 64)
  | cancelled
  deriving DecidableEq, Repr

/-- How far one beat of a copy has come. -/
inductive BeatState where
  /-- not accepted by its memory -/
  | waiting
  /-- a read accepted with its data, on its way (R274) -/
  | coming (d : BeatData)
  /-- a write accepted by the controller, or a request sent to a peer or the host -/
  | sent
  /-- delivered or acknowledged (R256) -/
  | finished
  /-- its translation or its access has failed with a code (R267, R268, R271) -/
  | refused (code : TrapCode)
  deriving DecidableEq, Repr

/-- One beat: window address (`none` for an OFF lane of `cp.gath`), scratchpad address it lands at or is read from,
operand data once read (R278), physical address once translated, and progress. -/
structure Beat where
  w : Option Nat
  sp : Nat
  data : Option BeatData
  pa : Option Nat
  state : BeatState
  deriving DecidableEq, Repr

/-- A copy (R256). -/
structure Copy where
  /-- place in the core's issue order -/
  id : Nat
  q : Option Nat
  op : CopyOp
  issue : Nat
  pipe : Pipe
  word : Nat
  /-- bytes it takes in the commit buffer (R150); 0 for copies that are not held -/
  size : Nat
  state : CopyState
  /-- released from the commit buffer (R150); true at issue for copies that are not held -/
  released : Bool
  beats : List Beat
  /-- landing LT of a timed copy (R260) -/
  timed : Option Nat
  /-- barrier it is bound to (R286), until `bar.init` detaches it (R299) -/
  bound : Option Nat
  /-- a `bar.init` of the segment has detached it (R299); a rewind undoes that (R298) -/
  detached : Bool
  /-- barriers of its suffix (R57) -/
  arv : List Nat
  /-- row hints STREAM and LASTUSE (R276) -/
  stream : Bool
  lastuse : Bool
  /-- beats counted in QWPn (R258) -/
  counted : Nat
  /-- issued by the current segment (R151) -/
  inSeg : Bool
  /-- complete at `.sys`: the flushing read has returned (R300) -/
  flushed : Bool
  deriving DecidableEq, Repr

/-- A landing-buffer entry (R263): an early beat of a timed copy or an early arrival of a timed send. -/
inductive LandingKind where
  | beat (id beat : Nat) (d : BeatData)
  | send (sender : Nat) (wide : Bool) (v : Val)
  deriving DecidableEq, Repr

structure Landing where
  land : Nat
  kind : LandingKind
  deriving DecidableEq, Repr

/-! ## Matrix, sequence and amplitude units -/

/-- One of the 16384 accumulator rows and its poison kind (R33, R199). -/
structure AccRow where
  bits : V2048
  k : Kind
  deriving DecidableEq, Repr

/-- A stored row of the macros: 16 × 1024 bits and its poison kind, the union of the words written into it (R199, R213, R467). -/
structure MacroRow where
  bits : BitVec 16384
  k : Kind
  deriving DecidableEq, Repr

/-- A half of the pair buffer (R221): sequence number and rows held; `none` when nothing is held. -/
structure PairHalf where
  seq : BitVec 32
  /-- release LT, H, ATYPE and SPARSE that its `mx.pair` names (R218) -/
  par : Nat × Nat × Nat × Nat
  rows : SMap (Option (List PWord))
  deriving DecidableEq, Repr

/-- A row on the pair link towards this core (R219). -/
structure PairRow where
  seq : BitVec 32
  par : Nat × Nat × Nat × Nat
  row : Nat
  data : List PWord
  deriving DecidableEq, Repr

/-- The whole matrix unit outside the checkpoint (R199). -/
structure Matrix where
  rows : SMap MacroRow
  /-- metadata field of group g of column n at key n × 64 + g -/
  info : SMap Nat
  aScale : SMap (BitVec 8)
  aBand : SMap (BitVec 16)
  bScale : SMap (BitVec 8)
  bBand : SMap (BitVec 16)
  /-- poisoned scale words: side × 2^20 + word number; bands at 2^19 (R83, R467) -/
  badScale : List Nat
  list : SMap Nat
  acc : SMap AccRow
  /-- rows established and rows shadowed in the segment, rows updated in it (R211, R215) -/
  established : List Nat
  shadow : SMap (Option AccRow)
  updated : List Nat
  own : PairHalf
  partner : PairHalf
  /-- rows on the link towards this core, back-pressured (R221) -/
  link : List PairRow
  /-- a residue disagreement the next pass row meets (R214), a physical disturbance -/
  residue : Bool
  deriving DecidableEq, Repr

/-- The sequence unit (R371). -/
structure SeqUnit where
  /-- V[d][b] at key d × 32 + b -/
  v : SMap (BitVec 32)
  loaded : List Nat
  mode : SMap Nat
  seed : SMap (BitVec 32)
  /-- uncorrectable direction-number words (key d × 32 + b) and seed words (key 2^16 + d) -/
  bad : List Nat
  deriving DecidableEq, Repr

/-- An amplitude data instruction (R360, R364). -/
inductive AmpOp where
  | init (zero : Bool)
  | map (m : List (Nat × Nat))
  | swap (qa qb : Nat)
  | gate (ts : List Nat) (controls : BitVec 64) (u : List Val)
  | diag (ts : List Nat) (controls : BitVec 64) (u : List Val)
  | norm (scale : Option W64) (d : Port)
  | prob (q : Nat) (proj : Option Bool) (d : Port)
  deriving DecidableEq, Repr

/-- One entry of the replay log (R364): the instruction, its transpositions and completion LT, chunks exchanged, the slice as it will be
written, result and flags. -/
structure AmpEntry where
  /-- its place among the data instructions of the segment -/
  id : Nat
  /-- its amplitude sequence number, which its chunks carry (R355) -/
  seq : Nat
  /-- it has started, since its segment was last rewound (R364) -/
  live : Bool
  issue : Nat
  done_ : Nat
  word : Nat
  op : AmpOp
  /-- transpositions in order (R353, R354) -/
  trans : List (Nat × Nat)
  /-- transpositions finished, and chunks sent of the next one -/
  tdone : Nat
  sent : Nat
  /-- partner chunks taken for the transposition in progress -/
  got : Nat
  /-- the element codes of the working slice; `none` before its start LT and once the slice is written -/
  work : Option (List Nat)
  /-- elements whose words the engine met uncorrectable as it took the slice: offset, kind and word (R363) -/
  bad : List (Nat × TrapCode × Nat)
  finished : Bool
  /-- its completion LT has passed: no chunk can differ from its request any more (R355) -/
  ended : Bool
  result : W64
  flags : BitVec 5
  /-- a mismatch or an uncorrectable word, raised at the completion LT (R355, R363) -/
  fault : Option (TrapCode × Nat)
  deriving DecidableEq, Repr

/-! ## The core -/

/-- What a core is doing (R386, R394, R399, R164). -/
inductive RunState where
  | idle | running
  | trapped
  /-- waiting for the PRI response (R388) -/
  | requeued
  /-- frozen by PREEMPT, a scan move or a Debug halt response (R394) -/
  | frozen
  /-- halted by the debugger (R399); `true` for a core that STEP has released for one bundle -/
  | debug (step : Bool)
  /-- `halt` issued; waiting for its exit checks and copies (R164) -/
  | halting (code : BitVec 16)
  | halted (code : BitVec 16)
  deriving DecidableEq, Repr

/-- A translation-cache entry (R267, R269): window, IOVA granule of 512 KiB, physical granule, permissions granted. -/
structure Translation where
  w : Nat
  granule : Nat
  pa : Nat
  read : Bool
  write : Bool
  exec : Bool
  deriving DecidableEq, Repr

/-- The pair of translations that a granule of a critical host window needs (R271): the first answer of the pair in progress,
and whether an earlier pair has disagreed. -/
structure CritPair where
  w : Nat
  granule : Nat
  first : Option AtsVerdict
  again : Bool
  deriving DecidableEq, Repr

/-- Where an `sfx.arv` on the word just issued arrives (R57): at an LT, or when a copy completes. -/
inductive Retire where
  | at_ (lt : Nat)
  | copy (id : Nat)
  deriving DecidableEq, Repr

/-- The issue context of the bundle being issued (R39, R52-R57); the model's own field. -/
structure Issue where
  /-- address of the bundle's first word and of the word being issued -/
  bundle : Nat
  word : Nat
  /-- addresses that follow the bundle: its last word, the next bundle, the bundle after two delay bundles, or the translation of
  a line ahead that decides it (R160) -/
  last : Nat
  after : Nat
  after2 : Nat ⊕ (Nat × Nat)
  /-- V and C words issued so far -/
  nv : Nat
  nc : Nat
  imm : Option (BitVec 23)
  fmt : Option (Bool × BitVec 2 × BitVec 4)
  ts : Option (BitVec 23)
  row : Bool × Bool
  retire : Retire
  /-- LT of the next bundle (R15) -/
  next : Nat
  /-- redirection the bundle ordered: target, whether it has delay bundles, whether it pops loops -/
  jump : Option (Nat × Bool × Bool)
  /-- the bundle enters a segment (R148) -/
  entry : Bool
  /-- the bundle is held before issue (R468) -/
  held : Bool
  /-- the translation of a line ahead that a held bundle waits for (log 74) -/
  ahead : Option (Nat × Nat)
  deriving DecidableEq, Repr

/-- A cached fetch line: sixteen words (R41), or marked so that its next reads fail their check (R43). -/
structure Line where
  words : List Word
  deriving DecidableEq, Repr

/-- The twin reruns after a matrix rewind (R216): the exit LT and RSIG of the first once the second runs, and whether the core
stands at the exit of the segment. -/
structure Twin where
  first : Option (Nat × BitVec 64)
  atExit : Bool
  deriving DecidableEq, Repr

/-- A rewind that the front-end has ordered and not yet entered in its error log (R462): the physical core, the trap, and the reruns
made. -/
structure PendLog where
  corenum : Nat
  code : BitVec 8
  pc : Nat
  addr : BitVec 64
  lt : Nat
  reruns : Nat
  deriving DecidableEq, Repr

/-- An update of a barrier (R295). -/
inductive BarUpdate where
  | arrive (k : Nat)
  | beats (n : Nat)
  | fault (code : BitVec 8) (addr done_ : Nat)
  deriving DecidableEq, Repr

/-- Where an update comes from (R296, R298): a remote arrival, the suffix of a copy, a copy bound to the barrier. -/
inductive UpdateSource where
  | remote
  | suffix (id : Nat)
  | bound (id : Nat)
  deriving DecidableEq, Repr

/-- A barrier update held while its core is frozen (R296). -/
structure HeldUpdate where
  src : UpdateSource
  a : Nat
  u : BarUpdate
  deriving DecidableEq, Repr

/-- A core (R13), with its checkpointed part `a` and the segment checkpoint `ck` (R148). -/
structure Core where
  run : RunState
  /-- the kernel's queue and CID, `none` when the core is not placed -/
  kernel : Option (Nat × Nat)
  lcore : Nat
  die : Nat
  a : Arch
  ck : Arch
  cx : Issue
  /-- window table words 0 and 1 (R264) -/
  win0 : SMap (BitVec 64)
  win1 : SMap (BitVec 64)
  /-- GSLOT0-3 bits [16:0] (R405) -/
  gslot : SMap (BitVec 17)
  calendar : Bool
  budget : Nat
  launchBudget : Nat
  dbgctl : BitVec 3
  brkskip : Bool
  /-- a HALT or Debug halt response found it trapped, requeued or halting: it halts at its entry bundle once its rewind completes
  (R389, R399) -/
  debugHold : Bool
  /-- its kernel freezes while it is trapped, requeued, halting or halted: traffic for it waits (R396) -/
  freezes : Bool
  gstale : BitVec 32
  passno : BitVec 32
  /-- scratchpad bytes (R235), poisoned words (R240), copy landings per buffer (R242) -/
  spad : List Host.Cell
  spadBad : SMap Kind
  /-- words (by number) whose reads fail at the next LT at which something is due, a physical disturbance (R240, R463) -/
  soft : List Nat
  filled : SMap Nat
  mx : Matrix
  seq : SeqUnit
  copies : List Copy
  nextId : Nat
  qwp : SMap Nat
  landing : List Landing
  /-- landing entries taken since segment entry whose landing LT is later than it (R148, R291) -/
  takenIn : List Landing
  /-- barrier journal: object address and its two words as a rewind restores them (R298) -/
  journal : List (Nat × W64 × W64)
  /-- translation cache, most recent first (R269) -/
  tlb : List Translation
  /-- granules of critical host windows whose pair of translations is incomplete (R271) -/
  pairs : List CritPair
  /-- window addresses in critical HBM and peer windows whose next two pairs of translations disagree, a physical
  disturbance (R271) -/
  disagree : List Nat
  /-- cached fetch lines keyed by window address, at most 4096 of them (R13, R393) -/
  icache : SMap (Option Line)
  /-- window and granule of the translation requested for a line ahead of the bundle, and of those refused while the bundle
  waits (log 74) -/
  ahead : Option (Nat × Nat)
  absent : List (Nat × Nat)
  /-- the kernel's entry point on this core (R25, R44) -/
  entryPc : Nat
  ampLog : List AmpEntry
  ampBuf : List AmpChunk
  /-- rewinds and requeues of the segment in a row (R152, R388) -/
  rewinds : Nat
  requeues : Nat
  twin : Option Twin
  pend : Option PendLog
  /-- barrier updates held while the core is frozen, in arrival order (R296) -/
  held : List HeldUpdate
  /-- physical cycles spent waiting at an `mx.pair` release (R222) -/
  pairWait : Nat
  /-- lines whose next reads fail their check, a physical disturbance (R43) -/
  corrupt : List (Nat × Nat)
  /-- lines that failed their check and are still to be fetched once more (R43) -/
  refetch : List Nat
  /-- results land only when RESULT_LAND says so, a physical disturbance (R16) -/
  slow : Bool
  haltLt : Nat
  deriving DecidableEq, Repr

/-! ## The package -/

/-- What travels on the network or the links (R288, R312, R327, R410). -/
inductive PacketKind where
  | send (sender land : Nat) (wide : Bool) (v : Val)
  | arrive (a k : Nat)
  | icinv
  /-- `pk.snd`: payload address, data, barrier to arrive on, group and generation (R347); a peer's has no copy here -/
  | pk (daddr : Nat) (wide : Bool) (v : Val) (bar : Option Nat) (group : Nat) (gen : BitVec 8)
  /-- a refused `pk.snd` on its way back with the address it failed at (R327) -/
  | refusal (code : TrapCode) (addr : Nat)
  /-- a trigger or base write on its way to the front-end (R344, R345) -/
  | trigger
  /-- a 64-byte write accepted in the doorbell page: queue, trigger word, performing context, die of the core (R417) -/
  | doorbell (q : Nat) (v : W64) (ctx die : Nat)
  deriving DecidableEq, Repr

/-- A packet: the kernel it belongs to (queue and CID), the sending logical core with its copy, `none` from a peer package,
and the receiving logical core. -/
structure Packet where
  kind : PacketKind
  src : Option (Nat × Nat)
  dst : Nat
  kernel : Nat × Nat
  deriving DecidableEq, Repr

/-- An entry of the group table (R26, R325, R328, R429). -/
structure Group where
  assigned : Bool
  gen : BitVec 8
  owner : Nat
  /-- the context of the owner's queue as it was assigned (R447) -/
  ctx : Nat
  members : BitVec 192
  /-- fabric extension: packages and member counts in order (R326) -/
  ext : List (Nat × Nat)
  /-- physical cycle, plus one, of the last use of each generation (R328), default 0 for none -/
  lastUse : SMap Nat
  deriving DecidableEq, Repr

/-- A 32-byte completion record (R424). -/
structure Record where
  w0 : W64
  w1 : W64
  w2 : W64
  w3 : W64
  deriving DecidableEq, Repr

/-- Where a kernel stands. -/
inductive KernelState where
  | running
  /-- frozen by the front-end for PREEMPT, a scan move or a Debug halt response (R394) -/
  | frozen
  /-- contexts saved at an area; pairs freed (R431) -/
  | saved (area : Nat)
  /-- aborted; started copies run to completion or failure (R388) -/
  | aborted
  deriving DecidableEq, Repr

/-- How a kernel ended (R388, R465): what its record carries; `silent` where no record is written (R465). -/
structure KernelEnd where
  status : Nat
  code : BitVec 8
  core : Nat
  pc : Nat
  addr : BitVec 64
  lt : Nat
  host : Bool
  silent : Bool
  deriving DecidableEq, Repr

/-- A launched kernel (R27, R427). -/
structure Kernel where
  queue : Nat
  cid : Nat
  index : Nat
  ctx : Nat
  state : KernelState
  n : Nat
  /-- physical core of each logical core, in order (R24) -/
  place : List Nat
  /-- die of each logical core as the image names it (R23) -/
  dies : List Nat
  /-- every physical pair it has used (R433) -/
  used : List Nat
  halts : Nat
  irq : Bool
  /-- groups of its slots with their generations (R328) -/
  groups : List (Nat × BitVec 8)
  end_ : Option KernelEnd
  /-- highest rendezvous count completed by all members, per group (R154) -/
  rdvDone : SMap Nat
  /-- completed steps (R155) -/
  steps : Nat
  /-- halt codes by logical core (R164) -/
  codes : SMap (Option Nat)
  /-- an open debug session, and whether an edit touched the kernel (R399, R401) -/
  session : Bool
  modified : Bool
  /-- packets held while frozen, in arrival order (R396) -/
  held : List Packet
  /-- saved contexts by logical core (R397) -/
  context : SMap (Option Core)
  /-- physical cycle since which it holds its pairs (R432) -/
  since : Nat
  deriving DecidableEq, Repr

/-- A started command that is not finished, or whose record is not final (R420, R416). -/
structure Cmd where
  index : Nat
  cid : Nat
  /-- the context it started under (R440, R443) -/
  ctx : Nat
  words : List W64
  finished : Bool
  /-- progress of a COPY or SCRUB in beats -/
  progress : Nat
  /-- beats that a SCRUB found in error so far, `true` for an uncorrectable one (R430) -/
  found : List (Nat × Bool)
  deriving DecidableEq, Repr

/-- A record written provisional or withheld until its pairs pass a scan (R433). -/
structure Pending where
  index : Nat
  /-- the context of its kernel (R443) -/
  ctx : Nat
  record : Record
  /-- host address of its entry of the ring -/
  addr : Nat
  /-- the queue has been enabled again since (R415) -/
  past : Bool
  /-- pairs still to pass a scan that started after the kernel finished -/
  pairs : List Nat
  /-- a pair whose pass in progress started before the kernel finished -/
  early : Option Nat
  suspect : Bool
  irq : Bool
  deriving DecidableEq, Repr

/-- A FIRE that a trigger has put at the tail of its plan's bound queue (R336): the tail then, the trigger word, and what waits for
it: the FIRE command of another queue, by queue and index, or the `cl.fire`, by kernel, logical core and copy. -/
structure QueuedFire where
  tail : Nat
  trigger : W64
  cmd : Option (Nat × Nat)
  origin : Option ((Nat × Nat) × Nat × Nat)
  deriving DecidableEq, Repr

/-- A hardware queue (R414-R416). -/
structure Queue where
  en : Bool
  vec : BitVec 8
  ctx : Nat
  log2n : Nat
  pwait : Bool
  hold : Bool
  confirm : Bool
  prio : Nat
  base : BitVec 64
  comp : BitVec 64
  tail : Nat
  head : Nat
  err : Bool
  /-- QHEAD.DONE and QFINAL as they stood when EN was written 0, kept until the queue is enabled again (R415) -/
  stopped : Option (Nat × Nat)
  started : List Cmd
  pending : List Pending
  /-- the predecessor check of a LAUNCH at the head: the first predecessor not finished when it got there (R426) -/
  pred : Option (Option Nat)
  /-- physical cycle since which the head could start (R425) -/
  ready : Option Nat
  /-- to be served ahead of every level at the next decision (R425) -/
  starved : Bool
  /-- FIRE commands of triggers not yet started, in order of acceptance (R336) -/
  fires : List QueuedFire
  deriving DecidableEq, Repr

/-- An entry of the package table of a plan descriptor (R330), with whether it keeps its layout. -/
structure PlanPackage where
  package : Nat
  queue : Nat
  ops : List (BitVec 256)
  succ : List Nat
  ok : Bool
  deriving DecidableEq, Repr

/-- A plan descriptor with what its header says (R330). -/
structure PlanDesc where
  group : Nat
  gen : BitVec 8
  extents : List Nat
  packages : List PlanPackage
  /-- switch nodes: level, index, rail group, fallback package, switch identifier -/
  switches : List (Nat × Nat × Nat × Nat × Nat)
  deriving DecidableEq, Repr

/-- What a switch node computes for one tag (R331, R342): its node and tag, type and operation, and the packages that receive
the result. -/
structure SwitchChunk where
  level : Nat
  index : Nat
  tag : Nat
  type : Nat
  op : Nat
  dests : List Nat
  deriving DecidableEq, Repr

/-- A firing in progress (R332, R333). -/
structure Firing where
  seq : Nat
  irq : Bool
  /-- captured bases, eight -/
  bases : List Nat
  /-- dependency counters by operation -/
  counts : List Nat
  done_ : List Nat
  /-- its FIRE command by queue and index, or the `cl.fire` that waits for it -/
  cmd : Option (Nat × Nat)
  origin : Option ((Nat × Nat) × Nat × Nat)
  /-- switch nodes that have fallen back for this firing (R342) -/
  fallen : List (Nat × Nat)
  /-- what its SENDs have sent to switch nodes, by operation (R340, R342) -/
  sent : List (Nat × List Beat512)
  deriving DecidableEq, Repr

/-- The states of R337. -/
inductive PlanState where
  | idle | running | failed | freed
  deriving DecidableEq, Repr

/-- What another listed package has reported of a switch node in a firing (log 99): that the node has fallen back there, or that
its result has come there (R342). -/
structure PlanNews where
  package : Nat
  seq : Nat
  level : Nat
  index : Nat
  fell : Bool
  deriving DecidableEq, Repr

/-- A collective plan as this package holds it (R329, R330). -/
structure Plan where
  ctx : Nat
  group : Nat
  gen : BitVec 8
  queue : Nat
  ops : List (BitVec 256)
  succ : List Nat
  /-- listed packages, in order, and the same with their member counts (R325) -/
  packages : List Nat
  ranks : List (Nat × Nat)
  /-- switch nodes: level, index, rail group, fallback package, switch identifier (R330) -/
  switches : List (Nat × Nat × Nat × Nat × Nat)
  /-- what those nodes compute (R342) -/
  chunks : List SwitchChunk
  extents : List Nat
  state : PlanState
  /-- set-up confirmations still awaited; the plan is live when none is (R330) -/
  awaiting : List Nat
  live : Bool
  /-- last accepted and last completed SEQ (R335, R346) -/
  accepted : Nat
  completed : Nat
  stale : Nat
  fallbacks : Nat
  /-- base sets: set × 8 + base (R333) -/
  bases : SMap Nat
  firing : Option Firing
  /-- receive contexts: packets held for the firing in progress or a later one (R332), and children of switch nodes that this
  package computes (R342) -/
  contexts : List CollPacket
  /-- the last firing that has completed here, and what other packages report of switch nodes (R342) -/
  past : Option Firing
  news : List PlanNews
  /-- physical cycle of its last progress (R337), or of its set-up (R330) -/
  since : Nat
  /-- queue and index of its PLAN_SETUP command; `none` where another package has issued it (R330) -/
  setup : Option (Nat × Nat)
  deriving DecidableEq, Repr

/-- An export-table entry and its owner (R323, R423). -/
structure ExportEntry where
  w0 : W64
  w1 : W64
  owner : Option Nat
  deriving DecidableEq, Repr

/-- A row that a channel controller has open (R276): the core and the copy whose STREAM hint holds it, and the physical cycle of
its last use, at the end of whose rotation an unheld row closes. -/
structure OpenRow where
  row : Nat
  hold : Option (Nat × Nat)
  used : Nat
  deriving DecidableEq, Repr

/-- An HBM channel controller (R274-R277): blocks in the write queue, postponed refreshes, the open rows, and which kind the next
drain slot between the watermarks serves. -/
structure Channel where
  wq : List Nat
  postponed : Nat
  rows : List OpenRow
  refreshNext : Bool
  deriving DecidableEq, Repr

/-- TDISP states (R442). -/
inductive Tdi where
  | configUnlocked | configLocked | run | error
  deriving DecidableEq, Repr

/-- The interface report (R444). -/
structure InterfaceReport where
  /-- INTERFACE_INFO: DMA without PASID allowed, ATS enabled, PRI enabled -/
  dmaWithoutPasid : Bool
  ats : Bool
  pri : Bool
  /-- MSI_X_MESSAGE_CONTROL, LNR_CONTROL and TPH_CONTROL -/
  msix : W64
  lnr : Nat
  tph : Nat
  /-- the MMIO ranges: BAR, size in bytes, TEE access only; MMIO_RANGE_COUNT is their number -/
  ranges : List (Nat × Nat × Bool)
  /-- DEVICE_SPECIFIC_INFO: lifecycle state, slot B active, measurement 5, package number -/
  life : Lifecycle
  slotB : Bool
  m5 : BitVec 256
  pkg : Nat
  deriving DecidableEq, Repr

/-- Where a collective packet goes (R331): a listed package, or a switch by its identifier. -/
inductive CollTarget where
  | package (n : Nat)
  | switch_ (id : Nat)
  deriving DecidableEq, Repr

/-- What packages and switches tell each other of a plan: the issuer of PLAN_SETUP asks a package for a plan under a handle, or a
switch for the reduction slot of a node; the answer; the outcome; PLAN_FREE (R329, R330); what has become of a switch node in a firing
(R342). -/
inductive PlanMessage where
  | ask (handle : Nat) (d : PlanDesc)
  | reserve (handle level index : Nat)
  | answer (handle : Nat) (ok : Bool)
  | outcome (handle : Nat) (ok : Bool)
  | free (handle : Nat)
  | news (handle : Nat) (n : PlanNews)
  deriving DecidableEq, Repr

/-- What leaves the device towards the host, the side band, a peer or a switch, and what crosses the die-to-die link. -/
inductive Output where
  /-- a completion record written at a host address (R424) -/
  | record (queue index : Nat) (r : Record)
  | msix (vec : BitVec 8)
  /-- a register or memory read's data (R413, R418) -/
  | data (v : W64)
  /-- a peer access answered: accepted with the beat read, marked where its block is uncorrectable (R278), or refused (R324) -/
  | peer (ok : Bool) (data : Option BeatData)
  /-- a beat rebuilt or delivered on a rail group (R319) -/
  | beats (group : Nat) (bs : List Beat512)
  /-- a stripe that lost two or more beats is requested again (R319) -/
  | resend (group : Nat)
  /-- a `pk.snd` for another package (R347), a copy's access to one (R268, R324) -/
  | pkSend (package : Nat) (p : PkPacket)
  | peerRequest (package addr : Nat) (op : PeerOp)
  /-- a packet as its rail group carries it (R318): each beat with its rail, 4 for the XOR rail -/
  | rails (group : Nat) (bs : List (Nat × Beat512))
  /-- the answer to a peer's `pk.snd` (R327, R347): accepted, or refused with a code and the address it failed at -/
  | pkAnswer (refusal : Option (TrapCode × Nat))
  /-- a packet of a collective leaving for a package or a switch (R331) -/
  | coll (dest : CollTarget) (p : CollPacket)
  | plan (dest : CollTarget) (m : PlanMessage)
  | railReport (rail : Nat) (up : Bool)
  | pairFailed (pair : Nat)
  | triggerRefused (handle : Nat)
  | tdiState (t : Tdi)
  | interfaceReport (r : InterfaceReport)
  | measurement (index : Nat) (digest : BitVec 256) (signature : BitVec 62848)
  /-- PLDM type 2 (R448): temperature, power, step, rails up, retired pairs, error log -/
  | monitoring (temperature power step : Nat) (ports d2d : List Nat) (retired : List Nat) (log : List (List W64))
  | algorithm (ok : Bool)
  /-- a request answered with success or an error completion (R449, R453) -/
  | answer (ok : Bool)
  | pri (core granule : Nat)
  | linkDown
  /-- a chunk of an amplitude exchange leaving for a rank of another package (R355) -/
  | chunk (package member : Nat) (c : AmpChunk)
  /-- a chunk from a rank of another package differs from this package's request: its sender raises AMP_MAP too (R355) -/
  | chunkDiffers (package member : Nat) (c : AmpChunk)
  /-- a front-end core has failed its self-test (R434): `true` for Deimos -/
  | coreFailed (deimos : Bool)
  deriving DecidableEq, Repr

/-- A physical disturbance that the spec lets happen at any moment and that is no row of the opcode table. -/
inductive Disturb where
  /-- a cached line is evicted (R393) -/
  | evict (n line : Nat)
  /-- the next `k` reads of a line fail their check (R43) -/
  | corrupt (n line k : Nat)
  /-- a scratchpad word becomes uncorrectable (R240) -/
  | spadError (n a : Nat)
  /-- a scratchpad word reads as uncorrectable once, and then correctly (R240, R463) -/
  | readError (n a : Nat)
  /-- a word of the scale store becomes uncorrectable (R83, R213): its key -/
  | scaleError (n key : Nat)
  /-- a word of an entry of a vector queue or unit port becomes uncorrectable where it holds scales (R83) -/
  | queueError (n port entry word : Nat)
  /-- likewise of a last-result latch, and of a value in flight: its place among the items in flight (R83) -/
  | latchError (n latch word : Nat)
  | flightError (n item word : Nat)
  /-- an HBM block becomes uncorrectable (R278) -/
  | hbmError (block : Nat)
  /-- an HBM block has a correctable error (R283) -/
  | hbmCorrectable (block : Nat)
  /-- a sequence-unit word becomes uncorrectable (R378): its key -/
  | seqError (n key : Nat)
  /-- the next pass row disagrees with its residue (R214) -/
  | residue (n : Nat)
  /-- results of a core land late from now on, or no longer (R16) -/
  | slow (n : Nat) (b : Bool)
  /-- a translation-cache entry has a parity error (R269) -/
  | tlbParity (n granule : Nat)
  /-- the next two pairs of translations of an address in a critical HBM or peer window disagree (R271) -/
  | critical (n a : Nat)
  /-- the host writes a byte of its own memory, reads BAR 0 or BAR 2 (R442) -/
  | hostWrite (a : Nat) (b : Byte)
  | hostRead (bar2 : Bool) (off : Nat) (tee : Bool)
  /-- the receiver acknowledges an entry of the retransmit buffer; the link layer replays a beat that has been rebuilt (R319) -/
  | linkAck (k : Nat)
  | replay (k : Nat)
  /-- a peer package refuses the `pk.snd` of a copy (R327, R347) -/
  | pkRefused (n id : Nat) (code : TrapCode)
  /-- the receiver of a chunk on another package reports that it differs from the request there (R355): the core and the chunk's sequence
  number -/
  | chunkDiffered (n seq : Nat)
  /-- another package asks for a plan here, says whether its set-up succeeded, or frees a plan (R330) -/
  | peerSetup (package h : Nat) (d : PlanDesc)
  | peerSetupDone (h : Nat) (ok : Bool)
  | peerFree (h : Nat)
  /-- another package reports of a switch node (R342) -/
  | peerNews (h : Nat) (n : PlanNews)
  /-- another package reports the handles that it holds (R330); a switch begins or ceases to advertise the profile (R341) -/
  | peerHandles (package : Nat) (hs : List Nat)
  | profile (id : Nat) (b : Bool)
  /-- a front-end core's instruction store or state becomes uncorrectable (R434): `true` for Deimos -/
  | frontError (deimos : Bool)
  /-- physical cycles pass with every core stalled -/
  | pass (cycles : Nat)
  deriving DecidableEq, Repr

/-- Which agent moves next: the model's own schedule. -/
inductive Turn where
  | core (n : Nat)
  /-- Phobos or, for `true`, Deimos -/
  | front (deimos : Bool)
  | event (i : Instr)
  | disturb (d : Disturb)
  deriving DecidableEq, Repr

/-- A firmware slot (R435, R438). -/
structure Slot where
  image : Nat
  failed : Bool
  deriving DecidableEq, Repr

/-- A front-end core (R31): a Choren core with the S pipe only. `store` is the firmware image in its ECC instruction store of
1 MiB (R435), whose bytes `FrontCore.storeByte` gives; `sound` says whether store and state pass their checks (R434); `core` is its
architectural state as that of any core, whose window addresses are those of the store. The bytes of the firmware are free values, and
its services are the front-end part of `State` (log 73). -/
structure FrontCore where
  store : Nat
  sound : Bool
  core : Core
  deriving DecidableEq, Repr

/-- The journal in HBM (R434): per queue its HEAD and its started commands; the group entries; per handle the plan's state and the
completed operations of its firing; each kernel by queue and CID with its placement; the scan position. -/
structure Journal where
  queues : List (Nat × Nat × List Cmd)
  groups : SMap Group
  plans : List (Nat × PlanState × List Nat)
  places : List ((Nat × Nat) × List Nat)
  scanNext : Nat
  scanning : Option Nat
  deriving DecidableEq, Repr

/-- A packet in the retransmit buffer (R319): its number, the rail group it was last sent on, whether it has XOR beats (R341), its
beats; `unsent`, what it says beside its beats, where it still waits for a group that is up (R320). -/
structure Sent where
  number : Nat
  group : Nat
  xor : Bool
  beats : List Beat512
  unsent : List Output
  deriving DecidableEq, Repr

/-- The whole package. -/
structure State where
  /-- physical core cycles since reset -/
  phys : Nat
  /-- the model's own schedule (log 2) -/
  agenda : List Turn
  cur : Nat
  /-- the model's own counter of free values used (log 7) -/
  fresh : Nat
  cores : SMap Core
  kernels : List Kernel
  /-- traps that have reached the front-end and are not handled (R389) -/
  reports : List TrapReport
  groups : SMap Group
  queues : SMap Queue
  /-- queue last served at each priority level, plus one (R425) -/
  served : SMap Nat
  plans : SMap (Option Plan)
  exports : SMap ExportEntry
  /-- HBM bytes (R266, R447) and, per 16-byte block, the tenant context and generation that wrote it (R440) -/
  hbm : List Host.Cell
  hbmKey : SMap (Option (Nat × Nat))
  /-- 64-byte blocks uncorrectable or with a correctable error; controller error log (R278, R282, R283) -/
  hbmBad : List Nat
  hbmWeak : List Nat
  hbmLog : List Nat
  channels : SMap Channel
  /-- host memory (log 6) -/
  hostMem : List Host.Cell
  net : List Packet
  /-- UALink ports and die-to-die rails that are down (R320) -/
  portsDown : List Nat
  d2dDown : List Nat
  /-- retransmit buffer, and per rebuilt beat the rail group whose link layer may still replay it (R319) -/
  retransmit : List Sent
  rebuilt : List Nat
  /-- handles that other packages hold, by package (R330), and switches that advertise the profile (R341) -/
  peerPlans : SMap (List Nat)
  profiles : List Nat
  /-- the front-end cores (R31) and the journal (R434) -/
  phobos : FrontCore
  deimos : FrontCore
  journal : Journal
  /-- FESTAT (R434, R452) -/
  deimosActive : Bool
  standby : Bool
  ready : Bool
  /-- recovery: only the side band answers (R438) -/
  recovery : Bool
  /-- heartbeats written (R434) -/
  heartbeats : Nat
  /-- physical cycle of the last one -/
  beatAt : Nat
  slotA : Slot
  slotB : Slot
  /-- the running image is slot B's (R435) -/
  runsB : Bool
  probation : Bool
  /-- physical cycle at which it began -/
  probationAt : Nat
  session : Option Master
  pkgset : Bool
  pkgnum : BitVec 10
  ap4base : BitVec 64
  /-- log2 of the BAR 4 size (R418) -/
  bar4 : Nat
  dbgsel : BitVec 64
  dbgstat : BitVec 64
  dbgbuf : List Host.Cell
  outs : List Output
  /-- next pair to scan, pair under scan, retired pairs (R432) -/
  scanNext : Nat
  scanning : Option Nat
  /-- physical cycle since which that pair is next in rotation (R432) -/
  scanSince : Nat
  retired : List Nat
  /-- passes completed by each pair (R402 PASSNO) -/
  passes : SMap Nat
  /-- error log of rewinds, entries of four words (R462) -/
  errlog : List (List W64)
  tdi : Tdi
  /-- STOP_INTERFACE waits for its wipe (R443) -/
  stopping : Bool
  /-- a tenant-scope wipe is clearing SRAMs (R447) -/
  wiping : Bool
  ide : Bool
  /-- measurement 5 as LOCK_INTERFACE recorded it (R439) -/
  measure5 : Option (BitVec 256)
  /-- last values written to PCIe configuration registers: BAR or Command, MSI-X message control, and the others (R442) -/
  decode : W64
  msix : W64
  config : W64
  /-- the identity key pair, by its number (R437) -/
  identity : Option Nat
  /-- its certificate, by the number of the key it is for (R445) -/
  certificate : Option Nat
  /-- requesters that have agreed on SLH-DSA-SHA2-128s (R439) -/
  agreed : List Master
  lifecycle : Lifecycle
  /-- key generations of context 0 and of the tenant contexts (R440, R447) -/
  gen0 : Nat
  genT : Nat
  zeroFill : Bool
  clearing : List Nat
  tenantPairs : List Nat
  freq : Nat
  /-- abort of R451 in force until the side band clears it -/
  thermal : Bool
  /-- physical cycle of the last thermal step down (R451) -/
  stepAt : Option Nat
  /-- physical cores whose calendar slots CAL has lent to COPY and SCRUB (R430) -/
  lent : List Nat
  /-- dies joined by a link that has lost two rails: no launch across dies until a reset (R322) -/
  d2dLost : Bool
  /-- answers to `cl.fire` words of cores on the other die that wait for the die-to-die link: kernel, logical core and copy, whether the
  firing succeeded (R320, R345) -/
  fireAnswers : List (((Nat × Nat) × Nat × Nat) × Bool)
  deriving DecidableEq, Repr

/-! ## Why a step stops -/

/-- Faults of the model. -/
inductive Fault where
  /-- Reserved for an access to a physical address that does not exist (R266). No meaning raises it: every access that could name
  such an address is refused, trapped or dropped first, as its rule says (R127, R264, R418, R419). Safe. -/
  | noSuchAddress (a : Nat)
  deriving DecidableEq, Repr

/-- Refusals of the model. -/
inductive Refusal where
  /-- An instruction without a meaning in `exec`. Safe. -/
  | notModelled (mnemonic : String)
  deriving DecidableEq, Repr

/-! ## Reset -/

def Val.zero : Val := { bits := 0, ep := 0, sp := 0 }

def SysRegs.reset : SysRegs :=
  { flags := 0, fmtsel := 0, fmt := [], rsig := 0, seqbase := 0, mxmode := 0, ampmode := false, p := false,
    rdvcnt := [], qmap := [], amp0 := 0, amp1 := 0 }

def Arch.reset : Arch :=
  { pc := 0, lt := 0, next := 0, entry := .direct, again := false, taken := none, queues := [], inflight := [], latches := [], m := 0,
    sys := .reset, before := (0, .reset), loops := [], rdv := [], step := none, steps := 0, segLt := 0, superLt := 0, superNext := true, out := false,
    bufs := [], chan := [], sendLt := [], binds := [], fences := [], points := [], bars := [], pseq := 0,
    brec := { btype := 4, bcell := 0, sparse := 0 }, arrayFree := 0, mxBusy := [], ampBusy := [], ampSlice := none, v0Free := 0, v1Free := 0,
    slots := [], ampSeq := 0, ampCount := 0, trapcode := 0, trappc := 0, faultaddr := 0, traplt := 0 }

def Issue.reset : Issue :=
  { bundle := 0, word := 0, last := 0, after := 0, after2 := .inl 0, nv := 0, nc := 0, imm := none, fmt := none, ts := none,
    row := (false, false), retire := .at_ 0, next := 0, jump := none, entry := false, held := false, ahead := none }

def PairHalf.reset : PairHalf := { seq := 0, par := (0, 0, 0, 0), rows := [] }

def Matrix.reset : Matrix :=
  { rows := [], info := [], aScale := [], aBand := [], bScale := [], bBand := [], badScale := [], list := [], acc := [],
    established := [], shadow := [], updated := [], own := .reset, partner := .reset, link := [], residue := false }

def SeqUnit.reset : SeqUnit := { v := [], loaded := [], mode := [], seed := [], bad := [] }

/-- A core whose every SRAM is cleared (R447) and that no kernel holds. -/
def Core.reset : Core :=
  { run := .idle, kernel := none, lcore := 0, die := 0, a := .reset, ck := .reset, cx := .reset,
    win0 := [], win1 := [], gslot := [], calendar := false, budget := 0, launchBudget := 0, dbgctl := 0, brkskip := false,
    debugHold := false, freezes := false, gstale := 0, passno := 0, spad := [], spadBad := [], soft := [], filled := [], mx := .reset, seq := .reset, copies := [],
    nextId := 0, qwp := [], landing := [], takenIn := [], journal := [], tlb := [], pairs := [], disagree := [], icache := [],
    ahead := none, absent := [], entryPc := 0, ampLog := [],
    ampBuf := [], rewinds := 0, requeues := 0, twin := none, pend := none, held := [], pairWait := 0, corrupt := [], refetch := [], slow := false, haltLt := 0 }

/-- A front-end core at LT 0 (R31, R103, R142): it runs from the first word of its store, and nothing bounds it (log 73). -/
def Core.front : Core :=
  let a : Arch := { Arch.reset with pc := 4 }
  { Core.reset with run := .running, entryPc := 4, budget := 2 ^ 48 - 1, launchBudget := 2 ^ 48 - 1, a := a, ck := a }

/-- A front-end core that has loaded an image (R434, R435, R452). -/
def FrontCore.loaded (image : Nat) (sound : Bool) : FrontCore := { store := image, sound := sound, core := .front }

/-- A group entry after reset (R328). -/
def Group.reset : Group :=
  { assigned := false, gen := 0, owner := 0, ctx := 0, members := 0, ext := [], lastUse := [] }

/-- A queue register block after reset (R414): LOG2N 4, everything else 0. -/
def Queue.reset : Queue :=
  { en := false, vec := 0, ctx := 0, log2n := 4, pwait := false, hold := false, confirm := false, prio := 0, base := 0,
    comp := 0, tail := 0, head := 0, err := false, stopped := none, started := [], pending := [], pred := none, ready := none, starved := false, fires := [] }

def ExportEntry.reset : ExportEntry := { w0 := 0, w1 := 0, owner := none }

def Channel.reset : Channel := { wq := [], postponed := 0, rows := [], refreshNext := false }

def Journal.reset : Journal := { queues := [], groups := [], plans := [], places := [], scanNext := 0, scanning := none }

/-- The device at the end of bring-up (R452): every SRAM cleared and HBM zero-filled (R447), READY set, no kernel. -/
def State.reset : State :=
  { phys := 0, agenda := [], cur := 0, fresh := 0, cores := [], kernels := [], reports := [], groups := [], queues := [],
    served := [], plans := [], exports := [], hbm := [], hbmKey := [], hbmBad := [], hbmWeak := [], hbmLog := [],
    channels := [], hostMem := [], net := [], portsDown := [], d2dDown := [], retransmit := [], rebuilt := [], peerPlans := [],
    profiles := [], phobos := .loaded 0 true, deimos := .loaded 0 true, journal := .reset, deimosActive := false,
    standby := true, ready := true, recovery := false, heartbeats := 0, beatAt := 0, slotA := { image := 0, failed := false },
    slotB := { image := 0, failed := false }, runsB := false, probation := false, probationAt := 0, session := none, pkgset := false,
    pkgnum := 0, ap4base := 0, bar4 := 30, dbgsel := 0, dbgstat := 0, dbgbuf := [], outs := [], scanNext := 0,
    scanning := none, scanSince := 0, retired := [], passes := [], errlog := [], tdi := .configUnlocked, stopping := false, wiping := false, ide := false, measure5 := none, decode := 0, msix := 0, config := 0, identity := some 0, certificate := some 0, agreed := [],
    lifecycle := .deployed, gen0 := 0, genT := 0, zeroFill := false, clearing := [], tenantPairs := [], freq := 5,
    thermal := false, stepAt := none, lent := [], d2dLost := false, fireAnswers := [] }

end Sys2Proof.Machine
end

