-- ==== Sys2Proof/Machine/Ops.lean ====
section
/-! DEFINITION. The named operations over memory, registers, queues and latches, taking a trap (R386) and the return from
one, the segment rewind (R151). -/
namespace Sys2Proof.Machine

/-! ## Tables in canonical form -/

/-- The value at a key; an unlisted key has the default. -/
def SMap.get (d : α) : SMap α → Nat → α
  | [], _ => d
  | (k, v) :: r, n => if k = n then v else SMap.get d r n

/-- Drop the entry of a key. -/
def SMap.erase (m : SMap α) (n : Nat) : SMap α := m.filter fun e => e.1 != n

/-- Insert an entry at its place in the rising order of keys. -/
def SMap.insert : SMap α → Nat → α → SMap α
  | [], n, v => [(n, v)]
  | (k, x) :: r, n, v => if n < k then (n, v) :: (k, x) :: r else (k, x) :: SMap.insert r n v

/-- Write a key; writing the default drops the entry, so that equal tables are equal data. -/
def SMap.set [DecidableEq α] (d : α) (m : SMap α) (n : Nat) (v : α) : SMap α :=
  if v = d then SMap.erase m n else SMap.insert (SMap.erase m n) n v

/-- The canonical form: keys strictly rising, no entry equal to the default. -/
def SMap.wf [DecidableEq α] (d : α) : SMap α → Bool
  | [] => true
  | [(_, v)] => v != d
  | (k, v) :: (k', v') :: r => v != d && k < k' && SMap.wf d ((k', v') :: r)

/-! ## Memory -/

/-- What a byte that nothing has written reads as: 0 (R235, R447). -/
def unwritten : Byte := 0

/-- The canonical form of a byte memory. -/
abbrev Memory.wf (m : List Host.Cell) : Bool := SMap.wf unwritten m

def readByte (m : List Host.Cell) (a : Nat) : Byte := SMap.get unwritten m a

def writeByte (m : List Host.Cell) (a : Nat) (b : Byte) : List Host.Cell := SMap.set unwritten m a b

/-- `n` bytes from an address. -/
def readBytes (m : List Host.Cell) (a n : Nat) : List Byte := (rangeFrom a n).map (readByte m)

/-- Write bytes from an address upwards. -/
def writeBytes (m : List Host.Cell) (a : Nat) : List Byte → List Host.Cell
  | [] => m
  | b :: bs => writeBytes (writeByte m a b) (a + 1) bs

/-- The little-endian number of some bytes (R3). -/
def ofBytes (bs : List Byte) : Nat := ofDigits 8 (bs.map BitVec.toNat)

/-- `n` little-endian bytes of a number (R3). -/
def toBytes (n v : Nat) : List Byte := (digits 8 n v).map (BitVec.ofNat 8)

/-- The little-endian number of `n` bytes of memory. -/
def readNat (m : List Host.Cell) (a n : Nat) : Nat := ofBytes (readBytes m a n)

/-! ## Values and poison -/

def Kind.clean : Kind := { elem := false, scale := false }
def Kind.element : Kind := { elem := true, scale := false }
def Kind.scaled : Kind := { elem := false, scale := true }

/-- The union of two poison kinds (R84). -/
def Kind.join (a b : Kind) : Kind := { elem := a.elem || b.elem, scale := a.scale || b.scale }

def Kind.poisoned (k : Kind) : Bool := k.elem || k.scale

/-- The trap a consumed poison raises (R85): SCALE_POISON if it carries scale poison. -/
def Kind.code (k : Kind) : TrapCode := if k.scale then .scalePoison else .uncorrectable

def Kind.joinAll (ks : List Kind) : Kind := ks.foldl Kind.join .clean

/-- The poison kind of 32-bit word k of a value (R467). -/
def Val.kind (v : Val) (k : Nat) : Kind := { elem := v.ep.getLsbD k, scale := v.sp.getLsbD k }

/-- The union of the kinds of every word of a value. -/
def Val.anyKind (v : Val) : Kind := { elem := v.ep != 0, scale := v.sp != 0 }

/-- A clean value of 2048 bits. -/
def Val.ofNat (n : Nat) : Val := { bits := BitVec.ofNat 2048 n, ep := 0, sp := 0 }

/-- A 64-bit result, zero-extended (R49). -/
def Val.ofScalar (v : W64) : Val := Val.ofNat v.toNat

/-- Bits [63:0] of a value. -/
def Val.scalar (v : Val) : W64 := v.bits.setWidth 64

/-- A clean memory word. -/
def PWord.ofNat (n : Nat) : PWord := { w := BitVec.ofNat 32 n, k := .clean }

/-- The value whose 32-bit words are given from word 0 up. -/
def Val.ofWords (ws : List PWord) : Val :=
  { bits := BitVec.ofNat 2048 (ofDigits 32 (ws.map fun w => w.w.toNat))
    ep := BitVec.ofNat 64 (ofBits (ws.map fun w => w.k.elem))
    sp := BitVec.ofNat 64 (ofBits (ws.map fun w => w.k.scale)) }

/-- The first `n` words of a value. -/
def Val.words (v : Val) (n : Nat) : List PWord :=
  (upto n).map fun k => { w := BitVec.ofNat 32 (bitsOf v.bits.toNat (32 * k) 32), k := v.kind k }

/-- A value with the poison kind of each of its 64 words given by a function of the word number. -/
def Val.withKinds (n : Nat) (k : Nat → Kind) : Val :=
  { bits := BitVec.ofNat 2048 n
    ep := BitVec.ofNat 64 (ofBits ((upto 64).map fun i => (k i).elem))
    sp := BitVec.ofNat 64 (ofBits ((upto 64).map fun i => (k i).scale)) }

/-- Element i of width w of a vector (R73). -/
def elem (v : Nat) (w i : Nat) : Nat := bitsOf v (w * i) w

/-- The vector whose elements of width w are given from element 0 up (R73). -/
def ofElems (w : Nat) (es : List Nat) : Nat := ofDigits w es

/-- The number of a scratchpad word's first byte in its core's poison table. -/
def wordKey (a : Nat) : Nat := a / 4

/-! ## Scratchpad (R235-R240) -/

/-- The 32-bit scratchpad word at a multiple of four, with its poison kind; a read that fails gives element poison (R467). -/
def Core.spadWord (c : Core) (a : Nat) : PWord :=
  let k := SMap.get .clean c.spadBad (wordKey a)
  { w := BitVec.ofNat 32 (readNat c.spad a 4), k := if c.soft.contains (wordKey a) then k.join .element else k }

/-- `n` words from an address. -/
def Core.spadWords (c : Core) (a n : Nat) : List PWord := (upto n).map fun k => c.spadWord (a + 4 * k)

/-- Store one whole word with its poison kind (R240, R467). -/
def Core.storeWord (c : Core) (a : Nat) (w : PWord) : Core :=
  { c with spad := writeBytes c.spad a (toBytes 4 w.w.toNat), spadBad := SMap.set .clean c.spadBad (wordKey a) w.k }

/-- Store words from an address upwards. -/
def Core.storeWords (c : Core) (a : Nat) : List PWord → Core
  | [] => c
  | w :: ws => Core.storeWords (c.storeWord a w) (a + 4) ws

/-- Store bytes that no word's kind comes with: a word written whole becomes clean (R240). -/
def Core.storeBytes (c : Core) (a : Nat) (bs : List Byte) : Core :=
  { c with spad := writeBytes c.spad a bs
           spadBad := c.spadBad.filter fun e => !(a ≤ 4 * e.1 && 4 * e.1 + 4 ≤ a + bs.length) }

/-- The 64-bit little-endian value at a multiple of 8 (R3). -/
def Core.spad64 (c : Core) (a : Nat) : W64 := BitVec.ofNat 64 (readNat c.spad a 8)

/-- The words of a 64-bit value, clean. -/
def words64 (v : W64) : List PWord := [PWord.ofNat v.toNat, PWord.ofNat (v.toNat >>> 32)]

/-- The words of a landing beat; an uncorrectable block gives every word element poison (R278, R467). -/
def BeatData.words (d : BeatData) : List PWord :=
  (digits 32 16 d.bits.toNat).map fun n => { w := BitVec.ofNat 32 n, k := if d.bad then .element else .clean }

/-- The beat whose sixteen words are given. -/
def BeatData.ofWords (ws : List PWord) : BeatData :=
  { bits := BitVec.ofNat 512 (ofDigits 32 (ws.map fun w => w.w.toNat)), bad := ws.any fun w => w.k.poisoned }

/-- The size of the scratchpad (R13, R33). -/
def spadSize : Nat := 0x800000

/-- Bank of a scratchpad address (R14). -/
def bankOf (a : Nat) : Nat := bitsOf a 6 5

/-! ## Ports, queues and latches (R103-R111) -/

/-- The number of a port (R48). -/
def Port.num (p : Port) : Nat := p.code.toNat

def Latch.num : Latch → Nat
  | .s => 0 | .v0 => 1 | .v1 => 2 | .m => 3 | .c0 => 4 | .c1 => 5 | .q => 6 | .a => 7

/-- The latch of a pipe (R109). -/
def Pipe.latch : Pipe → Latch
  | .s => .s | .v0 => .v0 | .v1 => .v1 | .m => .m | .c0 => .c0 | .c1 => .c1

/-- The pipe order of R106 and R237. -/
def Pipe.num : Pipe → Nat
  | .s => 0 | .v0 => 1 | .v1 => 2 | .m => 3 | .c0 => 4 | .c1 => 5

/-- The landed entries of a queue or unit port, head first (R103). -/
def Arch.landed (a : Arch) (p : Port) : List Val := SMap.get [] a.queues (Port.num p)

def Arch.setLanded (a : Arch) (p : Port) (vs : List Val) : Arch :=
  { a with queues := SMap.set [] a.queues (Port.num p) vs }

/-- The reserved slots of a destination (R105). -/
def Arch.reserved (a : Arch) (p : Port) : Nat := (a.inflight.filter fun i => i.dst == some p).length

def Arch.latch (a : Arch) (l : Latch) : Val := SMap.get .zero a.latches (Latch.num l)

def Arch.setLatch (a : Arch) (l : Latch) (v : Val) : Arch :=
  { a with latches := SMap.set .zero a.latches (Latch.num l) v }

/-- Land a value: a push for a queue or unit port, nothing for `zero` (R62). -/
def Arch.push (a : Arch) (p : Port) (v : Val) : Arch :=
  if p = .zero then a else a.setLanded p (a.landed p ++ [v])

/-! ## Cores -/

def State.core (s : State) (n : Nat) : Core := SMap.get .reset s.cores n

def State.setCore (s : State) (n : Nat) (c : Core) : State := { s with cores := SMap.set .reset s.cores n c }

def State.modCore (s : State) (n : Nat) (f : Core → Core) : State := s.setCore n (f (s.core n))

/-- The number of physical cores (R9). -/
def numCores : Nat := 192

/-- The die of a physical core (R10). -/
def dieOf (n : Nat) : Nat := n / 96

/-- The pair of a physical core (R11). -/
def pairOf (n : Nat) : Nat := n / 2

/-- The record of the kernel that a queue and CID name. -/
def State.kernel? (s : State) (k : Nat × Nat) : Option Kernel :=
  s.kernels.find? fun r => r.queue == k.1 && r.cid == k.2

def State.setKernel (s : State) (r : Kernel) : State :=
  { s with kernels := s.kernels.map fun x => if x.queue == r.queue && x.cid == r.cid then r else x }

/-- The physical core on which logical core `l` of a kernel is placed. -/
def Kernel.phys? (k : Kernel) (l : Nat) : Option Nat := k.place[l]?

/-- The kernel that holds a core. -/
def State.kernelOf (s : State) (c : Core) : Option Kernel := c.kernel.bind s.kernel?

/-! ## Traps (R386, R387) -/

/-- The trap codes of R387. -/
def TrapCode.num : TrapCode → BitVec 8
  | .illegalOp => 0x01 | .illegalField => 0x02 | .illegalPort => 0x03 | .illegalPrefix => 0x04 | .illegalBundle => 0x05
  | .illegalTarget => 0x06 | .lineFormat => 0x07 | .queueOverflow => 0x08 | .queueUnderflow => 0x09
  | .bufferState => 0x0A | .pendingRead => 0x0B | .timestamp => 0x0C | .deadline => 0x0D | .range => 0x0E
  | .windowPerm => 0x0F | .page => 0x10 | .fetchPage => 0x11 | .fetchPerm => 0x12 | .uncorrectable => 0x13
  | .scalePoison => 0x14 | .barrierFault => 0x15 | .groupStale => 0x16 | .commitOverflow => 0x17 | .pairTimeout => 0x18
  | .signatureMismatch => 0x19 | .trap => 0x1A | .break => 0x1B | .preempt => 0x1C | .dependence => 0x1D
  | .atomicSlot => 0x1E | .feAbort => 0x1F | .seqTable => 0x20 | .ampMap => 0x21 | .calendar => 0x22 | .plan => 0x23

/-- A trap with a given FAULTADDR. -/
def Trap.at_ (code : TrapCode) (addr : Nat) : Trap :=
  { code := code, addr := BitVec.ofNat 64 addr, matrix := false, exiting := false, cause := 0, dims := [] }

/-- The loaded bits of the dimensions in which a SEQ_TABLE met an uncorrectable word are cleared (R378). -/
def Core.unload (c : Core) (t : Trap) : Core :=
  { c with seq := { c.seq with loaded := c.seq.loaded.filter fun d => !t.dims.contains d } }

/-- Halted by the debugger, or released for one bundle (R399). -/
def RunState.halted? : RunState → Bool
  | .debug _ => true
  | _ => false

/-- A core that has taken a trap (R386): it stops before the bundle at its PC, and TRAPCODE, TRAPPC, FAULTADDR and TRAPLT are
written. Nothing else of it changes but the loaded bit of R378; a core under debug halt halts again after a rewind (R399), and one
that its kernel has frozen stays frozen for the traffic that reaches it (R396). -/
def Core.trapped (c : Core) (t : Trap) : Core :=
  let a := { c.a with trapcode := t.code.num, trappc := c.a.pc, faultaddr := t.addr, traplt := c.a.next }
  { c.unload t with run := .trapped, debugHold := c.debugHold || c.run.halted?, freezes := c.freezes || c.run == .frozen, a := a }

/-- Take a trap on core `n` (R386): the core stops and the report goes to the front-end; the handling is TRAP_HANDLING's
(R388). -/
def takeTrap (n : Nat) (t : Trap) (s : State) : State :=
  let a := (s.core n).a
  { s.setCore n ((s.core n).trapped t) with
    reports := s.reports ++ [{ core := n, code := t.code, pc := a.pc, addr := t.addr, lt := a.next,
                               exiting := t.exiting, matrix := t.matrix, cause := t.cause }] }

/-- A copy that a rewind does not touch: it was issued before the segment, or has ended (R151, R259). -/
def Copy.afterRewind (k : Copy) : Copy :=
  if k.inSeg && k.state != .complete then { k with state := .cancelled, inSeg := false, detached := true }
  else { k with detached := k.inSeg, inSeg := false }

/-- Put the journalled barrier objects back, words without poison (R240, R298). -/
def Core.restoreJournal (c : Core) : List (Nat × W64 × W64) → Core
  | [] => c
  | (a, w0, w1) :: r => Core.restoreJournal (c.storeWords a (words64 w0 ++ words64 w1)) r

/-- The beats of a copy that QWPn counts: of a scrub those of its record, which alone is delivered (R256, R258, R283). -/
def Copy.countedBeats (k : Copy) : List Beat := if k.op == .scrub then k.beats.filter fun b => b.w.isNone else k.beats

/-- The beats of a copy that count: finished ones with every earlier one finished (R258). -/
def finishedPrefix : List Beat → Nat
  | [] => 0
  | b :: bs => if b.state == .finished then finishedPrefix bs + 1 else 0

/-- Bring QWPn up to date over the copies of a queue in issue order (R258). -/
def countBeats (q : Nat) : Nat → List Copy → Nat × List Copy
  | n, [] => (n, [])
  | n, k :: ks =>
    if k.q == some q && k.state != .cancelled then
      let m := finishedPrefix k.countedBeats
      let k' := { k with counted := m }
      if m == k.countedBeats.length then
        let (n', ks') := countBeats q (n + (m - k.counted)) ks
        (n', k' :: ks')
      else (n + (m - k.counted), k' :: ks)
    else
      let (n', ks') := countBeats q n ks
      (n', k :: ks')

def Core.recount (c : Core) (q : Option Nat) : Core :=
  match q with
  | none => c
  | some q =>
    let (n, ks) := countBeats q (SMap.get 0 c.qwp q) c.copies
    { c with qwp := SMap.set 0 c.qwp q (n % 2 ^ 48), copies := ks }

/-- The write pointers of all queues: a cancelled copy no longer holds back those behind it (R258). -/
def Core.recountAll (c : Core) : Core := (upto 8).foldl (fun c q => c.recount (some q)) c

/-- Put the shadowed accumulator rows back (R211). -/
def restoreShadow (acc : SMap AccRow) (d : AccRow) : SMap (Option AccRow) → SMap AccRow
  | [] => acc
  | (n, some r) :: rest => restoreShadow (SMap.set d acc n r) d rest
  | (_, none) :: rest => restoreShadow acc d rest

/-- An accumulator row of +0 without poison (R199). -/
def AccRow.zero : AccRow := { bits := 0, k := .clean }

/-- Whether a landing entry is a beat of one of the given copies. -/
def Landing.ofCopies (ids : List Nat) (e : Landing) : Bool :=
  match e.kind with
  | .beat id _ _ => ids.contains id
  | .send _ _ _ => false

/-- Whether a held update of a barrier comes from a copy (R296). -/
def HeldUpdate.ofCopy (h : HeldUpdate) (id : Nat) : Bool :=
  match h.src with
  | .remote => false
  | .suffix k | .bound k => k == id

/-- The return from a trap: the segment rewind of R151. The checkpoint is restored, the segment's copies are cancelled and
the commit buffer is discarded with them, the incoming timed data come back (R148, R291), the accumulator rows and
barrier objects the segment changed are put back, held updates of its own copies with them (R211, R298), and issue resumes at the
entry bundle. -/
def Core.rewind (c : Core) : Core :=
  let mine := (c.copies.filter fun k => k.inSeg).map fun k => k.id
  let c := c.restoreJournal c.journal
  { c with
    run := .running
    a := c.ck
    cx := .reset
    copies := c.copies.map Copy.afterRewind
    landing := (c.takenIn ++ c.landing).filter fun e => !Landing.ofCopies mine e
    takenIn := []
    journal := []
    held := c.held.filter fun h => !mine.any h.ofCopy
    soft := []
    refetch := []
    ampLog := c.ampLog.map fun (e : AmpEntry) => { e with live := false }
    mx := { c.mx with acc := restoreShadow c.mx.acc .zero c.mx.shadow, shadow := [], established := [], updated := [] } }.recountAll

end Sys2Proof.Machine
end

