-- ==== Sys2Proof/Machine/Formats.lean ====
section
/-! DEFINITION. The format entry (R165) and the format codes each instruction accepts (R72, R95, R168, R186, R223, R247):
every check that raises ILLEGAL_FIELD by reading the format entry in force. -/
namespace Sys2Proof.Machine

/-! ## Fields of a format entry (R165) -/

def fVtype (e : Nat) : Nat := bitsOf e 0 4
def fCtype (e : Nat) : Nat := bitsOf e 4 4
def fAtype (e : Nat) : Nat := bitsOf e 8 4
def fBtype (e : Nat) : Nat := bitsOf e 12 4
def fBcell (e : Nat) : Nat := bitsOf e 16 2
def fSparse (e : Nat) : Nat := bitsOf e 18 2
def fAsc (e : Nat) : Bool := bit e 20
def fBsc (e : Nat) : Bool := bit e 21
def fRnd (e : Nat) : Nat := bitsOf e 22 2
def fEpit (e : Nat) : Nat := bitsOf e 24 4
def fAct (e : Nat) : Nat := bitsOf e 28 4

/-- The format entry in force under an override of `pfx.fmt` (R54): f[ENT] with RND replaced where RNDEN is 1. -/
def SysRegs.entry (r : SysRegs) (ov : Option (Bool × BitVec 2 × BitVec 4)) : Nat :=
  match ov with
  | none => (SMap.get 0 r.fmt r.fmtsel.toNat).toNat
  | some (en, rnd, ent) =>
    let f := (SMap.get 0 r.fmt ent.toNat).toNat
    if en then f - bitsOf f 22 2 <<< 22 + rnd.toNat <<< 22 else f

/-! ## Accepted codes -/

/-- INT8, UINT8, INT16, INT32 (R168). -/
def isVInt (t : Nat) : Bool := t ≤ 3
/-- FP16, BF16, FP32, FP64 (R168). -/
def isVFloat (t : Nat) : Bool := 7 ≤ t && t ≤ 10
/-- FP16, BF16, FP32 (R168, R186). -/
def isWide (t : Nat) : Bool := 7 ≤ t && t ≤ 9
/-- INT4, INT8, UINT8, FP4, E4M3, E5M2 (R186). -/
def isNarrow (t : Nat) : Bool := t ≤ 1 || t == 13 || (4 ≤ t && t ≤ 6)

/-- Whether a B cell width agrees with a B format (R95). -/
def bCellOk (btype bcell : Nat) : Bool :=
  match btype with
  | 4 | 13 => bcell == 0
  | 0 | 5 | 6 => bcell == 1
  | 7 | 8 => bcell == 2
  | _ => false

/-- The A formats of R95. -/
def aTypeOk (t : Nat) : Bool := t == 0 || (4 ≤ t && t ≤ 8)

/-- The output formats of `mx.epi` (R232). -/
def epiOk (t : Nat) : Bool := t == 0 || (4 ≤ t && t ≤ 9)

/-- Whether an operand delivers `one` or `lane` in the element type of the active entry (R50). -/
def Use.readsVtype : Use → Bool
  | .srcV a => match a.port with | .one | .lane => true | _ => false
  | .srcAny a => match a.port with | .lane => true | _ => false
  | _ => false

/-- The number of units of `vext` and `vins` (R122). -/
def unitWidth (t : Nat) : Nat := let w := widthOf t; if w < 8 then 8 else if 64 < w then 64 else w

/-- The format checks of an entry (R72): every field the instruction reads holds a code it accepts. A `vhash`, `vst`, `qr.tab` or
`qr.seed` whose vector source is `one` or `lane` reads VTYPE, as R50 gives these operands the element type in force: the model's
choice beside R183, R249 and R381 (log 82). -/
def Instr.formatOk (i : Instr) (e : Nat) (b : BRec) : Bool :=
  let vt := fVtype e
  let ct := fCtype e
  let ws := widthOf vt
  let wd := widthOf ct
  let own := match i with
    | .vbcast _ _ _ src => !isReserved vt && (vt == 12 || src == { port := .s 0, peek := false })
    | .vext _ _ _ n | .vins _ _ _ n => !isReserved vt && n.toNat < 2048 / unitWidth vt
    | .vadd .. | .vsub .. | .vmul .. | .vred .. => isVInt vt || isVFloat vt || isComplex vt
    | .vfma .. | .vfms .. | .vmin .. | .vmax .. | .vabs .. | .vceq .. | .vclt .. | .vredx .. => isVInt vt || isVFloat vt
    | .vshl .. | .vshr .. => isVInt vt
    | .vrcp .. | .vrsq .. | .vexp2 .. | .vlog2 .. => isWide vt
    | .vand .. | .vor .. | .vxor .. | .vlane .. => !isReserved vt
    | .vsel .. | .vperm .. => !isReserved vt && vt != 4 && vt != 13
    | .vcomp .. => (vt ≤ 1 || vt == 13 || (4 ≤ vt && vt ≤ 8)) && (fSparse e == 1 || fSparse e == 2)
    | .vcvt .. => !isReserved vt && !isReserved ct && isComplex vt == isComplex ct
    | .vpack .. => !isReserved vt && !isReserved ct && wd < ws
    | .vunpack .. => !isReserved vt && !isReserved ct && ws < wd
    | .vscale .. | .vquant .. => isWide vt && isNarrow ct
    | .vdequant .. => isNarrow vt && isWide ct
    | .vcvts .. => isVFloat vt && 4 ≤ ct && ct ≤ 9 && wd < ws
    | .mxLdb .. => fSparse e == 0 && bCellOk (fBtype e) (fBcell e)
    | .mxLdbs .. => (fSparse e == 1 || fSparse e == 2) && bCellOk (fBtype e) (fBcell e)
    | .mxRun .. | .mxPair .. =>
      aTypeOk (fAtype e) && fBtype e == b.btype.toNat && fBcell e == b.bcell.toNat && fSparse e == b.sparse.toNat
    | .mxEpi .. => epiOk (fEpit e) && fAct e ≤ 3
    | .vgath .. | .vscat .. => vt == 3 || vt == 9 || vt == 10 || vt == 11
    | .vatom .. => vt == 3 || vt == 9 || vt == 10
    | .rgath .. => aTypeOk (fAtype e) && fSparse e != 3
    | _ => true
  own && (i.uses.all fun u => !Use.readsVtype u || !isReserved vt)

/-! ## Quantities a format fixes -/

/-- Bit-planes wa of an A format (R95). -/
def planes (t : Nat) : Nat := match widthOf t with | 4 => 4 | 8 => 8 | _ => 12

/-- B cell width wb (R165). -/
def cellWidth (bcell : Nat) : Nat := 4 <<< bcell

/-- Elements of an A row (R197). -/
def aCount (sparse : Nat) : Nat := if sparse == 0 then 128 else 256

/-- Bytes of an A row (R197). -/
def aBytes (atype sparse : Nat) : Nat := aCount sparse * widthOf atype / 8

/-- Occupancy k of a V-pipe word (R166). -/
def Instr.occupancy (i : Instr) (e : Nat) : Nat :=
  match i with
  | .vadd .. | .vsub .. | .vred .. => if fVtype e == 10 || fVtype e == 12 then 2 else 1
  | .vfma .. | .vfms .. => if fVtype e == 10 then 2 else 1
  | .vmul .. => if fVtype e == 10 || fVtype e == 11 then 2 else if fVtype e == 12 then 4 else 1
  | _ => 1

end Sys2Proof.Machine
end

