-- ==== Sys2Proof/Machine/Operands.lean ====
section
/-! DEFINITION. Operands and results of instruction words: reading ports (R48-R51, R104, R107), poison of an operand (R467,
R85), delivering results (R103-R111), and the issue of one word on the current core. -/
namespace Sys2Proof.Machine

/-! ## Elements with poison (R467) -/

/-- The kind of element i of width w of a value: the union of the kinds of the 32-bit words it lies in. -/
def Val.elemKind (v : Val) (w i : Nat) : Kind :=
  Kind.joinAll ((rangeFrom (w * i / 32) ((w * i + w - 1) / 32 + 1 - w * i / 32)).map v.kind)

/-- Element i of width w. -/
def Val.elem (v : Val) (w i : Nat) : Nat := Sys2Proof.Machine.elem v.bits.toNat w i

/-- A vector of elements of width w, each with the union of the kinds that entered it; a word takes the union of the kinds of
the elements it holds. -/
def Val.ofElems (w : Nat) (es : List (Nat × Kind)) : Val :=
  let per := if w < 32 then 32 / w else 1
  let kinds := es.map Prod.snd
  let words := if w < 32 then (upto (es.length / per)).map fun k => Kind.joinAll ((kinds.drop (k * per)).take per)
    else (kinds.map fun k => List.replicate (w / 32) k).flatten
  { bits := BitVec.ofNat 2048 (Sys2Proof.Machine.ofElems w (es.map Prod.fst))
    ep := BitVec.ofNat 64 (ofBits (words.map Kind.elem))
    sp := BitVec.ofNat 64 (ofBits (words.map Kind.scale)) }

/-- The vector whose element i is `f i`, all 2048 / w of them. -/
def Val.tabulate (w : Nat) (f : Nat → Nat × Kind) : Val := Val.ofElems w ((upto (2048 / w)).map f)

/-! ## The current word -/

/-- Issue LT (R62). -/
def Core.now (c : Core) : Nat := c.a.next

/-- The format entry in force for the word (R54, R62). -/
def Core.fmt (c : Core) : Nat := c.a.sys.entry c.cx.fmt

/-- A trap whose FAULTADDR is the address of the word. -/
def Core.wordTrap (c : Core) (code : TrapCode) : Trap := Trap.at_ code c.cx.word

/-- Stop with the word's trap unless a condition holds. -/
def Core.need (c : Core) (b : Bool) (code : TrapCode) : Except Trap Unit := if b then .ok () else .error (c.wordTrap code)

/-- The trap of a poisoned word read into an operand that carries no poison (R467). -/
def Core.noPoison (c : Core) (k : Kind) : Except Trap Unit :=
  if k.poisoned then .error (c.wordTrap k.code) else .ok ()

/-! ## Reading sources (R104, R107) -/

/-- Pop or peek the head of a queue or unit port; QUEUE_UNDERFLOW where nothing has landed (R104). -/
def Core.readQueue (c : Core) (p : Port) (peek : Bool) : Except Trap (Val × Core) :=
  match c.a.landed p with
  | [] => .error (c.wordTrap .queueUnderflow)
  | v :: r => .ok (v, if peek then c else { c with a := c.a.setLanded p r })

/-- `read(port, pk)[63:0]` of a scalar operand (R48, R124); a poisoned latch word traps (R467). -/
def Core.readS (c : Core) (a : Src) : Except Trap (W64 × Core) :=
  match a.port with
  | .latch l =>
    let v := c.a.latch l
    match c.noPoison ((v.kind 0).join (v.kind 1)) with
    | .ok _ => .ok (v.scalar, c)
    | .error t => .error t
  | .zero => .ok (0, c)
  | .one => .ok (1, c)
  | .ones => .ok (-1, c)
  | .core => .ok (BitVec.ofNat 64 c.lcore, c)
  | .ltlo => .ok (BitVec.ofNat 64 (c.now % 2 ^ 23), c)
  | p =>
    match c.readQueue p a.peek with
    | .ok (v, c') => .ok (v.scalar, c')
    | .error t => .error t

/-- The value 1 encoded in a format code (R50). -/
def oneCode (t : Nat) : Nat :=
  if isInt t then 1 else ((ffOf (partOf t)).round 0 (.fin (.ofNat 1 0))).1

/-- Every bit set (R104). -/
def Val.ones : Val := Val.ofNat (2 ^ 2048 - 1)

/-- `read(port, pk)` of a vector operand (R48-R50). -/
def Core.readV (c : Core) (a : Src) : Except Trap (Val × Core) :=
  match a.port with
  | .latch l => .ok (c.a.latch l, c)
  | .zero => .ok (Val.zero, c)
  | .ones => .ok (Val.ones, c)
  | .one => let t := fVtype c.fmt; .ok (Val.tabulate (widthOf t) fun _ => (oneCode t, .clean), c)
  | .lane => let w := widthOf (fVtype c.fmt); .ok (Val.tabulate w fun i => (i % 2 ^ w, .clean), c)
  | p => c.readQueue p a.peek

/-- An operand of either class (R314, R347): whether it is a vector, and its value. `zero`, `one` and `ones`, whose width R48 gives as
any, are scalars here: the model's choice (log 124). -/
def Core.readAny (c : Core) (a : Src) : Except Trap ((Bool × Val) × Core) :=
  if a.port.vectorSrc && !(a.port.scalarSrc) || (match a.port with | .latch l => l != .s | _ => false) then
    match c.readV a with
    | .ok (v, c') => .ok ((true, v), c')
    | .error t => .error t
  else
    match c.readS a with
    | .ok (v, c') => .ok ((false, Val.ofScalar v), c')
    | .error t => .error t

/-! ## Delivering results (R103-R111) -/

/-- Whether a destination reserves a slot (R105). -/
def Port.reserves (p : Port) : Bool := Port.depth p != 0

/-- Put something in flight, due at an LT; it is physically ready unless the core is slow (R16). -/
def Core.later (c : Core) (p : Pipe) (lt : Nat) (dst : Option Port) (act : Act) : Core :=
  { c with a := { c.a with inflight := c.a.inflight ++
      [{ lt := lt, issue := c.now, pipe := p, word := c.cx.word, dst := dst, ready := !c.slow, act := act }] } }

/-- The same for something that is not ready until an event of the package makes it so. -/
def Core.gate (c : Core) (p : Pipe) (lt : Nat) (act : Act) : Core :=
  { c with a := { c.a with inflight := c.a.inflight ++
      [{ lt := lt, issue := c.now, pipe := p, word := c.cx.word, dst := none, ready := false, act := act }] } }

/-- The moment the word retires, for a suffix word on it (R57). -/
def Core.retireAt (c : Core) (lt : Nat) : Core := { c with cx := { c.cx with retire := .at_ lt } }

/-- `land(dst, v, issue_lt + L)` together with the latch it writes (R105, R109); the word retires there. -/
def Core.deliver (c : Core) (p : Pipe) (l : Option Latch) (d : Port) (v : Val) (lat : Nat) : Core :=
  (c.later p (c.now + lat) (if Port.reserves d then some d else none) (.land d l v)).retireAt (c.now + lat)

/-- A scalar result of pipe S. -/
def Core.deliverS (c : Core) (d : Port) (v : W64) (lat : Nat) : Core :=
  c.deliver .s (some .s) d (Val.ofScalar v) lat

/-- The flags of the word reach FLAGS at issue LT + L (R93). -/
def Core.raiseAt (c : Core) (p : Pipe) (lat : Nat) (f : Flags) : Core :=
  if f == 0 then c else c.later p (c.now + lat) none (.flags f)

/-- The V pipe the next V word executes on (R39). -/
def Core.vPipe (c : Core) : Pipe := if c.cx.nv == 0 then .v0 else .v1

/-- The C pipe the next C word executes on (R39). -/
def Core.cPipe (c : Core) : Pipe := if c.cx.nc == 0 then .c0 else .c1

/-- A vector result of the issuing V pipe with its flags (R172). -/
def Core.deliverV (c : Core) (d : Port) (v : Val) (f : Flags) (lat : Nat) : Core :=
  (c.deliver c.vPipe (some c.vPipe.latch) d v lat).raiseAt c.vPipe lat f

/-! ## The issue of one word -/

/-- What a word does: the state of the package and the core it issues on, to that core after it. -/
abbrev Body := State → Core → Except Trap Core

/-- The three outcomes of an instruction. -/
abbrev Res := Host.Outcome State Fault Refusal

/-- The first LT at which the V pipe of the next V word is free (R167). -/
def Core.vFree (c : Core) : Nat := if c.cx.nv == 0 then c.a.v0Free else c.a.v1Free

/-- The checks of R58 on the word itself, in the order of R59: fields with the format entry, ports, the reserved V pipe of
R167. The checks on the bundle as a whole are the step's. -/
def Instr.wordTrap? (i : Instr) (c : Core) : Option Trap :=
  if !i.fieldWf || !Instr.formatOk i c.fmt c.a.brec then some (c.wordTrap .illegalField)
  else if !i.portWf then some (c.wordTrap .illegalPort)
  else if i.pipe == some .v && c.now < c.vFree then some (c.wordTrap .illegalBundle)
  else none

/-- A V word of occupancy k reserves its pipe to issue LT + k - 1 (R167). -/
def Arch.occupy (a : Arch) (p : Pipe) (until_ : Nat) : Arch :=
  match p with
  | .v0 => { a with v0Free := until_ }
  | .v1 => { a with v1Free := until_ }
  | _ => a

/-- After an operation word: its pipe is taken, for `k` cycles, and its prefixes are spent (R39, R52, R167). -/
def Core.spent (i : Instr) (k : Nat) (c : Core) : Core :=
  let a := if i.pipe == some .v then c.a.occupy c.vPipe (c.now + k) else c.a
  let nv := if i.pipe == some .v then c.cx.nv + 1 else c.cx.nv
  let nc := if i.pipe == some .c then c.cx.nc + 1 else c.cx.nc
  { c with a := a, cx := { c.cx with imm := none, fmt := none, ts := none, row := (false, false), nv := nv, nc := nc } }

/-- Issue one operation word on the current core: its checks, its effect, or the trap it raises (R40, R386). -/
def issue (i : Instr) (body : Body) (s : State) : Res :=
  let c := s.core s.cur
  match Instr.wordTrap? i c with
  | some t => .next (takeTrap s.cur t s)
  | none =>
    match body s (c.retireAt c.now) with
    | .ok c' => .next (s.setCore s.cur (c'.spent i (Instr.occupancy i c.fmt)))
    | .error t => .next (takeTrap s.cur t s)

/-! ## Immediates and LTs of prefixes -/

/-- An immediate field of `w` bits with the payload of `pfx.imm` above it, as a signed integer (R53). -/
def Core.immS (c : Core) (w v : Nat) : Int :=
  match c.cx.imm with
  | none => sextInt v w
  | some p => sextInt (v + p.toNat <<< w) (w + 23)

/-- The same as an unsigned number. -/
def Core.immU (c : Core) (w v : Nat) : Nat :=
  match c.cx.imm with
  | none => v
  | some p => v + p.toNat <<< w

/-- The largest LT (R15). -/
def maxLt : Nat := 2 ^ 48 - 1

/-- `target_lt` of `pfx.ts`, or the default (R55); beyond the largest LT the word raises DEADLINE. -/
def Core.targetLt (c : Core) (default_ : Nat) : Except Trap Nat :=
  match c.cx.ts with
  | none => .ok default_
  | some d => if c.now + d.toNat ≤ maxLt then .ok (c.now + d.toNat) else .error (c.wordTrap .deadline)

end Sys2Proof.Machine
end

