-- ==== Sys2Proof/Config.lean ====
section
/-! DEFINITION. Free values: constants without a body that stand for what the spec does not fix (log 7, log 13, log 14).
Nothing can be proved about one of their values. -/
namespace Sys2Proof.Config

/-- The n-th byte read under a key other than its writer's (R440): bytes of no use to the reader. -/
opaque freeByte : Nat → Byte

/-- The line that leaves a full instruction cache for the n-th line added (R13, R393), by its place in the cache. -/
opaque icacheVictim : Nat → Nat

/-- Bytes of a saved context area (R397), whose layout the spec does not give. -/
opaque contextByte : Nat → Byte

/-- The SHA-256 digest of some content that the device measures (R437, R439), listed as numbers. -/
opaque digest : List Nat → BitVec 256

/-- The public key of the n-th identity key pair that the root of trust has generated, 32 bytes (R437). -/
opaque publicKey : Nat → BitVec 256

/-- The n-th SLH-DSA signature under an identity key, 7,856 bytes (R437). -/
opaque signature : Nat → Nat → BitVec 62848

/-- The beat of the n-th packet without a payload (R318), whose layout the spec does not give. -/
opaque requestBeat : Nat → Beat512

/-- What the n-th read of BAR 2 returns (R442): its trigger words are write only (R334). -/
opaque triggerPage : Nat → W64

/-- The n-th reading of the temperature sensors in degrees Celsius (R448). -/
opaque temperature : Nat → Nat

/-- The n-th reading of the module power in watts (R448). -/
opaque power : Nat → Nat

/-- Which core's bytes a debug READ of all the cores of a kernel leaves in the data buffer (R436; log 143): its place, by the counter. -/
opaque lastRead : Nat → Nat

/-- The bytes of a firmware image in a front-end core's instruction store (R31, R435), which the spec does not give. -/
opaque firmwareByte : Nat → Nat → Byte

/-- What the command engine of the front-end hands its core for a scalar queue with the n-th event (R31), if anything. -/
opaque engineValue : Nat → Nat → Option W64

end Sys2Proof.Config
end

