-- ==== Sys2Proof/Machine/Memory.lean ====
section
/-! DEFINITION. Memory outside the cores: HBM with the keys of R440, the doorbell page (R417), host memory, the address map of
R266, and windows (R264-R268). -/
namespace Sys2Proof.Machine

/-! ## HBM (R266, R440, R447) -/

/-- The size of HBM (R9, R33, R266). -/
def hbmSize : Nat := 2 ^ 39

/-- The doorbell page holds no storage (R417). -/
def doorbellBase : Nat := 0x7FFFFFF000

/-- Channel of an HBM physical address (R266). -/
def channelOf (pa : Nat) : Nat := bitsOf pa 38 1 * 128 + bitsOf pa 6 7

/-- Die of an HBM physical address (R266). The doorbell page holds no storage: it is the front-end's, on die 0 (R9, R417; log 71). -/
def dieOfPa (pa : Nat) : Nat := if doorbellBase ≤ pa then 0 else bitsOf pa 38 1

/-- The key of a context: `none` for context 0, else the tenant context and its key generation (R440, R447). -/
def State.keyOf (s : State) (ctx : Nat) : Option (Nat × Nat) := if ctx == 0 then none else some (ctx, s.genT)

/-- The key a 16-byte block was written under. -/
def State.blockKey (s : State) (a : Nat) : Option (Nat × Nat) := SMap.get none s.hbmKey (a / 16)

/-- A byte of HBM as read under a key: a byte under another key is a free value of this read and address (R440); so is every byte
while a full-scope wipe, which destroyed the keys, has not filled HBM with zeros (R447). -/
def State.hbmByte (s : State) (key : Option (Nat × Nat)) (a : Nat) : Byte :=
  if doorbellBase ≤ a then 0
  else if s.blockKey a = key && !s.zeroFill then readByte s.hbm a
  else Config.freeByte (s.fresh * hbmSize + a)

/-- `n` bytes of HBM read under a key. -/
def State.hbmBytes (s : State) (key : Option (Nat × Nat)) (a n : Nat) : List Byte :=
  (rangeFrom a n).map fun b => s.hbmByte key b

/-- The state after such a read: free values used are counted. -/
def State.hbmTouch (s : State) (key : Option (Nat × Nat)) (a n : Nat) : State :=
  if !s.zeroFill && (rangeFrom a n).all fun b => s.blockKey b = key then s else { s with fresh := s.fresh + 1 }

/-- A read of HBM with its effect on the counter of free values. -/
def State.hbmRead (s : State) (key : Option (Nat × Nat)) (a n : Nat) : List Byte × State :=
  (s.hbmBytes key a n, s.hbmTouch key a n)

/-- Whether some bytes of HBM lie in an uncorrectable block (R278). -/
def State.uncorrectable (s : State) (a n : Nat) : Bool := (rangeFrom a n).any fun b => s.hbmBad.contains (b / 64)

/-- A read of HBM by a party that marks no poison: bytes of an uncorrectable block are free values (log 22). -/
def State.contextRead (s : State) (key : Option (Nat × Nat)) (a n : Nat) : List Byte × State :=
  if s.uncorrectable a n then
    ((rangeFrom a n).map fun b => if s.hbmBad.contains (b / 64) then Config.freeByte (s.fresh * hbmSize + b) else s.hbmByte key b,
     { s with fresh := s.fresh + 1 })
  else s.hbmRead key a n

/-- Re-encrypt a 16-byte block under a key: its bytes become what a read under the key returns (R440). -/
def State.rekey (s : State) (key : Option (Nat × Nat)) (block : Nat) : State :=
  if s.blockKey (16 * block) = key then s
  else
    let bs := s.hbmBytes key (16 * block) 16
    { s with hbm := writeBytes s.hbm (16 * block) bs, hbmKey := SMap.set none s.hbmKey block key, fresh := s.fresh + 1 }

/-- Write bytes of HBM under a key; the doorbell page holds nothing (R417, R440). A block of 64 bytes written whole is
correct again. -/
def State.hbmWrite (s : State) (key : Option (Nat × Nat)) (a : Nat) (bs : List Byte) : State :=
  if doorbellBase ≤ a then s
  else
    let blocks := rangeFrom (a / 16) ((a + bs.length - 1) / 16 + 1 - a / 16)
    let s := blocks.foldl (fun s b => s.rekey key b) s
    let whole (b : Nat) : Bool := a ≤ 64 * b && 64 * b + 64 ≤ a + bs.length
    { s with hbm := writeBytes s.hbm a bs
             hbmBad := s.hbmBad.filter fun b => !whole b
             hbmWeak := s.hbmWeak.filter fun b => !whole b }

/-- A 64-bit little-endian word of HBM (R3). -/
def State.hbm64 (s : State) (key : Option (Nat × Nat)) (a : Nat) : W64 := BitVec.ofNat 64 (ofBytes (s.hbmBytes key a 8))

/-- The bytes of a beat, lowest address first. -/
def beatBytes (d : Beat512) : List Byte := toBytes 64 d.toNat

/-- The beat of 64 bytes. -/
def bytesBeat (bs : List Byte) : Beat512 := BitVec.ofNat 512 (ofBytes bs)

/-! ## Windows (R264) -/

structure Window where
  kind : Nat
  crit : Bool
  rd : Bool
  wr : Bool
  amo : Bool
  peer : Nat
  bound : Nat
  base : Nat
  deriving DecidableEq, Repr

/-- Decode the two words of a window entry (R264). -/
def Window.ofWords (w0 w1 : W64) : Window :=
  { kind := fld w0 63 62, crit := fld w0 61 61 == 1, rd := fld w0 60 60 == 1, wr := fld w0 59 59 == 1,
    amo := fld w0 58 58 == 1, peer := fld w0 51 42, bound := fld w0 41 0, base := w1.toNat }

/-- Window w of a core. -/
def Core.window (c : Core) (w : Nat) : Window := Window.ofWords (SMap.get 0 c.win0 w) (SMap.get 0 c.win1 w)

/-- Window number and offset of a window address (R29). -/
def winOf (a : Nat) : Nat := bitsOf a 42 6
def offOf (a : Nat) : Nat := bitsOf a 0 42

/-- The 512 KiB granule of IOVA that a host window's address lies in (R267). -/
def Window.granule (w : Window) (off : Nat) : Nat := (w.base + off) % 2 ^ 64 / 2 ^ 19

/-- A cached translation of a granule of a window (R269). -/
def Core.translation (c : Core) (w g : Nat) : Option Translation := c.tlb.find? fun t => t.w == w && t.granule == g

/-- Put a translation in front; the cache holds 64 (R269). That the oldest leaves a full cache is the model's choice (log 107). -/
def Core.cacheTranslation (c : Core) (t : Translation) : Core :=
  { c with tlb := (t :: c.tlb.filter fun x => !(x.w == t.w && x.granule == t.granule)).take 64 }

/-- The context a core performs under (R440). -/
def State.ctxOf (s : State) (c : Core) : Nat := match s.kernelOf c with | some k => k.ctx | none => 0

/-- The key of a core's accesses (R440). -/
def State.keyOfCore (s : State) (c : Core) : Option (Nat × Nat) := s.keyOf (s.ctxOf c)

end Sys2Proof.Machine
end

