-- ==== Sys2Proof/Machine/Rails.lean ====
section
/-! DEFINITION. Rails (R318-R321): which are down, how a packet is cut into beats, and the retransmit buffer. -/
namespace Sys2Proof.Machine

/-- The rails of a group that are down: UALink groups 0-2 with ports 5g to 5g + 4, group 3 the die-to-die link. -/
def State.railsDown (s : State) (g : Nat) : List Nat :=
  if g < 3 then (upto 5).filter fun k => s.portsDown.contains (5 * g + k) else (upto 5).filter fun k => s.d2dDown.contains k

/-- Whether a rail group carries traffic: it is WHOLE or DEGRADED (R320). -/
def State.groupUp (s : State) (g : Nat) : Bool := (s.railsDown g).length < 2

/-- Whether some rail group reaches the other packages (R320, R321). -/
def State.fabricUp (s : State) : Bool := (upto 3).any s.groupUp

/-- The XOR of some beats (R318). -/
def xorBeats (bs : List Beat512) : Beat512 := bs.foldl (fun a b => a ^^^ b) 0

/-- A packet on its rails (R318): beat k goes to data rail k mod 4, and each stripe of four beats, the last with fewer, is followed
by its XOR beat on rail 4, but for the packets of a switch node (R341). -/
def onRails (xor : Bool) (bs : List Beat512) : List (Nat × Beat512) :=
  (upto (ceilDiv bs.length 4)).flatMap fun k =>
    let stripe := (bs.drop (4 * k)).take 4
    (upto stripe.length).map (fun r => (r, stripe.getD r 0)) ++ if xor then [(4, xorBeats stripe)] else []

/-- The beats of some bytes (R318). -/
def byteBeats (bs : List Byte) : List Beat512 := (digits 512 (ceilDiv bs.length 64) (ofBytes bs)).map (BitVec.ofNat 512)

/-- A packet enters a rail group and the retransmit buffer, where it stays until it is acknowledged (R318, R319); a group that is DOWN
carries nothing, and the packet waits in the buffer (R320). One without a payload is one beat whose layout is not given (log 88).
`number` finds it again; `what` it says beside its beats. -/
def State.transmit (s : State) (number : Option Nat) (g : Nat) (xor : Bool) (bs : List Beat512) (what : List Output) : State :=
  let bs := if bs.isEmpty then [Config.requestBeat s.fresh] else bs
  { s with
    fresh := s.fresh + 1
    outs := if s.groupUp g then s.outs ++ .rails g (onRails xor bs) :: what else s.outs
    retransmit := s.retransmit ++ [
      { number := number.getD (2 ^ 80 + s.fresh), group := g, xor := xor, beats := bs
        unsent := if s.groupUp g then [] else what }] }

/-- A packet leaves for another package on the lowest rail group that is up, or waits while none is (R319, R320). -/
def State.sendOut (s : State) (number : Option Nat) (bs : List Beat512) (what : List Output) : State :=
  s.transmit number (((upto 3).find? s.groupUp).getD 0) true bs what

/-- A packet leaves for a switch, on the four data rails of its rail group (R341). -/
def State.sendSwitch (s : State) (g : Nat) (bs : List Beat512) (what : Output) : State := s.transmit none g false bs [what]

/-! ## Between the dies (R318, R320) -/

/-- A packet goes from one die to another over the die-to-die link (R318). -/
def State.crossDie (s : State) (a b : Nat) (bs : List Beat512) : State := if a == b then s else s.transmit none 3 true bs []

/-- A party on a die accesses memory beside another one: the access goes over the link and its answer comes back; one of the two carries
the data (R266, R318). -/
def State.crossAccess (s : State) (die far : Nat) (bs : List Beat512) (reads : Bool) : State :=
  if reads then (s.crossDie die far []).crossDie far die bs else (s.crossDie die far bs).crossDie far die []

/-- Whether a range of HBM has a byte that is not beside a die (R266), the doorbell page with the front-end on die 0 (R417). -/
def farFrom (die a n : Nat) : Bool :=
  if die == 0 then 2 ^ 38 < a + n && a < doorbellBase else a < 2 ^ 38 || doorbellBase < a + n

/-- Whether a party on a die can reach a range of HBM now: what lies beside the other die is behind the link (R320, log 100). -/
def State.reaches (s : State) (die a n : Nat) : Bool := !farFrom die a n || s.groupUp 3

/-- What a party on a die reads or writes of HBM at an address crosses the link where it lies beside the other die (R266, R318). -/
def State.crossRange (s : State) (die a : Nat) (bs : List Byte) (reads : Bool) : State :=
  let far := if die == 0 then (bs.take (doorbellBase - a)).drop (2 ^ 38 - a) else bs.take (2 ^ 38 - a) ++ bs.drop (doorbellBase - a)
  if far.isEmpty then s else s.crossAccess die (1 - die) (byteBeats far) reads

/-- Likewise for some ranges that the front-end, on die 0 (R9), reads under a key. -/
def State.frontReads (s : State) (key : Option (Nat × Nat)) (rs : List (Nat × Nat)) : State :=
  rs.foldl (fun s r => if farFrom 0 r.1 r.2 then s.crossRange 0 r.1 (s.hbmBytes key r.1 r.2) true else s) s

/-- The front-end reads HBM, and what it reads may cross the link. -/
def State.frontRead (s : State) (key : Option (Nat × Nat)) (a n : Nat) : List Byte × State :=
  let r := s.contextRead key a n
  (r.1, r.2.crossRange 0 a r.1 true)

/-- The front-end writes HBM, and what it writes may cross the link. -/
def State.frontWrite (s : State) (key : Option (Nat × Nat)) (a : Nat) (bs : List Byte) : State :=
  (s.crossRange 0 a bs false).hbmWrite key a bs

/-! ## The retransmit buffer (R319) -/

/-- The rail group that an entry of the retransmit buffer is sent on now (R320): its own while it is up, another that reaches the
other packages, or none. The die-to-die link has no other, nor has a switch's group (R341). -/
def State.groupFor (s : State) (e : Sent) : Option Nat :=
  if s.groupUp e.group then some e.group else if e.group == 3 || !e.xor then none else (upto 3).find? s.groupUp

/-- The retransmit buffer's number of a beat of a copy. -/
def beatNumber (n id j : Nat) : Nat := (n * 2 ^ 40 + id) * 2 ^ 16 + j

/-- The receiver has acknowledged a packet (R319). -/
def State.dropSent (s : State) (number : Nat) : State :=
  { s with retransmit := s.retransmit.filter fun e => e.number != number }

end Sys2Proof.Machine
end

