-- ==== Sys2Proof/Machine/Fetch.lean ====
section
/-! DEFINITION. Fetching instruction words (R41-R47, R391-R393): the line descriptor and its checks, the fetch faults, and the
words of one bundle. -/
namespace Sys2Proof.Machine

/-! ## Addresses of words (R41) -/

/-- The line a word lies in, and its place in it. -/
def lineOf (a : Nat) : Nat := a / 64 * 64
def slotOf (a : Nat) : Nat := a % 64 / 4

/-- The address of the word after a word; the descriptor of the next line is skipped (R41). -/
def nextWord (a : Nat) : Nat := (if (a + 4) % 64 == 0 then a + 8 else a + 4) % 2 ^ 48

/-! ## The line descriptor (R42-R45) -/

def descSig (d : Word) : Nat := bitsOf d.toNat 24 8
def descNbun (d : Word) : Nat := bitsOf d.toNat 20 4
def descSege (d : Word) : Bool := d.getLsbD 19
def descSstart (d : Word) : Bool := d.getLsbD 18
def descFold (d : Word) : Nat := bitsOf d.toNat 0 8

/-- The check fold of words 1-15 (R43). -/
def foldOf (ws : List Word) : Nat :=
  let f := ws.foldl (fun x w => x ^^^ w.toNat) 0
  (f >>> 24) ^^^ bitsOf f 16 8 ^^^ bitsOf f 8 8 ^^^ bitsOf f 0 8

/-- The words of a line at which bundles start, for sequential entry: the word before has chain bit 0, or the word is the
kernel's entry point `entry` (R44; 0, the descriptor's place, where the line does not hold it). -/
def startsFrom (entry : Nat) : Nat → Bool → List Word → List Nat
  | _, _, [] => []
  | k, chained, w :: ws => (if chained && k != entry then [] else [k]) ++ startsFrom entry (k + 1) w.msb ws

/-- The place of the kernel's entry point in a line; 0 where the line does not hold it (R44). -/
def Core.entrySlot (c : Core) (line : Nat) : Nat := if lineOf c.entryPc == line then slotOf c.entryPc else 0

/-- Bundle starts of a line of sixteen words; `prev` is the chain bit of word 15 of the preceding line. -/
def Line.starts (l : Line) (entry : Nat) (prev : Bool) : List Nat := startsFrom entry 1 prev (l.words.drop 1)

/-- The checks of R43, with the bundle count where the line is reached sequentially (R44). -/
def Line.ok (l : Line) (entry : Nat) (counted prev : Bool) : Bool :=
  let d := l.words.headD 0
  descSig d == 0xC5 && descFold d == foldOf (l.words.drop 1) && bitsOf d.toNat 8 10 == 0 &&
  (descSege d || !descSstart d) && (descNbun d != 0 || !(descSege d || descSstart d)) &&
  (!counted || (l.starts entry prev).length == descNbun d)

/-! ## Reading lines (R391) -/

/-- What a line that is not cached gives. -/
inductive LineSrc where
  | line (l : Line)
  | fault (t : Trap)
  /-- a host granule without a translation: window and granule (R267) -/
  | translate (w g : Nat)
  deriving DecidableEq, Repr

/-- What a fetch from the HBM beside the other die waits for while the die-to-die link is DOWN: no translation, since there is no
window 64 (R320, log 100). -/
def linkAwaited : Nat × Nat := (64, 0)

/-- The line whose 64 bytes are given. -/
def lineOfBytes (bs : List Byte) : Line := { words := (digits 32 16 (ofBytes bs)).map (BitVec.ofNat 32) }

/-- Read a line through its window (R391). A bundle needs the whole of each of its lines, so the first byte at or beyond BOUND
that it needs is the line's own first byte where BOUND lies below the line (R466). A critical HBM window computes its
translation twice (R271). -/
def State.readLine (s : State) (c : Core) (a : Nat) : LineSrc :=
  let w := c.window (winOf a)
  let off := offOf a
  let granule := winOf a <<< 42 + off / 2 ^ 19 * 2 ^ 19
  if w.kind == 0 || w.kind == 3 || !w.rd then .fault (Trap.at_ .fetchPerm granule)
  else if w.bound < off + 64 then
    .fault (Trap.at_ .fetchPerm (if w.kind == 1 then Nat.max a (winOf a <<< 42 + w.bound) else granule))
  else if w.kind == 1 then
    if w.crit && c.disagree.contains a then .fault (Trap.at_ .uncorrectable granule)
    else if !s.reaches c.die (w.base + off) 64 then .translate linkAwaited.1 linkAwaited.2
    else .line (lineOfBytes (s.hbmBytes (s.keyOfCore c) (w.base + off) 64))
  else match c.translation (winOf a) (w.granule off) with
    | none => .translate (winOf a) (w.granule off)
    | some t =>
      if t.read && t.exec then .line (lineOfBytes (readBytes s.hostMem (t.pa * 2 ^ 19 + (w.base + off) % 2 ^ 19) 64))
      else .fault (Trap.at_ .fetchPerm granule)

/-- A line as the fetch unit has it: cached, or read from memory. -/
def State.lineAt (s : State) (c : Core) (a : Nat) : LineSrc :=
  match SMap.get none c.icache a with
  | some l => .line l
  | none => s.readLine c a

/-- The chain bit of a word that no bundle being issued needs, without any fault or check: the translation of its line is awaited
(`error`); a line that cannot be read, or whose translation has been refused, gives 0 (log 74). -/
def State.chainAt (s : State) (c : Core) (a : Nat) : Except (Nat × Nat) Bool :=
  match s.lineAt c (lineOf a) with
  | .line l => .ok (l.words.getD (slotOf a) 0).msb
  | .translate w g => if c.absent.contains (w, g) then .ok false else .error (w, g)
  | .fault _ => .ok false

/-- The address of the bundle after the one that starts at an address, in address order (R37); an awaited translation else. -/
def State.afterBundle (s : State) (c : Core) : Nat → Nat → Except (Nat × Nat) Nat
  | 0, a => .ok a
  | fuel + 1, a => do if ← s.chainAt c a then s.afterBundle c fuel (nextWord a) else .ok (nextWord a)

/-- The address after two bundles from an address: where a `call` returns to (R160). -/
def State.afterTwo (s : State) (c : Core) (a : Nat) : Except (Nat × Nat) Nat := do
  s.afterBundle c 12 (← s.afterBundle c 12 a)

/-- Whether the word at a program counter is the first at which a bundle of its line starts in sequence (R45). The preceding
line decides it where word 1 may continue a bundle; there is none below address 64. -/
def State.isFirstStart (s : State) (c : Core) (l : Line) : Except (Nat × Nat) Bool := do
  let line := lineOf c.a.pc
  let first (prev : Bool) : Bool := (l.starts (c.entrySlot line) prev).head? == some (slotOf c.a.pc)
  if first false == first true || line < 64 || (c.a.entry = .sequential && slotOf c.a.pc == 1) then .ok (first false)
  else .ok (first (← s.chainAt c (line - 4)))

/-- The first fetch fault among the lines a bundle needs, or the translation it waits for (R392). -/
def State.fetchNeed (s : State) (c : Core) : Nat → Nat → Option (Trap ⊕ (Nat × Nat))
  | 0, _ => none
  | fuel + 1, a =>
    match s.lineAt c (lineOf a) with
    | .fault t => some (.inl t)
    | .translate w g => some (.inr (w, g))
    | .line l => if (l.words.getD (slotOf a) 0).msb then s.fetchNeed c fuel (nextWord a) else none

/-- Spend one failing read of a line, if one is pending (R43). -/
def Core.spendCorrupt (c : Core) (line : Nat) : Bool × Core :=
  match c.corrupt.find? fun e => e.1 == line && e.2 != 0 with
  | none => (false, c)
  | some (l, k) => (true, { c with corrupt := (l, k - 1) :: c.corrupt.filter fun e => e.1 != line })

/-- The lines that the instruction cache holds: 256 KiB (R13, R33). -/
def icacheLines : Nat := 4096

/-- A line enters the cache; a full cache loses one of its lines, which one the spec leaves open (R13, R393). -/
def Core.cacheLine (c : Core) (t line : Nat) (l : Line) : Core :=
  let full := (SMap.get none c.icache line).isNone && icacheLines ≤ c.icache.length
  let kept := if full then c.icache.eraseIdx (Config.icacheVictim t % icacheLines) else c.icache
  { c with icache := SMap.set none kept line (some l) }

/-- Lines as they were read from memory, by address. -/
abbrev LineReads : Type := List (Nat × Line)

/-- Why a bundle is not at hand: a fetch trap or an awaited translation, with what has been read and the core as its fetch unit then
stands (R43, R391). -/
abbrev FetchStop : Type := (Trap ⊕ (Nat × Nat)) × LineReads × Core

/-- The same after some reads more. -/
def FetchStop.after (before : LineReads) (x : FetchStop) : FetchStop := (x.1, before ++ x.2.1, x.2.2)

/-- Read a line once with its checks: cached, or fetched from memory into the cache; `none` where it fails them (R43). Only a read that
is made spends a failing one; a line may fault or be awaited instead (R391). -/
def State.readChecked (s : State) (c : Core) (line : Nat) (counted prev : Bool) : Except FetchStop (Option Line × LineReads × Core) :=
  match s.lineAt c line with
  | .line l =>
    let fetched : LineReads := if (SMap.get none c.icache line).isSome then [] else [(line, l)]
    let (bad, c) := c.spendCorrupt line
    if !bad && l.ok (c.entrySlot line) counted prev then
      .ok (some l, fetched, { c.cacheLine s.phys line l with refetch := c.refetch.filter (· != line) })
    else .ok (none, fetched, c)
  | .fault t => .error (.inl t, [], c)
  | .translate w g => .error (.inr (w, g), [], c)

/-- Read a line with its checks; a line that fails them leaves the cache and is fetched once more from memory, at once or when what it
waits for is there (`refetch`), and fails for good with LINE_FORMAT (R43). -/
def State.verifyLine (s : State) (c : Core) (line : Nat) (counted prev : Bool) : Except FetchStop (Line × LineReads × Core) := do
  let broken (rs : LineReads) (c : Core) : Except FetchStop (Line × LineReads × Core) :=
    .error (.inl (Trap.at_ .lineFormat line), rs, c)
  match ← s.readChecked c line counted prev with
  | (some l, rs, c) => .ok (l, rs, c)
  | (none, rs, c) =>
    if c.refetch.contains line then broken rs c
    else
      let c := { c with icache := SMap.erase c.icache line, refetch := line :: c.refetch }
      match ← (s.readChecked c line counted prev).mapError (FetchStop.after rs) with
      | (some l, rs2, c) => .ok (l, rs ++ rs2, c)
      | (none, rs2, c) => broken (rs ++ rs2) c

/-- A fetched bundle: the addresses and words, what its line says of the segment (R45), and its lines as they were read from memory. -/
structure Bundle where
  words : List (Nat × Word)
  sege : Bool
  sstart : Bool
  reads : LineReads
  deriving DecidableEq, Repr

/-- The words of a bundle that lie in one line, from a word on: at most `fuel`; whether the run goes on. -/
def Line.run (l : Line) : Nat → Nat → List (Nat × Word) × Bool
  | 0, _ => ([], true)
  | fuel + 1, a =>
    let w := l.words.getD (slotOf a) 0
    if !w.msb then ([(a, w)], false)
    else if slotOf a == 15 then ([(a, w)], true)
    else
      let (r, more) := l.run fuel (a + 4)
      ((a, w) :: r, more)

/-- Fetch the bundle at the program counter (R41-R45): one or two lines; at most twelve words are read. SEGE and SSTART take
effect wherever the program counter stands at the line's first start. Two of the ways there are not in R45's list, which does
not say what holds for them, and taking effect there is the model's choice (log 76): the bundle to which a `loop` word with a
zero count passes, and a first start reached in sequence after a branch to an earlier word of its line. -/
def State.fetchBundle (s : State) (c : Core) : Except FetchStop (Bundle × Core) := do
  let a := c.a.pc
  let line := lineOf a
  let (l, rs, c) ← s.verifyLine c line (c.a.entry = .sequential && slotOf a == 1) false
  let d := l.words.headD 0
  let marked := descSege d || descSstart d
  let here ← if marked then (s.isFirstStart c l).mapError fun x => (.inr x, rs, c) else .ok false
  let (ws, more) := l.run 12 a
  let b : Bundle := { words := ws, sege := here && descSege d, sstart := here && descSstart d, reads := rs }
  if more && ws.length < 12 then
    let a2 := nextWord (line + 60)
    let (l2, rs2, c) ← (s.verifyLine c (lineOf a2) true true).mapError (FetchStop.after rs)
    .ok ({ b with words := ws ++ (l2.run (12 - ws.length) a2).1, reads := rs ++ rs2 }, c)
  else .ok (b, c)

/-- The bytes of a line. -/
def Line.bytes (l : Line) : List Byte := l.words.flatMap fun w => toBytes 4 w.toNat

/-- A core's fetch unit as it stands after some reads: lines read from the HBM beside the other die crossed the link (R318). -/
def State.takeReads (s : State) (n : Nat) (rs : LineReads) (d : Core) : State :=
  rs.foldl (fun s r =>
    let w := d.window (winOf r.1)
    if w.kind == 1 then s.crossRange (dieOf n) (w.base + offOf r.1) r.2.bytes true else s) (s.setCore n d)

end Sys2Proof.Machine
end

