-- ==== Sys2Proof/Machine/Control.lean ====
section
/-! DEFINITION. Control: branches, loops, idling, rendezvous, supersteps and halt (R139-R164). The redirection a word orders and
the LT of the next bundle stand in the issue context; the step applies them when the whole bundle has issued. -/
namespace Sys2Proof.Machine

/-- A delay bundle of a taken transfer must not hold a transfer or loop word (R140). -/
def Core.notDelay (c : Core) : Except Trap Unit := c.need c.a.taken.isNone .illegalBundle

/-- pc + 4 × sext(off) of a B-format word (R47). A target below address 0 or beyond 48 bits wraps modulo 2^48, as the address of
the word after a word does: neither R47 nor R160 says, and it is the model's choice (log 75). -/
def Core.target (c : Core) (o : BitVec 15) : Nat := wrapInt ((c.cx.word : Int) + 4 * c.immS 15 o.toNat) 48

/-- A target must not be a line descriptor, nor be misaligned (R47). -/
def targetOk (t : Nat) : Except Trap Unit :=
  if t % 64 == 0 || t % 4 != 0 then .error (Trap.at_ .illegalTarget t) else .ok ()

/-- Order a taken transfer (R139). -/
def Core.take (c : Core) (t : Nat) (pops : Bool) : Core := { c with cx := { c.cx with jump := some (t, true, pops) } }

/-- R160 -/
def execBr (ch : Bool) (o : BitVec 15) (s : State) : Res :=
  issue (.br ch o) (fun _ c => do
    let _ ← c.notDelay
    let _ ← targetOk (c.target o)
    .ok (c.take (c.target o) true)) s

/-- A conditional branch: taken when the condition value passes the test (R160). -/
def Core.branchIf (c : Core) (k : Src) (o : BitVec 15) (test : W64 → Bool) : Except Trap Core := do
  let _ ← c.notDelay
  let t := c.target o
  let _ ← targetOk t
  let (v, c) ← c.readS k
  .ok (if test v then c.take t true else c)

/-- R160 -/
def execBrz (ch : Bool) (k : Src) (o : BitVec 15) (s : State) : Res :=
  issue (.brz ch k o) (fun _ c => c.branchIf k o fun v => v == 0) s

/-- R160 -/
def execBrnz (ch : Bool) (k : Src) (o : BitVec 15) (s : State) : Res :=
  issue (.brnz ch k o) (fun _ c => c.branchIf k o fun v => v != 0) s

/-- The bundle waits for the translation of a line ahead (log 74). -/
def Core.holdFor (c : Core) (x : Nat × Nat) : Core := { c with cx := { c.cx with held := true, ahead := some x } }

/-- R160: the return address, the bundle after the second delay bundle, goes to `lk` and `l.s`. The bundle is held while the
translation of a line that decides that address is awaited (log 74). That a suffix on it arrives at issue LT, as on every word of
its chapter (R159), and not at issue LT + L as on a target with a result (R57), is the model's reading of the two (log 131). -/
def execCall (ch : Bool) (o : BitVec 15) (s : State) : Res :=
  issue (.call ch o) (fun _ c => do
    let _ ← c.notDelay
    let _ ← targetOk (c.target o)
    let t := c.target o
    .ok (match c.cx.after2 with
      | .inl r => (c.deliverS .lk (BitVec.ofNat 64 r) 1).retireAt c.now |>.take t false
      | .inr x => c.holdFor x)) s

/-- R160: the target comes from a port. -/
def execRet (ch : Bool) (a : Src) (s : State) : Res :=
  issue (.ret ch a) (fun _ c => do
    let _ ← c.notDelay
    let (t, c) ← c.readS a
    let _ ← targetOk t.toNat
    let _ ← c.need (t.toNat < 2 ^ 48) .range
    .ok (c.take t.toNat false)) s

/-- The nesting checks of R144. -/
def Core.nestOk (c : Core) (end_ : Nat) : Bool :=
  c.a.loops.length < 4 && c.cx.word < end_ &&
  match c.a.loops with
  | [] => true
  | e :: _ => end_ ≤ e.last

/-- R161 with R143-R146: read the control word, check, and push an entry, or pass over the body when the count is zero. The bundle
is held while the translation of a line that decides where the body ends is awaited (log 74). -/
def Core.loopWord (c : Core) (s : State) (k : Src) (o : BitVec 15) (withFmt : Bool) : Except Trap Core := do
  let _ ← c.notDelay
  let end_ := c.target o
  let _ ← targetOk end_
  let (w, c) ← c.readS k
  let _ ← c.need (within w (if withFmt then ones 35 0 else ones 31 0)) .range
  let _ ← c.need (c.nestOk end_) .range
  let n := fld w 31 0
  let base := BitVec.ofNat 4 (fld w 35 32)
  if n == 0 then
    .ok (match s.afterBundle c 12 end_ with
      | .ok t => { c with cx := { c.cx with jump := some (t, false, false) } }
      | .error x => c.holdFor x)
  else
    let e : LoopEntry := { start := c.cx.after, last := end_, count := n,
                           fmt := if withFmt then some (base, 0, c.a.sys.fmtsel) else none, fresh := false }
    let c := { c with a := { c.a with loops := e :: c.a.loops } }
    .ok (if withFmt then c.later .s (c.now + 1) none (.loopFmtsel base) else c)

/-- R161 -/
def execLoop (ch : Bool) (k : Src) (o : BitVec 15) (s : State) : Res :=
  issue (.loop ch k o) (fun s c => c.loopWord s k o false) s

/-- R161 -/
def execLoopf (ch : Bool) (k : Src) (o : BitVec 15) (s : State) : Res :=
  issue (.loopf ch k o) (fun s c => c.loopWord s k o true) s

/-- The next bundle issues at an LT (R147); beyond the largest LT the word raises DEADLINE (R15). -/
def Core.idleTo (c : Core) (lt : Nat) : Except Trap Core :=
  if lt ≤ maxLt then .ok { c with cx := { c.cx with next := lt } } else .error (c.wordTrap .deadline)

/-- R162: n idle cycles. -/
def execNop (ch : Bool) (n : BitVec 16) (s : State) : Res :=
  issue (.nop ch n) (fun _ c => c.idleTo (c.now + 1 + c.immU 16 n.toNat)) s

/-- R162: the next bundle issues at LT T. -/
def execWaitlt (ch : Bool) (a : Src) (s : State) : Res :=
  issue (.waitlt ch a) (fun _ c => do
    let (t, c) ← c.readS a
    let _ ← c.need (t.toNat < 2 ^ 48) .range
    let _ ← c.need (c.now + 1 ≤ t.toNat) .deadline
    c.idleTo t.toNat) s

/-- The slot among GSLOT0-GSLOT3 that holds a group (R163, R405). -/
def Core.slotOfGroup (c : Core) (g : Nat) : Option Nat :=
  (upto 4).find? fun k => (SMap.get 0 c.gslot k).getLsbD 16 && bitsOf (SMap.get 0 c.gslot k).toNat 0 8 == g

/-- The generation a slot holds (R405). -/
def Core.slotGen (c : Core) (k : Nat) : BitVec 8 := BitVec.ofNat 8 (bitsOf (SMap.get 0 c.gslot k).toNat 8 8)

/-- R153, R163: record the arrival; the core stops before its bundle at the release LT until it is released. -/
def execRdv (ch : Bool) (g : BitVec 8) (s : State) : Res :=
  issue (.rdv ch g) (fun _ c => do
    let l ← c.targetLt (c.now + 1)
    let _ ← c.need (c.now < l) .timestamp
    match c.slotOfGroup g.toNat with
    | none => .error (c.wordTrap .range)
    | some k =>
      let _ ← c.need (SMap.get none c.a.rdv k).isNone .range
      let c := { c with a := { c.a with rdv := SMap.set none c.a.rdv k (some { group := g.toNat, lt := l, word := c.cx.word }) } }
      .ok (c.gate .s l (.rdvGate k))) s

/-- R155, R163: idle until the release LT; the next bundle issues there once the step is released. -/
def execStep (ch : Bool) (b : BitVec 16) (s : State) : Res :=
  issue (.step ch b) (fun _ c => do
    let l ← c.targetLt (c.now + 1)
    let _ ← c.need (c.now < l) .timestamp
    let c ← c.idleTo l
    .ok ({ c with a := { c.a with step := some l } }.gate .s l (.stepGate b))) s

/-- R164: the core issues no further bundle; the exit checks and the report follow. -/
def execHalt (ch : Bool) (n : BitVec 16) (s : State) : Res :=
  issue (.halt ch n) (fun _ c => .ok { c with run := .halting n, haltLt := c.now }) s

end Sys2Proof.Machine
end

