-- ==== Sys2Proof/Machine/Access.lean ====
section
/-! DEFINITION. Checks that a word's scratchpad accesses pass before it issues: addresses (R127, R247), buffer states (R243),
read-modify-write slots (R244), and pending writes (R239). -/
namespace Sys2Proof.Machine

/-! ## Scratchpad addresses (R14, R127, R247) -/

/-- A scratchpad address taken from a scalar: bits [63:23] zero, aligned, and the access within the scratchpad. -/
def Core.spadAddr (c : Core) (v : W64) (align len : Nat) : Except Trap Nat :=
  if v.toNat % align == 0 && v.toNat + len ≤ spadSize then .ok v.toNat else .error (c.wordTrap .range)

/-- An address lane (R247): OFF, OP and ADDR. -/
def laneOff (l : Nat) : Bool := bit l 31
def laneOp (l : Nat) : Nat := bitsOf l 24 3
def laneAddr (l : Nat) : Nat := bitsOf l 0 23
/-- Whether a lane that is not OFF passes its checks for an access of `len` bytes aligned to `align`. -/
def laneOk (l align len : Nat) : Bool :=
  bitsOf l 27 4 == 0 && !bit l 23 && laneAddr l % align == 0 && laneAddr l + len ≤ spadSize

/-! ## Buffers (R242, R243) -/

def Buf.none_ : Buf := { base := 0, size := 0, state := 0 }

/-- Buffer n (R242). -/
def Arch.buf (a : Arch) (n : Nat) : Buf := SMap.get .none_ a.bufs n

/-- Whether a state lets an access through: writes while FILLING, reads while FULL or DRAINING (R243). -/
def Buf.allows (b : Buf) (write : Bool) : Bool := if write then b.state == 1 else b.state == 2 || b.state == 3

/-- The lowest byte of a range that a declared buffer refuses (R243). -/
def Arch.refusedByte (a : Arch) (write : Bool) (lo len : Nat) : Option Nat :=
  (a.bufs.filterMap fun (_, b) =>
    let hi := b.base + 64 * b.size
    if b.size != 0 && !b.allows write && lo < hi && b.base < lo + len && len != 0 then some (Nat.max lo b.base) else none).min?

/-- BUFFER_STATE unless every range passes, each a read or a write; FAULTADDR holds the lowest refused byte (R243). -/
def Core.bufferChecks (c : Core) (ranges : List (Bool × Nat × Nat)) : Except Trap Unit :=
  match (ranges.filterMap fun (write, lo, len) => c.a.refusedByte write lo len).min? with
  | some b => .error (Trap.at_ .bufferState b)
  | none => .ok ()

/-- BUFFER_STATE unless every range passes, all of them reads or all of them writes (R243). -/
def Core.bufferCheck (c : Core) (write : Bool) (ranges : List (Nat × Nat)) : Except Trap Unit :=
  c.bufferChecks (ranges.map fun r => (write, r))

/-- The word `bstat` returns and `bdecl` and `bset` write into `l.s` (R242). -/
def bufWord (b : Buf) (filled : Nat) : W64 :=
  BitVec.ofNat 64 (b.base + b.state <<< 24 + b.size <<< 28 + (Nat.min filled (2 ^ 18 - 1)) <<< 46)

/-! ## Writes still to perform -/

/-- The writes an item in flight will make: LT, address, bytes (R236); those of an amplitude instruction to its slice among them (R352,
R361). -/
def Item.writes (i : Item) : List (Nat × Nat × Nat) :=
  match i.act with
  | .write a ws => [(i.lt, a, 4 * ws.length)]
  | .readAtom _ wide a _ _ => [(i.lt + 2, a, if wide then 8 else 4)]
  | .readVatom fmt ls _ _ => ls.filterMap fun l => l.map fun e => (i.lt + 2, e.1, widthOf (fVtype fmt.toNat) / 8)
  | .readRow _ _ rb dest => [(i.lt + 1, dest, rb)]
  | .barInit a _ | .barSet a _ _ _ => [(i.lt, a, 16)]
  | .barArrive a _ => [(i.lt, a, 16)]
  | .ampEnd _ base bytes => if bytes == 0 then [] else [(i.lt, base, bytes)]
  | _ => []

/-- Whether two ranges meet. -/
def meets (a n b m : Nat) : Bool := a < b + m && b < a + n

/-- In pending-bit mode, the first word of a range that an item other than word `own` of issue LT `t` will write at LT x or
later (R239). That a word's own writes (atom, vatom) do not make its own reads trap is the model's choice (log 105). -/
def Core.pendingWord (c : Core) (own t x lo len : Nat) : Option Nat :=
  if !c.dbgctl.getLsbD 0 then none
  else (c.a.inflight.filterMap fun i =>
    if i.word == own && i.issue == t then none
    else (i.writes.filterMap fun (lt, a, n) =>
      if x ≤ lt && meets lo len a n then some (Nat.max lo a / 4 * 4) else none).min?).min?

/-! ## The row list -/

/-- R227: a quarter of the row list. -/
def Matrix.loadList (m : Matrix) (quarter : Nat) (v : Val) : Matrix :=
  { m with list := (upto 64).foldl (fun l k => SMap.set 0 l (64 * quarter + k) (v.elem 32 k)) m.list }

/-- The matrix store with the row list as it stands at LT x: what the `mx.arow` words in flight bring by then is in it (R204, R227). -/
def Core.listAt (c : Core) (x : Nat) : Matrix :=
  c.a.inflight.foldl (fun m i => match i.act with
    | .arow q v => if i.lt ≤ x then m.loadList q v else m
    | _ => m) c.mx

/-! ## Read-modify-write slots (R244) -/

/-- The blocks of 64 bytes a range touches, in order: the first byte of the range in each. -/
def blocksOf (lo len : Nat) : List Nat :=
  (rangeFrom (lo / 64) ((lo + len - 1) / 64 + 1 - lo / 64)).map fun b => Nat.max lo (64 * b)

/-- The first word, upwards, of a core write at an LT that falls in a bank under a slot (R244). -/
def Core.slotOfWrite (c : Core) (x lo len : Nat) : Option Nat :=
  (blocksOf lo len).find? fun a => c.a.slots.any fun (bank, first, last, _) => bank == bankOf a && first ≤ x && x ≤ last

/-- ATOMIC_SLOT if a write the word will make falls under a slot, with the first such word (R244): of `vscat` and of a `vatom`'s slots
(`openSlots`) in lane order, of `rgath` in row order, the model's choice (log 116). -/
def Core.slotCheck (c : Core) (writes : List (Nat × Nat × Nat)) : Except Trap Unit :=
  match writes.findSome? fun (x, lo, len) => c.slotOfWrite x lo len with
  | some a => .error (Trap.at_ .atomicSlot (a / 4 * 4))
  | none => .ok ()

/-- Whether a new slot on the bank of an address conflicts with a slot or with a write already issued (R244). -/
def Core.slotTaken (c : Core) (a first last : Nat) : Bool :=
  (c.a.slots.any fun (bank, f, l, _) => bank == bankOf a && f ≤ last && first ≤ l) ||
  (c.a.inflight.any fun i => i.writes.any fun (x, lo, len) =>
    first ≤ x && x ≤ last && (blocksOf lo len).any fun b => bankOf b == bankOf a)

/-- Open the slots of an atomic on the banks of some words, or ATOMIC_SLOT with the first conflicting word (R244). -/
def Core.openSlots (c : Core) (first last : Nat) (as : List Nat) : Except Trap Core :=
  match as.find? fun a => c.slotTaken a first last with
  | some a => .error (Trap.at_ .atomicSlot (a / 4 * 4))
  | none =>
    let banks := as.foldl (fun bs a => if bs.contains (bankOf a) then bs else bs ++ [bankOf a]) ([] : List Nat)
    let live := c.a.slots.filter fun (_, _, l, _) => c.now ≤ l
    .ok { c with a := { c.a with slots := live ++ banks.map fun b => (b, first, last, c.cx.word) } }

/-! ## Guards of a word's accesses, each an LT, an address and a length -/

/-- The completion LT of the amplitude data instruction in whose span an access at LT x to a range falls, where the range reaches
its slice (R361). -/
def Arch.ampSpan (a : Arch) (x lo len : Nat) : Option Nat :=
  match a.ampSlice with
  | none => none
  | some (t, base, n) => if t < x && meets lo len base n then (a.ampBusy.find? fun e => x ≤ e.1).map Prod.fst else none

/-- AMP_MAP if an access performs in the span of an amplitude instruction and reaches its slice (R361). -/
def Core.sliceClear (c : Core) (accs : List (Nat × Nat × Nat)) : Except Trap Unit :=
  c.need (accs.all fun (x, lo, len) => (c.a.ampSpan x lo len).isNone) .ampMap

/-- RANGE if a write reaches a byte of a barrier in the table (R294). -/
def Core.barrierClear (c : Core) (accs : List (Nat × Nat × Nat)) : Except Trap Unit :=
  c.need (accs.all fun (_, lo, len) => c.a.bars.all fun b => !meets lo len b 16) .range

/-- The checks of core reads (R243, R361). -/
def Core.readGuard (c : Core) (accs : List (Nat × Nat × Nat)) : Except Trap Unit := do
  let _ ← c.bufferCheck false (accs.map Prod.snd)
  c.sliceClear accs

/-- The checks of an atomic's accesses but for its slots (R243, R294, R361). -/
def Core.atomicGuard (c : Core) (accs : List (Nat × Nat × Nat)) : Except Trap Unit := do
  let _ ← c.bufferCheck true (accs.map Prod.snd)
  let _ ← c.barrierClear accs
  c.sliceClear accs

/-- The checks of core writes (R243, R244, R294, R361). -/
def Core.writeGuard (c : Core) (accs : List (Nat × Nat × Nat)) : Except Trap Unit := do
  let _ ← c.atomicGuard accs
  c.slotCheck accs

/-- The checks of a word that reads some ranges and writes others (R243, R244, R294, R361). -/
def Core.moveGuard (c : Core) (reads writes : List (Nat × Nat × Nat)) : Except Trap Unit := do
  let _ ← c.bufferChecks ((reads.map fun r => (false, r.2)) ++ writes.map fun w => (true, w.2))
  let _ ← c.barrierClear writes
  let _ ← c.sliceClear (reads ++ writes)
  c.slotCheck writes

end Sys2Proof.Machine
end

