-- ==== Sys2Proof/Machine/Commit.lean ====
section
/-! DEFINITION. The outbound commit buffer (R150) and the list of copies of a core (R256). -/
namespace Sys2Proof.Machine

/-- The size of the commit buffer (R13, R33, R150). -/
def commitSize : Nat := 65536

/-- Bytes the held entries of the current segment take (R150). A copy that has failed its translation while held is no longer held
(R256) and does not count: the model's choice (log 102). -/
def Core.heldBytes (c : Core) : Nat :=
  c.copies.foldl (fun n k => if k.inSeg && !k.released && k.state == .held then n + k.size else n) 0

/-- COMMIT_OVERFLOW unless an entry of `n` bytes fits, rounded up to 64 (R150). -/
def Core.commitRoom (c : Core) (n : Nat) : Except Trap Unit :=
  c.need (c.heldBytes + 64 * ceilDiv n 64 ≤ commitSize) .commitOverflow

/-- A copy or outbound word of the word at hand, not yet given its beats. -/
def Core.newCopy (c : Core) (p : Pipe) (q : Option Nat) (op : CopyOp) : Copy :=
  { id := c.nextId, q := q, op := op, issue := c.now, pipe := p, word := c.cx.word, size := 0, state := .held,
    released := true, beats := [], timed := none, bound := none, detached := false, arv := [], stream := c.cx.row.1, lastuse := c.cx.row.2,
    counted := 0, inSeg := true, flushed := false }

/-- Append a copy in issue order; the word retires when the copy completes (R57). -/
def Core.addCopy (c : Core) (k : Copy) : Core :=
  { c with copies := c.copies ++ [k], nextId := c.nextId + 1, cx := { c.cx with retire := .copy k.id } }

/-- Hold an outbound word of `n` bytes in the commit buffer (R150). -/
def Core.hold (c : Core) (p : Pipe) (op : CopyOp) (n : Nat) : Except Trap Core := do
  let _ ← c.commitRoom n
  .ok (c.addCopy { c.newCopy p none op with size := 64 * ceilDiv n 64, released := false })

def Core.copy? (c : Core) (id : Nat) : Option Copy := c.copies.find? fun k => k.id == id

def Core.setCopy (c : Core) (k : Copy) : Core := { c with copies := c.copies.map fun x => if x.id == k.id then k else x }

/-- Whether a copy is settled: complete, failed or cancelled (R284). -/
def Copy.settled (k : Copy) : Bool :=
  match k.state with
  | .complete | .failed _ _ | .cancelled => true
  | _ => false

end Sys2Proof.Machine
end

