-- ==== Sys2Proof/Machine/Barrier.lean ====
section
/-! DEFINITION. Phase barriers (R292-R299): the object, its updates, the journal of a segment. -/
namespace Sys2Proof.Machine

/-- A barrier object (R292, R293). -/
structure BarObj where
  state : Nat
  phase : Bool
  expect : Nat
  left : Nat
  pend : Nat
  w1 : W64
  deriving DecidableEq, Repr

/-- The object two words hold. -/
def BarObj.ofWords (w0 w1 : W64) : BarObj :=
  { state := fld w0 62 61, phase := fld w0 60 60 == 1, expect := fld w0 59 48, left := fld w0 47 36, pend := fld w0 35 0,
    w1 := w1 }

/-- Word 0 of an object (R292). -/
def BarObj.w0 (b : BarObj) : W64 :=
  BitVec.ofNat 64 (b.pend + b.left <<< 36 + b.expect <<< 48 + (if b.phase then 2 ^ 60 else 0) + b.state <<< 61)

/-- The fault record of R293 from CAUSE, the failing address and the beats delivered. -/
def faultRecord (code : BitVec 8) (addr beats : Nat) : W64 :=
  BitVec.ofNat 64 (beats % 2 ^ 16 + (code.toNat % 64) <<< 16 + bitsOf addr 6 42 <<< 22)

/-- R295: only an ACTIVE barrier becomes FAULTED, with its record. -/
def BarObj.fault (code : BitVec 8) (addr beats : Nat) (b : BarObj) : BarObj :=
  if b.state == 1 then { b with state := 2, w1 := faultRecord code addr beats } else b

/-- R295: a phase completes when nothing is due. -/
def BarObj.check (b : BarObj) : BarObj :=
  if b.state == 1 && b.left == 0 && b.pend == 0 then { b with phase := !b.phase, left := b.expect } else b

/-- R295 -/
def BarObj.arrive (k : Nat) (b : BarObj) : BarObj :=
  (if k > b.left then b.fault TrapCode.range.num 0 0 else { b with left := b.left - k }).check

/-- R295 -/
def BarObj.bindIssue (n : Nat) (b : BarObj) : BarObj :=
  if b.pend + n > 2 ^ 36 - 1 then b.fault TrapCode.range.num 0 0 else { b with pend := b.pend + n }

/-- R295 -/
def BarObj.beatDone (n : Nat) (b : BarObj) : BarObj :=
  (if n > b.pend then { b.fault TrapCode.range.num 0 0 with pend := 0 } else { b with pend := b.pend - n }).check

/-- The object `bar.init` writes (R311). -/
def BarObj.init (count : Nat) : BarObj :=
  { state := if count == 0 then 0 else 1, phase := false, expect := count, left := count, pend := 0, w1 := 0 }

/-- The barrier object at an address. That a word of it which is uncorrectable is read as its bits stand is the model's choice
(R295; log 136). -/
def Core.bar (c : Core) (a : Nat) : BarObj := BarObj.ofWords (c.spad64 a) (c.spad64 (a + 8))

/-- Write a barrier object; its words are clean from then on, whatever they were (log 136). -/
def Core.putBar (c : Core) (a : Nat) (b : BarObj) : Core := c.storeWords a (words64 b.w0 ++ words64 b.w1)

/-- Apply an update to the journalled value of an object (R298). -/
def journalUpdate (j : List (Nat × W64 × W64)) (a : Nat) (f : BarObj → BarObj) : List (Nat × W64 × W64) :=
  j.map fun e => if e.1 == a then let b := f (BarObj.ofWords e.2.1 e.2.2); (a, b.w0, b.w1) else e

/-- An update by the segment itself, of a barrier in the table (R294, R296). -/
def Core.ownUpdate (c : Core) (a : Nat) (f : BarObj → BarObj) : Core :=
  if c.a.bars.contains a then c.putBar a (f (c.bar a)) else c

/-- A foreign update: it also reaches the value a rewind restores, where the table at segment entry names the barrier
(R298). `live` is false for a copy that a `bar.init` of the segment detached. -/
def Core.foreignUpdate (c : Core) (live : Bool) (a : Nat) (f : BarObj → BarObj) : Core :=
  let c := if live then c.ownUpdate a f else c
  if c.ck.bars.contains a then { c with journal := journalUpdate c.journal a f } else c

/-- Journal an object before the segment's own instruction touches it; at most 16 (R298). -/
def Core.journalBar (c : Core) (a : Nat) : Except Trap Core :=
  if c.journal.any fun e => e.1 == a then .ok c
  else if 16 ≤ c.journal.length then .error (c.wordTrap .commitOverflow)
  else .ok { c with journal := c.journal ++ [(a, c.spad64 a, c.spad64 (a + 8))] }

/-- The update an event makes (R295). -/
def BarUpdate.apply : BarUpdate → BarObj → BarObj
  | .arrive k => BarObj.arrive k
  | .beats n => BarObj.beatDone n
  | .fault code addr n => BarObj.fault code addr n

/-- An update that a copy makes to the barrier it is bound to (R286, R297, R299). -/
def Core.boundUpdate (c : Core) (k : Copy) (a : Nat) (f : BarObj → BarObj) : Core :=
  if k.inSeg then if k.detached then c else c.ownUpdate a f
  else c.foreignUpdate (!k.detached) a f

/-- An arrival of a suffix word of a copy (R57, R296, R298). -/
def Core.suffixUpdate (c : Core) (k : Copy) (a : Nat) (f : BarObj → BarObj) : Core :=
  if k.inSeg then c.ownUpdate a f else c.foreignUpdate true a f

/-- Frozen or halted by the debugger: barrier updates are held (R296). A core that STEP has released runs. -/
def RunState.still : RunState → Bool
  | .frozen | .debug false => true
  | _ => false

/-- Whether traffic for a core waits (R296, R396): it is frozen or halted by the debugger, is to halt once its rewind completes, or its
kernel freezes. -/
def Core.still (c : Core) : Bool := c.run.still || c.debugHold || c.freezes

/-- Apply an update that reaches a core, whatever it is doing. -/
def Core.applyUpdate (c : Core) (h : HeldUpdate) : Core :=
  match h.src with
  | .remote => c.foreignUpdate true h.a h.u.apply
  | .suffix id => match c.copies.find? fun k => k.id == id with
    | some k => c.suffixUpdate k h.a h.u.apply
    | none => c
  | .bound id => match c.copies.find? fun k => k.id == id with
    | some k => c.boundUpdate k h.a h.u.apply
    | none => c

/-- An update reaches a core: applied at once, or held while the core is frozen (R296). -/
def Core.receiveUpdate (c : Core) (h : HeldUpdate) : Core :=
  if c.still then { c with held := c.held ++ [h] } else c.applyUpdate h

/-- The held updates take effect at resume, in arrival order (R296). -/
def Core.applyHeld (c : Core) : Core := c.held.foldl Core.applyUpdate { c with held := [] }

/-- An update of a copy's bound barrier. -/
def Core.copyUpdate (c : Core) (k : Copy) (u : BarUpdate) : Core :=
  match k.bound with
  | none => c
  | some a => c.receiveUpdate { src := .bound k.id, a := a, u := u }

/-- `bar.init` detaches the copies bound before it (R299). -/
def Core.detach (c : Core) (a : Nat) : Core :=
  { c with copies := c.copies.map fun k => if k.bound == some a then { k with detached := true } else k }

end Sys2Proof.Machine
end

