-- ==== Sys2Proof/Machine/Copies.lean ====
section
/-! DEFINITION. The copy engine (R256-R272, R284, R301): issuing a copy, what it waits for, translation, failure, delivery and the
counts of its beats. -/
namespace Sys2Proof.Machine

/-- Writes and reads as R301 and R410 divide copies and outbound words. -/
def Copy.isWrite (k : Copy) : Bool :=
  match k.op with
  | .put | .epi _ | .fill _ | .amo _ _ | .clBase .. | .clFire _ | .pkSnd .. | .snd .. | .remoteArv .. | .icinv .. => true
  | _ => false
def Copy.isRead (k : Copy) : Bool :=
  match k.op with
  | .get | .gath | .scrub => true
  | _ => false

/-- KIND of the window of an address (R264). -/
def Core.kindOf (c : Core) (w : Nat) : Nat := (c.window (winOf w)).kind

/-- Whether a copy writes a host window (R300). -/
def Core.toHost (c : Core) (k : Copy) : Bool :=
  k.isWrite && k.beats.any fun b => match b.w with | some w => c.kindOf w == 2 | none => false

/-- Complete at a scope, or failed or cancelled (R300, R301). -/
def Core.settledAt (c : Core) (scope : BitVec 2) (k : Copy) : Bool :=
  k.settled && (scope != 3 || k.flushed || k.state != .complete || !c.toHost k)

/-- Whether a fence instruction holds back copy `k`, which comes after it (R301). -/
def OrderPoint.covers (p : OrderPoint) (k : Copy) : Bool := p.pos ≤ k.id && (k.isWrite || (p.kind != .rel && k.isRead))

/-- Whether a fence instruction holds back copy `k` until copy `h` (R301). -/
def OrderPoint.holds (p : OrderPoint) (k h : Copy) : Bool :=
  h.id < p.pos && p.covers k && (h.isRead || (p.kind != .acq && h.isWrite))

/-- Whether an amplitude instruction reads its slice at LT t + 1 (R361). -/
def AmpEntry.reads (e : AmpEntry) : Bool :=
  match e.op with
  | .init _ => false
  | .map _ | .swap _ _ => !e.trans.isEmpty
  | _ => true

/-- Whether it writes it at its completion (R361). -/
def AmpEntry.writes (e : AmpEntry) : Bool := match e.op with | .init z => z | _ => e.reads

/-- The completion LT of the amplitude instruction in flight whose accesses to an HBM slice a fence instruction of a kind names: they are
complete at every scope at that LT (R301, R362). -/
def Core.ampUntil (c : Core) (kind : FenceKind) : Option Nat :=
  c.a.inflight.findSome? fun i => match i.act with
    | .ampEnd id _ 0 => (c.ampLog.find? fun e => e.id == id && (e.reads || (kind != .acq && e.writes))).map fun _ => i.lt
    | _ => none

/-- Whether the accesses to an HBM slice that an ordering point names are still open (R362). -/
def Core.ampOpen (c : Core) (p : OrderPoint) : Bool :=
  match p.amp with
  | some y => c.a.inflight.any fun i => i.lt ≤ y && match i.act with | .ampEnd _ _ 0 => true | _ => false
  | none => false

/-- Whether a queue is named in a mask. -/
def inMask (m : BitVec 8) (q : Option Nat) : Bool := match q with | some n => m.getLsbD n | none => false

/-- Whether a `cp.fence` holds back copy `k` until copy `h` is settled (R284). -/
def CpFence.holds (f : CpFence) (k h : Copy) : Bool := h.id < f.pos && f.pos ≤ k.id && inMask f.mask k.q && inMask f.mask h.q

/-- Whether a later word starts only after an earlier one has: the copies of one queue (R257), the sends of one channel
(R288). -/
def Copy.startsAfter (k h : Copy) : Bool :=
  (h.q == k.q && h.q.isSome) || match h.op, k.op with
    | .snd d .., .snd e .. => d == e
    | _, _ => false

/-- Whether an earlier copy `h` still keeps copy `k` from starting: by its start, or under a fence by its end (R257, R284, R288, R301). -/
def Core.keepsBack (c : Core) (h k : Copy) : Bool :=
  h.id < k.id && ((k.startsAfter h && h.state == .held) || (!h.settled && c.a.fences.any fun f => f.holds k h) ||
    c.a.points.any fun p => p.holds k h && !c.settledAt p.scope h)

/-- Whether a copy may start now (R257, R284, R288, R301, R362). -/
def Core.canStart (c : Core) (k : Copy) : Bool :=
  k.state == .held && k.released && (!c.copies.any fun h => c.keepsBack h k) && !c.a.points.any fun p => p.covers k && c.ampOpen p

/-- A copy the current segment still holds (R284). -/
def Copy.ownHeld (k : Copy) : Bool := k.inSeg && !k.released && k.state == .held

/-- Whether the start of copy `k` waits for copy `h`: for its start, or under a fence for its end (R257, R284, R288, R301). -/
def Core.waitsFor (c : Core) (k h : Copy) : Bool :=
  h.id < k.id && (k.startsAfter h || (c.a.fences.any fun f => f.holds k h) || c.a.points.any fun p => p.holds k h)

/-- The copies that can start only after the segment exits, in issue order: those it holds, and those that wait for one such
(R302). -/
def Core.stuckIds (c : Core) : List Nat :=
  c.copies.foldl (fun ids k =>
    if k.ownHeld || (k.state == .held && c.copies.any fun h => ids.contains h.id && c.waitsFor k h) then ids ++ [k.id] else ids) []

/-- Whether a queue holds a copy that completes only after exit (R284, R302). -/
def Core.stuckIn (c : Core) (m : BitVec 8) : Bool := c.copies.any fun k => inMask m k.q && c.stuckIds.contains k.id

/-- Whether a `cp.fence` still waits for a copy (R284). -/
def Core.fenceOpen (c : Core) (f : CpFence) : Bool := c.copies.any fun h => h.id < f.pos && inMask f.mask h.q && !h.settled

/-! ## Issue -/

/-- The checks of R127 and R265 on a window access of `len` bytes. -/
def Core.windowCheck (c : Core) (v : W64) (len : Nat) (perm : Window → Bool) : Except Trap Nat := do
  let a := v.toNat
  let _ ← c.need (a < 2 ^ 48) .range
  let w := c.window (winOf a)
  let off := offOf a
  if off % 64 != 0 then .error (Trap.at_ .range a)
  else if w.bound < off + len then .error (Trap.at_ .range (Nat.max a (winOf a <<< 42 + w.bound)))
  else if w.kind == 0 || !perm w then .error (Trap.at_ .windowPerm a)
  else .ok a

/-- Physical address of a beat of an HBM or peer window; a host window's comes from ATS (R266-R268). -/
def Core.beatPa (c : Core) (w : Nat) : Option Nat :=
  let e := c.window (winOf w)
  if e.kind == 2 then none else some (e.base + offOf w)

/-- Beat of a window address and a scratchpad address. -/
def Core.newBeat (c : Core) (w sp : Nat) (data : Option BeatData) : Beat :=
  { w := some w, sp := sp, data := data, pa := c.beatPa w, state := .waiting }

/-- `n` consecutive beats. -/
def Core.newBeats (c : Core) (w sp n : Nat) : List Beat := (upto n).map fun j => c.newBeat (w + 64 * j) (sp + 64 * j) none

/-- The channel reservations of an HBM get, gather or scrub, in address order (R272). -/
def Arch.reserveBeats (a : Arch) (kindOf : Nat → Nat) (t : Nat) : List Beat → Arch
  | [] => a
  | b :: bs =>
    match b.w, b.pa with
    | some w, some pa =>
      if kindOf w == 1 then
        let ch := channelOf pa
        let s := Nat.max t (SMap.get 0 a.chan ch)
        ({ a with chan := SMap.set 0 a.chan ch (s + 333) }).reserveBeats kindOf t bs
      else a.reserveBeats kindOf t bs
    | _, _ => a.reserveBeats kindOf t bs

/-- Bytes a beat of a copy counts at a bound barrier (R286, R343). -/
def Copy.beatSize (k : Copy) : Nat := match k.op with | .pkSnd _ _ false _ => 8 | _ => 64

/-- Bytes a copy counts at a bound barrier (R283, R286, R343). -/
def Copy.bytes (k : Copy) : Nat := if k.op == .scrub then 128 else k.beatSize * k.beats.length

/-- The physical address of a translated granule (R267). -/
def Translation.addr (t : Translation) (base off : Nat) : Nat := t.pa * 2 ^ 19 + (base + off) % 2 ^ 64 % 2 ^ 19

/-- R256, R297: end a copy with a deferred fault; a bound barrier takes the record of R293. -/
def Core.failCopy (c : Core) (k : Copy) (code : TrapCode) (addr : Nat) : Core :=
  if k.settled then c
  else
    let c := c.setCopy { k with state := .failed code (BitVec.ofNat 64 addr) }
    let done_ := (k.beats.filter fun b => b.state == .finished).length
    c.copyUpdate k (.fault code.num addr done_)

/-- The first beat of a copy that has failed: the fault it reports, in the order of its beats and not of physical time (R270). -/
def Copy.firstRefusal (k : Copy) : Option (TrapCode × Nat) :=
  k.beats.findSome? fun b => match b.state with | .refused code => some (code, b.w.getD 0) | _ => none

/-- Some beats of a copy fail: it fails with the first failing address (R267, R268, R270, R271). A copy that has failed already
takes the address of an earlier beat; its barrier keeps the record of the first failure (R293). -/
def Core.refuseBeats (c : Core) (k : Copy) (which : Beat → Bool) (code : TrapCode) : Core :=
  if !k.beats.any which then c
  else
    let k := { k with beats := k.beats.map fun b => if which b then { b with state := .refused code } else b }
    match k.state, k.firstRefusal with
    | .failed _ _, some (code, a) => c.setCopy { k with state := .failed code (BitVec.ofNat 64 a) }
    | _, some (code, a) => (c.setCopy k).failCopy k code a
    | _, none => c

/-- Whether a copy still translates: a copy that has failed at one address goes on with the others (R270). -/
def Copy.translates (k : Copy) : Bool :=
  match k.state with
  | .complete | .cancelled => false
  | _ => true

/-- Whether a beat waits for a translation. -/
def Beat.untranslated (b : Beat) : Bool :=
  b.w.isSome && b.pa.isNone && match b.state with | .refused _ => false | _ => true

/-- Whether a copy has a window address that is neither translated nor failed (R270). -/
def Copy.untranslated (k : Copy) : Bool := k.translates && k.beats.any Beat.untranslated

/-- Whether `cp.wait` is done with a copy: settled, and a failed one translated, so that its first failing address is known
(R270, R284). -/
def Copy.waited (k : Copy) : Bool := k.settled && !k.untranslated

/-- Whether a beat waits for a granule's translation. -/
def Core.awaits (c : Core) (b : Beat) (w g : Nat) : Bool :=
  b.untranslated && match b.w with
    | some a => winOf a == w && c.kindOf a == 2 && (c.window w).granule (offOf a) == g
    | none => false

/-- The effect of a translation on one copy: its beats get their addresses, or fail with WINDOW_PERM where the access is
refused (R267). -/
def Core.translateCopy (c : Core) (t : Translation) (k : Copy) : Core :=
  if !k.translates || !k.beats.any fun b => c.awaits b t.w t.granule then c
  else if (if k.isWrite then t.write else t.read) then
    let base := (c.window t.w).base
    let give (b : Beat) : Beat :=
      if c.awaits b t.w t.granule then { b with pa := b.w.map fun a => t.addr base (offOf a) } else b
    c.setCopy { k with beats := k.beats.map give }
  else c.refuseBeats k (fun b => c.awaits b t.w t.granule) .windowPerm

/-- Apply a translation to every copy in issue order. -/
def Core.applyTranslation (c : Core) (t : Translation) : Core := c.copies.foldl (fun c k => c.translateCopy t k) c

/-- The barrier a copy issued in queue q is bound to (R286). A copy of a queue bound to an address that is not in the barrier table is
counted at none: the model's choice (log 108). -/
def Core.boundTo (c : Core) (q : Nat) : Option Nat :=
  match SMap.get none c.a.binds q with
  | some a => if c.a.bars.contains a then some a else none
  | none => none

/-- Whether the translation of a beat in a critical HBM or peer window disagrees twice (R271). -/
def Core.disagrees (c : Core) (b : Beat) : Bool :=
  match b.w with
  | some a => (c.window (winOf a)).crit && c.kindOf a != 2 && c.disagree.contains a
  | none => false

/-- The translations that the issuing core makes itself, those of HBM and peer windows, are made twice where the window is
critical (R271); a disagreement is spent with the translation. -/
def Core.ownTranslations (c : Core) (k : Copy) : Core :=
  let d := c.refuseBeats k c.disagrees .uncorrectable
  { d with disagree := d.disagree.filter fun a => !k.beats.any fun b => c.disagrees b && b.w == some a }

/-- Issue a copy in queue q: its entry in the commit buffer if it is held, its binding, its own translations and those already
cached (R256, R257, R267, R271, R286). -/
def Core.issueCopy (c : Core) (p : Pipe) (q : Nat) (op : CopyOp) (held : Option Nat) (beats : List Beat) (timed : Option Nat) :
    Except Trap Core := do
  let size := match held with | some n => 64 * ceilDiv n 64 | none => 0
  let _ ← c.commitRoom size
  let bound := c.boundTo q
  let c ← match bound with | some a => c.journalBar a | none => .ok c
  let k : Copy := { c.newCopy p (some q) op with
    size := size, released := held.isNone, beats := beats, timed := timed, bound := bound }
  let c := c.addCopy k
  let c := match bound with | some a => c.boundUpdate k a (BarObj.bindIssue k.bytes) | none => c
  let c := c.ownTranslations k
  .ok (c.tlb.foldl (fun c t => c.applyTranslation t) c)

/-- Put the reads of a held copy's operand beats in flight, four beats to an LT (R278). -/
def Core.operandReads (c : Core) (p : Pipe) (id n : Nat) : Core :=
  (upto (ceilDiv n 4)).foldl
    (fun c g => c.later p (c.now + 1 + g) none (.readCopy id (4 * g) (Nat.min 4 (n - 4 * g)))) c

/-- Each beat of a timed copy lands at its LT (R260). -/
def Core.timedBeats (c : Core) (p : Pipe) (id n lt : Nat) : Core := (upto n).foldl (fun c j => c.gate p lt (.timedBeat id j)) c

/-! ## Delivery -/

/-- The arrivals of a copy's suffix words once it is complete (R57, R296). -/
def Core.suffixArrivals (c : Core) (k : Copy) : Core :=
  k.arv.foldl (fun c a => c.receiveUpdate { src := .suffix k.id, a := a, u := .arrive 1 }) c

/-- Mark a copy complete (R256); its suffix arrives (R57). -/
def Core.completeCopy (c : Core) (k : Copy) : Core := (c.setCopy { k with state := .complete }).suffixArrivals k

/-- Replace beat j of a copy. -/
def Copy.setBeat (k : Copy) (j : Nat) (b : Beat) : Copy := { k with beats := k.beats.set j b }

/-- Beat j is delivered or acknowledged: counts, the bound barrier, and completion (R256, R258, R286). -/
def Core.finishBeat (c : Core) (id j : Nat) : Core :=
  match c.copy? id with
  | none => c
  | some k =>
    match k.beats[j]? with
    | none => c
    | some b =>
      if b.state == .finished || k.settled then c
      else
        let k := k.setBeat j { b with state := .finished }
        let c := c.setCopy k
        let c := if k.op == .scrub && b.w.isSome then c else c.copyUpdate k (.beats k.beatSize)
        let c := if k.beats.all fun b => b.state == .finished then c.completeCopy k else c
        c.recount k.q

/-- The declared buffer an address lies in. -/
def Arch.bufOf (a : Arch) (x : Nat) : Option Nat :=
  (a.bufs.find? fun (_, b) => b.base ≤ x && x < b.base + 64 * b.size).map Prod.fst

/-- A landing in the range of a declared buffer counts in its FILLED (R242). -/
def Core.countLanding (c : Core) (sp : Nat) : Core :=
  match c.a.bufOf sp with
  | some n => { c with filled := SMap.set 0 c.filled n (SMap.get 0 c.filled n + 1) }
  | none => c

/-- A beat lands in scratchpad: sixteen words, and the buffer's FILLED count (R240, R242, R262). -/
def Core.landBeat (c : Core) (sp : Nat) (d : BeatData) : Core := (c.storeWords sp d.words).countLanding sp

/-- The LT to which a landing at LT x is deferred: past a slot on its bank (R244, R260) or the span of an amplitude
instruction whose slice it reaches (R361); x itself when nothing defers it. -/
def Core.landingLt (c : Core) (x sp : Nat) : Nat :=
  let slots := c.a.slots.filterMap fun (bank, f, l, _) => if bank == bankOf sp && f ≤ x && x ≤ l then some (l + 1) else none
  let amps := match c.a.ampSpan x sp 64 with | some l => [l + 1] | none => []
  (slots ++ amps).foldl Nat.max x

/-- Whether a beat of a landing waits for its LT. -/
def Core.beatDue (c : Core) (id j : Nat) : Bool :=
  c.a.inflight.any fun i => match i.act with | .timedBeat a b => a == id && b == j | _ => false

/-- Forget settled copies that nothing can refer to any longer: counted in QWP and complete at `.sys`, or cancelled, and with
no update held. -/
def Core.pruneCopies (c : Core) : Core :=
  { c with copies := c.copies.filter fun k =>
      (c.held.any fun h => h.ofCopy k.id) ||
      match k.state with
      | .cancelled => false
      | .complete => k.counted < (if k.q.isSome then k.countedBeats.length else 0) || (c.toHost k && !k.flushed)
      | _ => true }

end Sys2Proof.Machine
end

