-- ==== Sys2Proof/Machine/Sync.lean ====
section
/-! DEFINITION. Synchronisation instructions (R288-R317). -/
namespace Sys2Proof.Machine

/-- The number of logical cores of the core's kernel. -/
def State.coreCount (s : State) (c : Core) : Nat := match s.kernelOf c with | some k => k.n | none => 0

/-- The die the image names for a logical core of the core's kernel (R23). -/
def State.dieOfLogical (s : State) (c : Core) (l : Nat) : Nat :=
  match s.kernelOf c with | some k => k.dies.getD l 0 | none => 0

/-- R311: the object and the table change one LT later. That the table does so too, so that a `sfx.arv` of its own bundle does not yet
find the barrier, is the model's choice (log 135). -/
def execBarInit (ch : Bool) (d : Port) (a b : Src) (s : State) : Res :=
  issue (.barInit ch d a b) (fun _ c => do
    let (x, c) ← c.readS a
    let (n, c) ← c.readS b
    let x ← c.spadAddr x 16 16
    let _ ← c.need (n.toNat ≤ 4095) .range
    let _ ← c.need (n == 0 || c.a.bars.contains x || c.a.bars.length < 32) .range
    let acc := [(c.now + 1, x, 16)]
    let _ ← c.bufferCheck true [(x, 16)]
    let _ ← c.sliceClear acc
    let _ ← c.slotCheck acc
    let c ← c.journalBar x
    .ok ((c.later .s (c.now + 1) none (.barInit x n.toNat)).deliverS d (BarObj.init n.toNat).w0 1)) s

/-- R312: a local arrival one LT later, or a remote one held in the commit buffer. LCORE is ignored with REMOTE = 0: the model's
choice (log 110), as is that a local arrival on a barrier in a declared buffer is not checked for BUFFER_STATE (R243; log 134). -/
def execBarArv (ch : Bool) (a b : Src) (s : State) : Res :=
  issue (.barArv ch a b) (fun s c => do
    let (r, c) ← c.readS a
    let (n, c) ← c.readS b
    let x := 16 * fld r 22 4
    let _ ← c.need (within r (ones 41 32 + ones 22 4) && 1 ≤ n.toNat && n.toNat ≤ 4095) .range
    if fld r 41 41 == 1 then
      let _ ← c.need (fld r 40 32 < s.coreCount c) .range
      let c ← c.hold .s (.remoteArv (fld r 40 32) x n.toNat) 64
      .ok (c.retireAt c.now)
    else
      let _ ← c.need (c.a.bars.contains x) .range
      let _ ← c.sliceClear [(c.now + 1, x, 16)]
      let _ ← c.slotCheck [(c.now + 1, x, 16)]
      let c ← c.journalBar x
      .ok (c.later .s (c.now + 1) none (.barArrive x n.toNat))) s

/-- R313: stop before the bundle until the phase has passed; BARRIER_FAULT for a faulted barrier (R297). -/
def execBarWait (ch : Bool) (a b : Src) (s : State) : Res :=
  issue (.barWait ch a b) (fun _ c => do
    let (x, c) ← c.readS a
    let (ph, c) ← c.readS b
    let x ← c.spadAddr x 16 16
    let _ ← c.need (within ph 1 && c.a.bars.contains x) .range
    let o := c.bar x
    if o.phase != (ph == 1) then .ok c
    else if o.state == 2 then
      .error { Trap.at_ .barrierFault (fld o.w1 63 22 <<< 6) with cause := BitVec.ofNat 8 (fld o.w1 21 16) }
    else .ok { c with cx := { c.cx with held := true } }) s

/-- R314: the arrival is held in the commit buffer; its landing LT is fixed at issue (R288, R289). -/
def execSnd (ch : Bool) (a b : Src) (s : State) : Res :=
  issue (.snd ch a b) (fun s c => do
    let ((wide, v), c) ← c.readAny a
    let (dest, c) ← c.readS b
    let _ ← c.noPoison v.anyKind
    let r := dest.toNat
    let _ ← c.need (r < s.coreCount c) .range
    let t ← c.targetLt (c.now + if s.dieOfLogical c r == s.dieOfLogical c c.lcore then 32 else 72)
    let _ ← c.need (SMap.get 0 c.a.sendLt r ≤ t) .timestamp
    let c := { c with a := { c.a with sendLt := SMap.set 0 c.a.sendLt r (t + 1) } }
    c.hold c.cPipe (.snd r t wide v) (if wide then 256 else 64)) s

/-! ## Receiving (R290) -/

/-- Whether a landing entry is an arrival from a logical core. -/
def Landing.isFrom (e : Landing) (chan : Nat) : Bool :=
  match e.kind with
  | .send n _ _ => n == chan
  | .beat _ _ _ => false

/-- Whether an arrival's width suits a destination (R290). -/
def widthOk (d : Port) (wide : Bool) : Bool :=
  match d with
  | .zero => true
  | .v _ | .o _ => wide
  | _ => !wide

/-- Take the oldest arrival of a channel, expected at LT e, for a receive word at an address (R290); `none` while none is
there. -/
def Core.takeArrival (c : Core) (chan e : Nat) (d : Port) (word : Nat) : Except Trap (Option (Val × Core)) :=
  match c.landing.find? fun l => l.isFrom chan with
  | none => .ok none
  | some l =>
    match l.kind with
    | .beat _ _ _ => .ok none
    | .send _ wide v =>
      if l.land != e then .error (Trap.at_ .timestamp word)
      else if !widthOk d wide then .error (Trap.at_ .range word)
      else .ok (some (v, { c with landing := c.landing.erase l, takenIn := c.takenIn ++ [l] }))

/-- R315: with `pfx.ts` the arrival is taken at the named LT, without it at issue, where the core stops until it is there. -/
def execRcv (ch : Bool) (d : Port) (a : Src) (s : State) : Res :=
  issue (.rcv ch d a) (fun s c => do
    let (k, c) ← c.readS a
    let _ ← c.need (k.toNat < s.coreCount c) .range
    let e ← c.targetLt c.now
    let p := c.cPipe
    if c.now < e then
      .ok ((c.later p e (if Port.reserves d then some d else none) (.receive k.toNat d)).retireAt (e + 1))
    else
      match ← c.takeArrival k.toNat e d c.cx.word with
      | none => .ok { c with cx := { c.cx with held := true } }
      | some (v, c) => .ok (c.deliver p (some p.latch) d v 1)) s

/-! ## Ordering points and LT -/

/-- Place an ordering point (R301, R316, R362). -/
def Core.orderPoint (c : Core) (kind : FenceKind) (g : BitVec 8) (sc : BitVec 2) : Except Trap Core := do
  let _ ← c.need (sc != 1 || (c.slotOfGroup g.toNat).isSome) .range
  .ok { c with a := { c.a with points := c.a.points ++ [{ kind := kind, scope := sc, pos := c.nextId, amp := c.ampUntil kind }] } }

/-- R316 -/
def execFence (ch : Bool) (g : BitVec 8) (sc : BitVec 2) (s : State) : Res :=
  issue (.fence ch g sc) (fun _ c => c.orderPoint .fence g sc) s

/-- R316 -/
def execAcq (ch : Bool) (g : BitVec 8) (sc : BitVec 2) (s : State) : Res :=
  issue (.acq ch g sc) (fun _ c => c.orderPoint .acq g sc) s

/-- R316 -/
def execRel (ch : Bool) (g : BitVec 8) (sc : BitVec 2) (s : State) : Res :=
  issue (.rel ch g sc) (fun _ c => c.orderPoint .rel g sc) s

/-- R317 -/
def execLtrd (ch : Bool) (d : Port) (sel : BitVec 2) (s : State) : Res :=
  issue (.ltrd ch d sel) (fun _ c =>
    let t := match sel.toNat with | 0 => c.now | 1 => c.a.segLt | _ => c.a.superLt
    .ok (c.deliverS d (BitVec.ofNat 64 t) 1)) s

end Sys2Proof.Machine
end

