-- ==== Sys2Proof/Machine/Fabric.lean ====
section
/-! DEFINITION. Fabric instructions (R343-R347), groups and ranks (R325), and the plans they name. -/
namespace Sys2Proof.Machine

def State.group (s : State) (g : Nat) : Group := SMap.get .reset s.groups g

def State.plan (s : State) (h : Nat) : Option Plan := SMap.get none s.plans h

/-- The logical cores of a group on this package, ascending (R26, R325). -/
def Group.locals (g : Group) : List Nat := (upto 192).filter fun k => g.members.getLsbD k

/-- Member counts of the listed packages in order; a group without an extension has its local members (R325). -/
def State.groupLists (s : State) (g : Group) : List (Nat × Nat) :=
  if g.ext.isEmpty then [(s.pkgnum.toNat, g.locals.length)] else g.ext

/-- The member count of a group (R325). -/
def State.groupSize (s : State) (g : Group) : Nat := (s.groupLists g).foldl (fun n e => n + e.2) 0

/-- The package of a rank and its place among the package's members (R325). -/
def findRank : Nat → List (Nat × Nat) → Option (Nat × Nat)
  | _, [] => none
  | r, (p, n) :: rest => if r < n then some (p, r) else findRank (r - n) rest

/-- The rank of a local member given by its logical core number (R325). -/
def State.rankOf (s : State) (g : Group) (l : Nat) : Option Nat :=
  let before := ((s.groupLists g).takeWhile fun e => e.1 != s.pkgnum.toNat).foldl (fun n e => n + e.2) 0
  (findPos (· == l) g.locals).map fun k => before + k

/-- Live, and owned by a context (R329, R344-R346). -/
def Plan.liveFor (p : Plan) (ctx : Nat) : Bool := p.live && p.ctx == ctx && p.state != .freed

/-- A beat of a write to the front-end or of a `pk.snd`, which names no window address. -/
def fabricBeat : Beat := { w := none, sp := 0, data := none, pa := none, state := .waiting }

/-- The translation of a `cl.base` in a critical window, made twice at issue, disagrees twice, and the word fails (R271, R344). -/
def Core.baseTranslated (c : Core) (id w : Nat) : Core :=
  match (c.window (winOf w)).crit && c.disagree.contains w, c.copy? id with
  | true, some k => { c.failCopy k .uncorrectable w with disagree := c.disagree.erase w }
  | _, _ => c

/-- R344 -/
def execClBase (ch : Bool) (a b : Src) (s : State) : Res :=
  issue (.clBase ch a b) (fun s c => do
    let (wa, c) ← c.readS a
    let (ctl, c) ← c.readS b
    let h := fld ctl 15 0
    let base := fld ctl 22 20
    let _ ← c.need (within ctl (ones 22 0)) .range
    let ext := match s.plan h with
      | some p => if p.liveFor (s.ctxOf c) then p.extents.getD base 0 else 0
      | none => 0
    let w ← c.windowCheck wa ext fun w => w.kind == 1 && w.rd && w.wr
    let pa := (c.window (winOf w)).base + offOf w
    let d ← c.issueCopy c.cPipe 0 (.clBase h (fld ctl 19 16) base (BitVec.ofNat 64 pa)) (some 64) [fabricBeat] none
    .ok (d.baseTranslated c.nextId w)) s

/-- R345. A trigger word with a reserved bit set is a trigger refused under R335 (PLAN), and raises no RANGE under R343: the model's
choice (log 126). -/
def execClFire (ch : Bool) (a : Src) (s : State) : Res :=
  issue (.clFire ch a) (fun _ c => do
    let (w, c) ← c.readS a
    c.issueCopy c.cPipe 0 (.clFire w) (some 64) [fabricBeat] none) s

/-- The code of a plan's state (R346). -/
def PlanState.num : PlanState → Nat
  | .idle => 0 | .running => 1 | .failed => 2 | .freed => 3

/-- The status word of `cl.stat` for a selector that names a plan (R346). -/
def Plan.status (p : Plan) (sel : Nat) : Nat :=
  match sel with
  | 0 => p.completed + p.state.num <<< 32
  | 1 => p.accepted
  | _ => p.fallbacks % 2 ^ 32 + (p.stale % 2 ^ 32) <<< 32

/-- Selector 4: rails, ports and the package number (R346). -/
def State.linkStatus (s : State) : Nat :=
  s.pkgnum.toNat + ofBits ((upto 15).map fun k => !s.portsDown.contains k) <<< 10 +
    ofBits ((upto 5).map fun k => !s.d2dDown.contains k) <<< 26

/-- R346 -/
def execClStat (ch : Bool) (d : Port) (a : Src) (sel : BitVec 8) (s : State) : Res :=
  issue (.clStat ch d a sel) (fun s c => do
    let (h, c) ← c.readS a
    let v ← if sel == 4 then .ok s.linkStatus
      else match s.plan h.toNat with
        | some p => if p.liveFor (s.ctxOf c) then .ok (p.status sel.toNat) else .error (c.wordTrap .plan)
        | none => .error (c.wordTrap .plan)
    .ok (c.deliver c.cPipe (some c.cPipe.latch) d (Val.ofNat v) 1)) s

/-- R347: the payload is held with the generation of the group as its slot holds it (R327). -/
def execPkSnd (ch : Bool) (a b : Src) (s : State) : Res :=
  issue (.pkSnd ch a b) (fun s c => do
    let ((wide, v), c) ← c.readAny a
    let (desc, c) ← c.readS b
    let _ ← c.noPoison v.anyKind
    let g := fld desc 7 0
    let _ ← c.need (within desc (ones 62 0)) .range
    match c.slotOfGroup g with
    | none => .error (c.wordTrap .range)
    | some k =>
      let _ ← c.need (fld desc 25 8 < s.groupSize (s.group g)) .range
      c.issueCopy c.cPipe 0 (.pkSnd desc (c.slotGen k) wide v) (some (if wide then 256 else 64))
        (List.replicate (if wide then 4 else 1) fabricBeat) none) s

end Sys2Proof.Machine
end

