-- ==== Sys2Proof/Machine/Pass.lean ====
section
/-! DEFINITION. The value of a matrix pass and the updates of the matrix store (R95-R99, R196-R199, R207-R209, R213, R224-R227). -/
namespace Sys2Proof.Machine

/-! ## The matrix store (R199) -/

def MacroRow.zero : MacroRow := { bits := 0, k := .clean }

/-- Number of a scale word in the table of uncorrectable ones: fine word or band of a side. -/
def fineWordKey (side : Bool) (block : Nat) : Nat := (if side then 2 ^ 20 else 0) + block / 4
def bandKey (side : Bool) (band : Nat) : Nat := (if side then 2 ^ 20 else 0) + 2 ^ 19 + band

def Matrix.fine (m : Matrix) (side : Bool) (block : Nat) : Nat :=
  (SMap.get 0 (if side then m.bScale else m.aScale) block).toNat
def Matrix.band (m : Matrix) (side : Bool) (band : Nat) : Nat :=
  (SMap.get 0 (if side then m.bBand else m.aBand) band).toNat

/-- Whether the word of a fine scale, or of a band, is uncorrectable; a band word holds two bands (R83). -/
def Matrix.fineBad (m : Matrix) (side : Bool) (block : Nat) : Bool := m.badScale.contains (fineWordKey side block)
def Matrix.bandBad (m : Matrix) (side : Bool) (band : Nat) : Bool :=
  m.badScale.contains (bandKey side (band / 2 * 2)) || m.badScale.contains (bandKey side (band / 2 * 2 + 1))

/-- Mark or clear an entry of the table of uncorrectable words. -/
def markKey (l : List Nat) (key : Nat) (bad : Bool) : List Nat :=
  let l := l.filter fun k => k != key
  if bad then key :: l else l

/-- R224: 256 bytes of stored row k, chunk j; the poison of the row starts over with chunk 0, and each chunk adds the kinds of its
words (R467). -/
def Matrix.loadChunk (m : Matrix) (k j : Nat) (ws : List PWord) : Matrix :=
  let row := SMap.get MacroRow.zero m.rows k
  let data := ofDigits 32 (ws.map fun w => w.w.toNat)
  let old := row.bits.toNat
  let bits := old - bitsOf old (2048 * j) 2048 <<< (2048 * j) + data <<< (2048 * j)
  let kind := (if j == 0 then .clean else row.k).join (Kind.joinAll (ws.map fun w => w.k))
  { m with rows := SMap.set MacroRow.zero m.rows k { bits := BitVec.ofNat 16384 bits, k := kind } }

/-- Set the code of one cell. -/
def Matrix.setCell (m : Matrix) (wb n k code : Nat) (kind : Kind) : Matrix :=
  let row := SMap.get MacroRow.zero m.rows k
  let old := row.bits.toNat
  let bits := old - bitsOf old (wb * n) wb <<< (wb * n) + code <<< (wb * n)
  { m with rows := SMap.set MacroRow.zero m.rows k { bits := BitVec.ofNat 16384 bits, k := row.k.join kind } }

/-- R225: the kept codes and the metadata of one staged entry. -/
def Matrix.loadSparse (m : Matrix) (e start : Nat) (v : Val) : Matrix :=
  let wb := cellWidth (fBcell e)
  let u := 1024 / wb
  let g := if fSparse e == 1 then 4 else 8
  let f := if fSparse e == 1 then 4 else 12
  let x := v.bits.toNat
  let m := (upto u).foldl (fun m j => let q := start * u + j; m.setCell wb (q / 128) (q % 128) (elem x wb j) v.anyKind) m
  (upto (2 * u / g)).foldl
    (fun m i =>
      let d := start * 2 * u + i * g
      { m with info := SMap.set 0 m.info (d / 256 * 64 + d % 256 / g) (bitsOf x (1024 + f * i) f) }) m

/-- R226: 64 fine scales and one band of a side. The mark of a word of two bands goes with the band that brought it: that the word is
clean once that band is rewritten, though the other is not, is the model's choice (log 118). -/
def Matrix.loadScales (m : Matrix) (side : Bool) (group : Nat) (v : Val) : Matrix :=
  let x := v.bits.toNat
  let band := if side then group / 16 else group / 32
  let fines (t : SMap (BitVec 8)) : SMap (BitVec 8) :=
    (upto 64).foldl (fun t k => SMap.set 0 t (group * 64 + k) (BitVec.ofNat 8 (elem x 8 k))) t
  let code := BitVec.ofNat 16 (bitsOf x 2032 16)
  let bad := (upto 16).foldl (fun l k => markKey l (fineWordKey side (group * 64 + 4 * k)) (v.kind k).poisoned) m.badScale
  let bad := markKey bad (bandKey side band) (v.kind 63).poisoned
  if side then { m with bScale := fines m.bScale, bBand := SMap.set 0 m.bBand band code, badScale := bad }
  else { m with aScale := fines m.aScale, aBand := SMap.set 0 m.aBand band code, badScale := bad }

/-! ## The value of a pass (R95-R99) -/

/-- An A element: as encoded, aligned (R96), and its shared scale. -/
structure ATerm where
  enc : Num
  al : Ex
  scale : Num

def Num.one : Num := .fin (.ofNat 1 0)

/-- The elements of one block aligned to its largest exponent, and whether a truncation discards something (R96). -/
def alignBlock (t : Nat) (codes : List Nat) : List (Num × Ex) × Bool :=
  let vs := codes.map (valOf t)
  let exps := vs.filterMap fun v => match v with | .fin x => if x.m == 0 then none else some x.e | _ => none
  if isInt t then (vs.map fun v => match v with | .fin x => (v, x) | _ => (v, .ofNat 0 0), false)
  else
    match exps.max? with
    | none => (vs.map fun v => (v, .ofNat 0 0), false)
    | some top =>
      let unit := top + ((ffOf t).p : Int) - (planes t : Int)
      let one (v : Num) : (Num × Ex) × Bool :=
        match v with
        | .fin x =>
          let (q, _, exact) := cutAt x unit
          ((v, { neg := x.neg, m := q, e := unit, sticky := false }), x.m != 0 && !exact)
        | _ => ((v, .ofNat 0 0), false)
      let rs := vs.map one
      (rs.map Prod.fst, rs.any Prod.snd)

/-- A row in blocks of eight. -/
def alignRow (t : Nat) : Nat → List Nat → List (Num × Ex) × Bool
  | 0, _ => ([], false)
  | n + 1, codes =>
    let (b, f) := alignBlock t (codes.take 8)
    let (r, g) := alignRow t n (codes.drop 8)
    (b ++ r, f || g)

/-- The shared scale of a block: band times fine; NaN for a band that is infinite or NaN (R80, R81). -/
def sharedScale (band fine : Nat) : Num :=
  match valOf 8 band with
  | .fin b => .fin (mulEx b (fineVal fine))
  | _ => .nan

/-- What one term contributes to an output element (R97). -/
structure TermSum where
  nan : Bool
  invalid : Bool
  posInf : Bool
  negInf : Bool
  fins : List Ex

def TermSum.empty : TermSum := { nan := false, invalid := false, posInf := false, negInf := false, fins := [] }

/-- The finite value of a factor. -/
def Num.ex : Num → Ex
  | .fin x => x
  | _ => .ofNat 0 0

/-- Add one term (R97, R98). -/
def TermSum.add (s : TermSum) (a : ATerm) (b scale : Num) : TermSum :=
  let fs := [a.enc, b, a.scale, scale]
  let inf := fs.any Num.isInf
  let clash := inf && fs.any Num.isZero
  let nan := clash || fs.any Num.isNan
  let invalid := clash || a.scale.isNan || scale.isNan
  let neg := fs.foldl (fun n f => n != f.neg) false
  if nan then { s with nan := true, invalid := s.invalid || invalid }
  else if inf then (if neg then { s with negInf := true } else { s with posInf := true })
  else { s with fins := mulEx (mulEx a.al b.ex) (mulEx a.scale.ex scale.ex) :: s.fins }

/-- P of an output element (R97, R98). -/
def TermSum.result (s : TermSum) : Nat × Flags :=
  let both := s.posInf && s.negInf
  let f := Flags.when (s.invalid || both) Flags.invalid
  if s.nan || both then (FF.fp32.cnan, f)
  else if s.posInf || s.negInf then (FF.fp32.signBit s.negInf + FF.fp32.infCode, f)
  else
    let (c, g) := FF.fp32.roundEx 0 (exactSum s.fins)
    (c, f ||| g)

/-- The A element that stored row k of column n pairs with (R196). -/
def Matrix.pairing (m : Matrix) (sparse n k : Nat) : Nat :=
  match sparse with
  | 0 => k
  | sp =>
    let g := if sp == 1 then 4 else 8
    let b := if sp == 1 then 2 else 3
    let grp := k / (g / 2)
    grp * g + bitsOf (SMap.get 0 m.info (n * 64 + grp)) (b * (k % (g / 2))) b

/-- One output element: column n of the tile with an aligned A row (R98). -/
def Matrix.column (m : Matrix) (e : Nat) (rows : List Nat) (as : List ATerm) (n : Nat) : Nat × Flags :=
  let bt := fBtype e
  let wb := cellWidth (fBcell e)
  let zero : ATerm := { enc := .zero, al := .ofNat 0 0, scale := .one }
  let scaleOf (k : Nat) : Num := if fBsc e then sharedScale (m.band true (n / 64)) (m.fine true (n * 16 + k / 8)) else .one
  (((rows.zip (upto 128)).foldl
    (fun (s : TermSum) (r, k) => s.add (as.getD (m.pairing (fSparse e) n k) zero) (valOf bt (elem r wb n)) (scaleOf k))
    .empty)).result

/-- The poison of accumulator row q of an output row: of the A row, of the stored rows, and of the scales in use
(R84, R213, R467). -/
def Matrix.passKind (m : Matrix) (e ar : Nat) (words : List PWord) (q : Nat) : Kind :=
  let stored := Kind.joinAll (m.rows.map fun r => r.2.k)
  let aBad := fAsc e && (m.bandBad false (ar / 64) ||
    (upto (aCount (fSparse e) / 8)).any fun j => m.fineBad false (ar * 32 + j))
  let bBad := fBsc e && (m.bandBad true q ||
    (upto 1024).any fun j => m.fineBad true (q * 1024 + j))
  let scale : Kind := if aBad || bBad then .scaled else .clean
  Kind.joinAll (stored :: scale :: words.map fun w => w.k)

/-- What a pass forms of one A row: its Q accumulator rows of P, the flags, and whether the residue checks some element of them
(R214). -/
structure RowSum where
  rows : List Val
  flags : Flags
  checked : Bool

/-- R214 checks an element that R97 makes neither NaN nor infinite: a sum that overflows in its rounding is checked. -/
def residueChecks (p : Nat × Flags) : Bool := bitsOf p.1 23 8 != 255 || p.2 &&& Flags.overflow != 0

/-- The Q accumulator rows of P that an A row gives in row i of a pass, with the flags of alignment and rounding
(R96-R99). -/
def passRow (m : Matrix) (p : Pass) (i : Nat) (words : List PWord) : RowSum :=
  let e := p.fmt.toNat
  let t := fAtype e
  let ka := aCount (fSparse e)
  let ar := (p.asr + i) % 256
  let data := ofDigits 32 (words.map fun w => w.w.toNat)
  let (al, lost) := alignRow t (ka / 8) ((upto ka).map (elem data (widthOf t)))
  let as := (al.zip (upto ka)).map fun (a, k) =>
    ({ enc := a.1, al := a.2
       scale := if fAsc e then sharedScale (m.band false (ar / 64)) (m.fine false (ar * 32 + k / 8)) else .one } : ATerm)
  let rows := (upto 128).map fun k => (SMap.get MacroRow.zero m.rows k).bits.toNat
  let outs := (upto (256 / cellWidth (fBcell e))).map fun q =>
    let cs := (upto 64).map fun n => m.column e rows as (64 * q + n)
    let k := m.passKind e ar words q
    let v := ofElems 32 (cs.map Prod.fst)
    (Val.withKinds v fun _ => k, Flags.union (cs.map Prod.snd), cs.any residueChecks)
  { rows := outs.map Prod.fst
    flags := Flags.when lost Flags.inexact ||| Flags.union (outs.map fun o => o.2.1)
    checked := outs.any fun o => o.2.2 }

/-! ## Updates of accumulator rows (R207, R209) -/

/-- acc := rne32(val(acc) + val(P)) for each element (R207). That −0 plus a P of −0 stays −0, under the general rule of R91 and not
under its sentence on the pass, is the model's choice (log 132). -/
def accumulate (row p : Nat) : Nat × Flags :=
  let rs := (upto 64).map fun i => addCode 9 0 (elem row 32 i) (elem p 32 i)
  (ofElems 32 (rs.map Prod.fst), Flags.union (rs.map Prod.snd))

/-- The fold of a row into RSIG (R209). -/
def foldSig (sig : W64) (row : Nat) (bits : V2048) : W64 :=
  let x := (upto 32).foldl (fun x j => x ^^^ elem bits.toNat 64 j) (row <<< 48)
  sig.rotateLeft 1 ^^^ BitVec.ofNat 64 x

/-- Give an accumulator row its new contents: the row, its fold, and its mark for the exit check (R209, R215). -/
def Core.setAccRow (c : Core) (n : Nat) (r : AccRow) : Core :=
  let sys := if c.a.sys.mxmode.getLsbD 1 then c.a.sys else { c.a.sys with rsig := foldSig c.a.sys.rsig n r.bits }
  { c with
    a := { c.a with sys := sys }
    mx := { c.mx with acc := SMap.set AccRow.zero c.mx.acc n r
                      updated := if c.mx.updated.contains n then c.mx.updated else c.mx.updated ++ [n] } }

/-- One row of a pass update (R207). -/
def Core.passUpdate (c : Core) (n : Nat) (ovw : Bool) (v : Val) : Core × Flags :=
  if ovw then (c.setAccRow n { bits := v.bits, k := v.anyKind }, 0)
  else
    let old := SMap.get AccRow.zero c.mx.acc n
    let (bits, f) := accumulate old.bits.toNat v.bits.toNat
    (c.setAccRow n { bits := BitVec.ofNat 2048 bits, k := old.k.join v.anyKind }, f)

/-- A residue disagreement gives the output row element poison (R214), in a row that has an element to check. -/
def Core.residueCheck (c : Core) (checked : Bool) (rows : List Val) : List Val × Core :=
  if c.mx.residue && checked then
    (rows.map fun v => { v with ep := v.ep ||| 1 }, { c with mx := { c.mx with residue := false } })
  else (rows, c)

/-- The rows of one output row, from row `acc` up (R207). -/
def Core.accUpdate (c : Core) (acc : Nat) (ovw checked : Bool) (rows : List Val) : Core × Flags :=
  let (rows, c) := c.residueCheck checked rows
  (rows.zip (rangeFrom acc rows.length)).foldl
    (fun (c, f) (v, n) => let (c', g) := Core.passUpdate c n ovw v; (c', f ||| g)) (c, 0)

/-- The activations of `mx.epi` (R232). -/
def activate (act : Nat) (x : Num) : Num :=
  let pos := !x.isNan && !x.isZero && !x.neg
  let neg := !x.isNan && !x.isZero && x.neg
  if x.isNan then x
  else match act with
    | 1 => if pos then x else .zero
    | 2 => if !pos then .zero else if ltNum false (.fin (.ofNat 6 0)) x then .fin (.ofNat 6 0) else x
    | 3 => match x with
      | .fin v => if neg then .fin { v with e := v.e - 3 } else x
      | _ => x
    | _ => x

end Sys2Proof.Machine
end

