-- ==== Sys2Proof/Machine/System.lean ====
section
/-! DEFINITION. System instructions (R402-R412). -/
namespace Sys2Proof.Machine

/-- R408: TRAP with the code as FAULTADDR. -/
def execTrap (ch : Bool) (k : BitVec 16) (s : State) : Res :=
  issue (.trap ch k) (fun _ c => .error (Trap.at_ .trap (c.immU 16 k.toNat))) s

/-- R409: inert with BRKEN 0 or BRKSKIP 1, which it clears; otherwise BREAK. -/
def execBrk (ch : Bool) (k : BitVec 16) (s : State) : Res :=
  issue (.brk ch k) (fun _ c =>
    if c.dbgctl.getLsbD 1 && !c.brkskip then .error (Trap.at_ .break k.toNat) else .ok { c with brkskip := false }) s

/-- R410: the core's own cache at issue; with a wider scope also an entry of the commit buffer. -/
def execIcinv (ch : Bool) (g : BitVec 8) (sc : BitVec 2) (s : State) : Res :=
  issue (.icinv ch g sc) (fun _ c => do
    let _ ← c.need (sc != 1 || (c.slotOfGroup g.toNat).isSome) .range
    let c := { c with icache := [] }
    if sc == 0 then .ok c else (c.hold .s (.icinv sc g.toNat) 64).map fun c => c.retireAt c.now) s

/-! ## System registers (R402-R405) -/

/-- The system registers as `rdsys` at this LT reads them: before the updates of the LT (R411). -/
def Core.sysBefore (c : Core) : SysRegs := if c.a.before.1 == c.now then c.a.before.2 else c.a.sys

/-- QMAP entry q (R350). -/
def SysRegs.qpos (r : SysRegs) (q : Nat) : Nat := match SMap.get 0 r.qmap q with | 0 => q | n + 1 => n

/-- QMAP word k (R350). -/
def SysRegs.qmapWord (r : SysRegs) (k : Nat) : Nat := ofDigits 6 ((rangeFrom (10 * k) (Nat.min 10 (64 - 10 * k))).map r.qpos)

/-- STATUS (R403). -/
def Core.status (c : Core) : Nat :=
  let r := c.sysBefore
  (if r.p then 1 else 0) + (if r.amp0.getLsbD 23 then 8 else 0) + (if c.brkskip then 16 else 0) +
    c.a.loops.length <<< 8 + (c.die % 2) <<< 11

/-- The value of a system register by its index (R402). -/
def Core.readSys (c : Core) (n : Nat) (x : Nat) : W64 :=
  let r := c.sysBefore
  BitVec.ofNat 64 <| match x with
  | 0x00 => c.now
  | 0x01 => c.budget
  | 0x02 => c.status
  | 0x03 => r.flags.toNat
  | 0x04 => r.fmtsel.toNat
  | 0x05 => c.a.trapcode.toNat
  | 0x06 => c.a.trappc
  | 0x07 => c.a.faultaddr.toNat
  | 0x08 => r.rsig.toNat
  | 0x09 => c.passno.toNat
  | 0x0A => n
  | 0x0B => match c.kernel with
    | some (q, cid) => cid % 2 ^ 32 + (q % 32) <<< 32
    | none => 0
  | 0x0C => r.seqbase.toNat
  | 0x0D => c.gstale.toNat
  | 0x0E => c.dbgctl.toNat
  | 0x0F => r.mxmode.toNat
  | 0x10 => if r.ampmode then 1 else 0
  | 0x11 => c.a.traplt
  | y =>
    if 0x20 ≤ y && y ≤ 0x2F then (SMap.get 0 r.fmt (y - 0x20)).toNat
    else if 0x30 ≤ y && y ≤ 0x37 then SMap.get 0 c.qwp (y - 0x30)
    else if 0x38 ≤ y && y ≤ 0x3B then
      (SMap.get 0 c.gslot (y - 0x38)).toNat + (SMap.get 0 r.rdvcnt (y - 0x38)).toNat <<< 32
    else if 0x40 ≤ y && y ≤ 0x46 then r.qmapWord (y - 0x40)
    else 0

/-- R411 -/
def execRdsys (ch : Bool) (d : Port) (x : BitVec 8) (s : State) : Res :=
  issue (.rdsys ch d x) (fun s c => .ok (c.deliverS d (c.readSys s.cur x.toNat) 1)) s

/-- The bits a `wrsys` may set in a writable register; `none` for a read-only one (R402, R412). -/
def sysMask (x : Nat) : Option Nat :=
  match x with
  | 0x01 => some (ones 47 0)
  | 0x03 => some (ones 4 0)
  | 0x04 => some (ones 3 0)
  | 0x08 => some (ones 63 0)
  | 0x0C => some (ones 31 0)
  | y => if 0x20 ≤ y && y ≤ 0x2F then some (ones 31 0) else none

/-- R412: the previous value is delivered, and the register written, at issue LT + 1. -/
def execWrsys (ch : Bool) (d : Port) (a : Src) (x : BitVec 8) (s : State) : Res :=
  issue (.wrsys ch d a x) (fun s c => do
    let (v, c) ← c.readS a
    let _ ← c.need (match sysMask x.toNat with | some m => within v m | none => false) .range
    .ok ((c.later .s (c.now + 1) none (.sysWrite x.toNat v)).deliverS d (c.readSys s.cur x.toNat) 1)) s

end Sys2Proof.Machine
end

