-- ==== Sys2Proof/Machine/Amplitude.lean ====
section
/-! DEFINITION. Amplitude instructions (R348-R370): operands, limits, transpositions and latencies. What the engine does between
issue and completion stands in Machine/AmpEngine.lean. -/
namespace Sys2Proof.Machine

/-! ## The descriptor (R349) -/

structure AmpDesc where
  valid : Bool
  solo : Bool
  hbm : Bool
  wide : Bool
  gsl : Nat
  no : Nat
  n : Nat
  base : Nat

def AmpDesc.ofWords (w0 w1 : W64) : AmpDesc :=
  { valid := fld w0 23 23 == 1, solo := fld w0 22 22 == 1, hbm := fld w0 19 19 == 1, wide := fld w0 18 18 == 1,
    gsl := fld w0 17 16, no := fld w0 13 8, n := fld w0 5 0, base := w1.toNat }

def SysRegs.amp (r : SysRegs) : AmpDesc := AmpDesc.ofWords r.amp0 r.amp1

/-- Element size es and format of one part (R348, R356). -/
def AmpDesc.es (d : AmpDesc) : Nat := if d.wide then 16 else 8
def AmpDesc.part (d : AmpDesc) : Nat := if d.wide then 10 else 9
/-- S elements, and the bytes of the slice. -/
def AmpDesc.size (d : AmpDesc) : Nat := 2 ^ d.no
def AmpDesc.bytes (d : AmpDesc) : Nat := d.size * d.es

/-- The group of the state: the entry that the descriptor's slot names. -/
def State.ampGroup (s : State) (c : Core) (d : AmpDesc) : Group := s.group (bitsOf (SMap.get 0 c.gslot d.gsl).toNat 0 8)

/-- The rank of this core; 0 for a state that lives on it alone (R348, R351). -/
def State.ampRank (s : State) (c : Core) (d : AmpDesc) : Nat :=
  if d.solo then 0 else (s.rankOf (s.ampGroup c d) c.lcore).getD 0

/-- nC: log2 of the members each listed package contributes (R348). -/
def State.ampCores (s : State) (c : Core) (d : AmpDesc) : Nat :=
  if d.solo then 0 else Nat.log2 (((s.groupLists (s.ampGroup c d)).headD (0, 1)).2)

/-- The group's member count must be 2^(N - NO) with an equal power of two per package (R351). That a slot which is not VALID, and a group
of which the core is no member, raise AMP_MAP like a count that does not fit is the model's choice (log 23). -/
def State.ampGroupOk (s : State) (c : Core) (d : AmpDesc) : Bool :=
  let ls := s.groupLists (s.ampGroup c d)
  let m := (ls.headD (0, 0)).2
  (SMap.get 0 c.gslot d.gsl).getLsbD 16 && ls.foldl (fun n e => n + e.2) 0 == 2 ^ (d.n - d.no) &&
  ls.all (fun e => e.2 == m) && m == 2 ^ Nat.log2 m && (s.rankOf (s.ampGroup c d) c.lcore).isSome

/-! ## Transpositions (R353, R354) -/

/-- QMAP with the entries that hold two positions exchanged (R353). -/
def SysRegs.exchange (r : SysRegs) (a b : Nat) : SysRegs :=
  let put (m : SMap Nat) (q : Nat) : SMap Nat :=
    let p := r.qpos q
    let p' := if p == a then b else if p == b then a else p
    SMap.set 0 m q (if p' == q then 0 else p' + 1)
  { r with qmap := (upto 64).foldl put r.qmap }

/-- Set QMAP entry q. -/
def SysRegs.setQ (r : SysRegs) (q p : Nat) : SysRegs := { r with qmap := SMap.set 0 r.qmap q (if p == q then 0 else p + 1) }

/-- The transpositions of `amp.map` with MOVE = 1 (R368). -/
def mapTrans (v : Nat → Nat) : List Nat → SysRegs → List (Nat × Nat)
  | [], _ => []
  | q :: qs, r =>
    if r.qpos q == v q then mapTrans v qs r else (r.qpos q, v q) :: mapTrans v qs (r.exchange (r.qpos q) (v q))

/-- The highest local position whose qubit is neither a target nor a control (R354). -/
def victim (r : SysRegs) (no n : Nat) (used : Nat → Bool) : Option Nat :=
  ((upto no).reverse).find? fun p => ((upto n).all fun q => r.qpos q != p || !used q)

/-- The remap of `amp.gate`: for each non-local target in order, a transposition with the victim (R354). -/
def remap (no n : Nat) (used : Nat → Bool) : List Nat → SysRegs → Option (List (Nat × Nat))
  | [], _ => some []
  | t :: ts, r =>
    if r.qpos t < no then remap no n used ts r
    else match victim r no n used with
      | none => none
      | some p => (remap no n used ts (r.exchange p (r.qpos t))).map fun l => (p, r.qpos t) :: l

/-! ## Latencies (R360) -/

/-- X of one transposition; nC + NO is the first package bit. -/
def AmpDesc.transCost (d : AmpDesc) (nc : Nat) (t : Nat × Nat) : Nat :=
  let z := d.bytes
  let lo := Nat.min t.1 t.2
  let hi := Nat.max t.1 t.2
  let b := if d.no + nc ≤ hi then 8 else 64
  let mem := ceilDiv z 24
  if hi < d.no then (if d.hbm then mem else ceilDiv z 1024)
  else
    let x := 64 + if lo < d.no then ceilDiv z (2 * b) else ceilDiv z b
    if d.hbm then Nat.max x mem else x

/-- W of an instruction. -/
def AmpDesc.work (d : AmpDesc) (op : AmpOp) : Nat :=
  let z := d.bytes
  let mem := ceilDiv z 24
  let rate := if d.wide then 16 else 64
  match op with
  | .gate ts _ _ => let x := ceilDiv (d.size * 2 ^ ts.length) rate; if d.hbm then Nat.max x mem else x
  | .diag _ _ _ => let x := ceilDiv d.size rate; if d.hbm then Nat.max x mem else x
  | .norm none _ | .prob _ none _ => if d.hbm then ceilDiv z 48 else ceilDiv z 512
  | .norm (some _) _ | .prob _ (some _) _ => if d.hbm then mem else ceilDiv z 256
  | .init true => if d.hbm then ceilDiv z 48 else ceilDiv z 1024
  | .init false => 0
  | .map _ | .swap _ _ => 0

/-- L = 16 + ΣX + W (R360). -/
def AmpDesc.latency (d : AmpDesc) (nc : Nat) (op : AmpOp) (trans : List (Nat × Nat)) : Nat :=
  16 + (trans.map (d.transCost nc)).foldl (· + ·) 0 + d.work op

/-! ## Accesses of words already issued (R361) -/

/-- Where a pass row that is read at LT x stands in scratchpad, through the row list as it stands then. -/
def Core.rowAt (c : Core) (x : Nat) : RowSrc → List Nat
  | .addr a => [a]
  | .listed j _ => [SMap.get 0 (c.listAt x).list j]
  | .given _ | .pair _ _ => []

/-- The scratchpad accesses of an item in flight beside its core writes: LT, address, bytes. -/
def Core.itemReads (c : Core) (i : Item) : List (Nat × Nat × Nat) :=
  match i.act with
  | .readScalar a _ _ => [(i.lt, a, 8)]
  | .readVec a _ _ => [(i.lt, a, 256)]
  | .readLanes wide as _ _ => as.filterMap fun a => a.map fun x => (i.lt, x, if wide then 8 else 4)
  | .readAtom _ wide a _ _ => [(i.lt, a, if wide then 8 else 4)]
  | .readVatom f ls _ _ => ls.filterMap fun l => l.map fun e => (i.lt, e.1, widthOf (fVtype f.toNat) / 8)
  | .readRow (some a) n _ _ => [(i.lt, a, n)]
  | .readCopy id j n => match c.copy? id with
    | some k => ((k.beats.drop j).take n).map fun b => (i.lt, b.sp, 64)
    | none => []
  | .pairRead _ src n _ _ => (c.rowAt i.lt src).map fun a => (i.lt, a, n)
  | .ldbChunk a _ _ => [(i.lt, a, 256)]
  | .passRow p _ src _ => (c.rowAt i.lt src).map fun a => (i.lt, a, aBytes (fAtype p.fmt.toNat) (fSparse p.fmt.toNat))
  | .suffixArrive a => [(i.lt, a, 16)]
  | _ => []

/-- Whether an access of a word issued earlier performs in [t + 1, until] and reaches the slice (R361). -/
def Core.sliceBusy (c : Core) (until_ base n : Nat) : Bool :=
  c.a.inflight.any fun i => (c.itemReads i ++ i.writes).any fun (x, lo, len) =>
    c.now < x && x ≤ until_ && meets lo len base n

/-! ## Issue of a data instruction -/

/-- BUFFER_STATE for a slice inside a declared buffer: no state allows both a read and a write (R352). -/
def Core.sliceBuffers (c : Core) (d : AmpDesc) : Except Trap Unit :=
  if d.hbm then .ok ()
  else match [c.a.refusedByte false d.base d.bytes, c.a.refusedByte true d.base d.bytes].filterMap id |>.min? with
    | some b => .error (Trap.at_ .bufferState b)
    | none => .ok ()

/-- Put a data instruction in the log, its start one LT later and its end at issue LT + L (R361, R364). An entry that a
rewind left behind keeps its progress, and one that only relabels qubits has no data to wait for. `amp.init` starts the sequence
numbers over (R366). The engine's accesses are core writes, so a slice with a barrier in it raises RANGE, and one that is written in a
bank under a slot ATOMIC_SLOT (R244, R294, R352). That a word which touches no byte of the slice (MOVE = 0, ZERO = 0) is checked like
any other, and ATOMIC_SLOT at all, are the model's choices (log 128). -/
def Core.startAmp (c : Core) (d : AmpDesc) (op : AmpOp) (trans : List (Nat × Nat)) (dst : Option Port) (lat : Nat) :
    Except Trap Core := do
  let p := c.cPipe
  let t := c.now
  let _ ← c.need (c.a.ampBusy.all fun e => e.1 ≤ t) .illegalBundle
  let _ ← c.need (c.a.ampCount < 16) .commitOverflow
  let _ ← c.sliceBuffers d
  let _ ← if d.hbm then .ok () else c.barrierClear [(t + lat, d.base, d.bytes)]
  let _ ← if d.hbm then .ok () else c.slotCheck [(t + lat, d.base, d.bytes)]
  let _ ← c.need (d.hbm || !c.sliceBusy (t + lat) d.base d.bytes) .ampMap
  let id := c.a.ampCount
  let seq := match op with | .init _ => 0 | _ => c.a.ampSeq
  let relabels := match op with | .map _ | .swap _ _ => trans.isEmpty | _ => false
  let fresh : AmpEntry :=
    { id := id, seq := seq, live := false, issue := t, done_ := t + lat, word := c.cx.word, op := op, trans := trans, tdone := 0,
      sent := 0, got := 0, work := none, bad := [], finished := relabels, ended := false, result := 0, flags := 0, fault := none }
  let old := c.ampLog.find? fun e => e.id == id
  let entry := match old with
    | some e => { e with issue := t, done_ := t + lat, word := c.cx.word, fault := none, ended := false }
    | none => fresh
  let log := c.ampLog.filter fun (e : AmpEntry) => e.id != id
  let busy := [(t + lat, c.cx.word)]
  let c := { c with ampLog := log ++ [entry]
                    a := { c.a with ampSeq := seq + 1, ampCount := id + 1, ampBusy := busy
                                    ampSlice := if d.hbm then none else some (t, d.base, d.bytes) } }
  let c := c.later p (t + 1) none (.ampStart id)
  .ok ((c.later p (t + lat) (match dst with | some q => if Port.reserves q then some q else none | none => none)
    (.ampEnd id d.base (if d.hbm then 0 else d.bytes))).retireAt (t + lat))

/-- The descriptor of a data instruction; AMP_MAP while it is not valid (R349). -/
def Core.ampDesc (c : Core) : Except Trap AmpDesc := do
  let d := c.a.sys.amp
  let _ ← c.need d.valid .ampMap
  .ok d

/-! ## The instructions -/

/-- The limits of R352. -/
def AmpDesc.limitsOk (d : AmpDesc) : Bool :=
  let top := if d.hbm then (if d.wide then 28 else 29) else (if d.wide then 19 else 20)
  3 ≤ d.no && d.no ≤ top && 1 ≤ d.n && d.n ≤ 46 && d.no ≤ d.n && (!d.solo || d.n == d.no)

/-- The window of a slice in HBM, in the order of R265 with FAULTADDR holding base (R366). -/
def Core.sliceWindow (c : Core) (base : W64) (len : Nat) : Except Trap Unit :=
  match c.windowCheck base len fun w => w.kind == 1 && w.rd && w.wr with
  | .ok _ => .ok ()
  | .error t => .error (if base.toNat < 2 ^ 48 then { t with addr := base } else t)

/-- R366 -/
def execAmpInit (ch : Bool) (a b : Src) (s : State) : Res :=
  issue (.ampInit ch a b) (fun s c => do
    let (base, c) ← c.readS a
    let (cfg, c) ← c.readS b
    let d := { AmpDesc.ofWords cfg base with valid := true }
    let _ ← c.need (within cfg (ones 5 0 + ones 13 8 + ones 17 16 + ones 19 18 + ones 22 22 + ones 24 24) && d.limitsOk) .range
    let _ ← if d.hbm then c.sliceWindow base d.bytes else c.need (d.base % 256 == 0 && d.base + d.bytes ≤ spadSize) .range
    let _ ← c.need (d.solo || s.ampGroupOk c d) .ampMap
    let op := AmpOp.init (fld cfg 24 24 == 1)
    let w0 : W64 := (cfg &&& BitVec.ofNat 64 (ones 22 0)) ||| BitVec.ofNat 64 (2 ^ 23)
    let c ← c.startAmp d op [] none (d.latency 0 op [])
    .ok ((c.later c.cPipe (c.now + 1) none (.sysWrite 0x100 w0)).later c.cPipe (c.now + 1) none (.sysWrite 0x101 base))) s

/-- R367 -/
def execAmpCtl (ch : Bool) (d : Port) (n : Bool) (s : State) : Res :=
  issue (.ampCtl ch d n) (fun _ c =>
    let old := if c.a.sys.ampmode then 1 else 0
    .ok ((c.later c.cPipe (c.now + 1) none (.setAmpmode n)).deliver c.cPipe (some .a) d (Val.ofNat old) 1)) s

/-- The permutation `amp.map` names (R368). -/
def mapOk (v : Val) (n : Nat) : Bool :=
  let at_ (q : Nat) := v.elem 8 q
  v.bits.toNat < 2 ^ 512 && ((upto 64).all fun q => at_ q < 64) && ((upto 64).all fun q => q < n || at_ q == q) &&
  ((upto n).all fun p => (upto n).any fun q => at_ q == p)

/-- R368. That a `vmap` outside its limits raises RANGE, as a scalar control word does (R365), is the model's choice (log 137). -/
def execAmpMap (ch : Bool) (a b : Src) (s : State) : Res :=
  issue (.ampMap ch a b) (fun s c => do
    let (v, c) ← c.readV a
    let (ctl, c) ← c.readS b
    let d ← c.ampDesc
    let _ ← c.noPoison v.anyKind
    let _ ← c.need (within ctl 1 && mapOk v d.n) .range
    if ctl == 0 then
      c.startAmp d (.map ((upto d.n).map fun q => (q, v.elem 8 q))) [] none 1
    else
      let trans := mapTrans (fun q => v.elem 8 q) (upto d.n) c.a.sys
      c.startAmp d (.map []) trans none (d.latency (s.ampCores c d) (.map []) trans)) s

/-- R368 -/
def execAmpSwap (ch : Bool) (a : Src) (s : State) : Res :=
  issue (.ampSwap ch a) (fun s c => do
    let (ctl, c) ← c.readS a
    let d ← c.ampDesc
    let qa := fld ctl 5 0
    let qb := fld ctl 13 8
    let _ ← c.need (within ctl (ones 5 0 + ones 13 8 + ones 16 16) && qa < d.n && qb < d.n) .range
    let op := AmpOp.swap qa qb
    if fld ctl 16 16 == 0 then c.startAmp d op [] none 1
    else
      let trans := if qa == qb then [] else [(c.a.sys.qpos qa, c.a.sys.qpos qb)]
      c.startAmp d op trans none (d.latency (s.ampCores c d) op trans)) s

/-- Targets of `amp.gate` and `amp.diag`, with the checks of their operands (R369). -/
def gateTargets (d : AmpDesc) (ctl cmask : W64) : Option (List Nat) :=
  let k := fld ctl 25 24
  let ts := ([fld ctl 5 0, fld ctl 13 8, fld ctl 21 16] : List Nat)
  let used := ts.take k
  if within ctl (ones 5 0 + ones 13 8 + ones 21 16 + ones 25 24) && 1 ≤ k && (ts.drop k).all (· == 0) &&
    used.eraseDups.length == k && (used.all fun t => t < d.n && !cmask.getLsbD t) && cmask.toNat < 2 ^ d.n
  then some used else none

/-- Pop `n` entries of `amp.u` for a matrix of `words` 32-bit words; the matrix carries no poison (R359, R467). What the last entry
holds beyond it is not read. -/
def Core.popMatrix (c : Core) : Nat → Nat → Except Trap (List Val × Core)
  | 0, _ => .ok ([], c)
  | n + 1, words => do
    let (v, c) ← c.readQueue .ampU false
    let _ ← c.noPoison (Kind.joinAll ((upto (Nat.min words 64)).map v.kind))
    let (r, c) ← c.popMatrix n (words - 64)
    .ok (v :: r, c)

/-- R354, R369 -/
def execAmpGate (ch : Bool) (a b : Src) (s : State) : Res :=
  issue (.ampGate ch a b) (fun s c => do
    let (ctl, c) ← c.readS a
    let (cm, c) ← c.readS b
    let d ← c.ampDesc
    match gateTargets d ctl cm with
    | none => .error (c.wordTrap .range)
    | some ts =>
      let (u, c) ← c.popMatrix (ceilDiv (4 ^ ts.length * d.es * 8) 2048) (4 ^ ts.length * d.es / 4)
      let remote := ts.any fun t => d.no ≤ c.a.sys.qpos t
      let _ ← c.need (!(remote && c.a.sys.ampmode)) .ampMap
      match remap d.no d.n (fun q => ts.contains q || cm.getLsbD q) ts c.a.sys with
      | none => .error (c.wordTrap .ampMap)
      | some swaps =>
        let op := AmpOp.gate ts cm u
        c.startAmp d op swaps none (d.latency (s.ampCores c d) op swaps)) s

/-- R357, R369 -/
def execAmpDiag (ch : Bool) (a b : Src) (s : State) : Res :=
  issue (.ampDiag ch a b) (fun _ c => do
    let (ctl, c) ← c.readS a
    let (cm, c) ← c.readS b
    let d ← c.ampDesc
    match gateTargets d ctl cm with
    | none => .error (c.wordTrap .range)
    | some ts =>
      let (u, c) ← c.popMatrix (ceilDiv (2 ^ ts.length * d.es * 8) 2048) (2 ^ ts.length * d.es / 4)
      let op := AmpOp.diag ts cm u
      c.startAmp d op [] none (d.latency 0 op [])) s

/-- R370: the factor is read when SCALE is 1. -/
def execAmpNorm (ch : Bool) (d : Port) (a b : Src) (s : State) : Res :=
  issue (.ampNorm ch d a b) (fun _ c => do
    let (ctl, c) ← c.readS a
    let (f, c) ← if ctl.getLsbD 0 then (c.readS b).map fun r => (some r.1, r.2) else .ok (none, c)
    let e ← c.ampDesc
    let _ ← c.need (within ctl 1) .range
    let op := AmpOp.norm f d
    c.startAmp e op [] (some d) (e.latency 0 op [])) s

/-- R370 -/
def execAmpProb (ch : Bool) (d : Port) (a : Src) (s : State) : Res :=
  issue (.ampProb ch d a) (fun _ c => do
    let (ctl, c) ← c.readS a
    let e ← c.ampDesc
    let q := fld ctl 5 0
    let _ ← c.need (within ctl (ones 5 0 + ones 9 8) && q < e.n) .range
    let op := AmpOp.prob q (if fld ctl 8 8 == 1 then some (fld ctl 9 9 == 1) else none) d
    c.startAmp e op [] (some d) (e.latency 0 op [])) s

end Sys2Proof.Machine
end

