-- ==== Sys2Proof/Machine/Bundle.lean ====
section
/-! DEFINITION. The checks of a whole bundle before it issues, in the order of R59 (R37-R40, R47, R52, R58, R140, R167, R206, R361),
and what closes it: queue overflow (R105, R108), loop closure and redirection (R139, R143-R146). -/
namespace Sys2Proof.Machine

/-- A word of a bundle with the prefixes that apply to it (R52-R54). -/
structure BWord where
  addr : Nat
  dec : Decoded
  imm : Option (BitVec 23)
  fmt : Option (Bool × BitVec 2 × BitVec 4)
  deriving DecidableEq, Repr

def BWord.instr? (x : BWord) : Option Instr := match x.dec with | .ok i => some i | _ => none

/-- Whether a word is a P-format word (R34). -/
def BWord.isP (x : BWord) : Bool :=
  match x.dec with
  | .ok i => i.pfxKind.isSome || i.isSfx
  | .illegalPrefix => true
  | _ => false

/-- Whether a word is an operation word. -/
def BWord.isOp (x : BWord) : Bool := match x.instr? with | some i => i.pipe.isSome | none => false

/-- The words of a bundle with the `pfx.imm` and `pfx.fmt` that reach them. -/
def annotate : Option (BitVec 23) → Option (Bool × BitVec 2 × BitVec 4) → List (Nat × Word) → List BWord
  | _, _, [] => []
  | imm, fmt, (a, w) :: ws =>
    let d := Instr.ofWord w
    let x : BWord := { addr := a, dec := d, imm := imm, fmt := fmt }
    match d with
    | .ok (.pfxImm p) => { x with imm := none, fmt := none } :: annotate (some p) fmt ws
    | .ok (.pfxFmt e r n) => { x with imm := none, fmt := none } :: annotate imm (some (e, r, n)) ws
    | .ok i =>
      if i.pfxKind.isSome || i.isSfx then { x with imm := none, fmt := none } :: annotate imm fmt ws
      else { x with fmt := if i.accepts .fmt then fmt else none } :: annotate none none ws
    | _ => x :: annotate none none ws

/-- The first word that fails a class of R58, as its trap. -/
def classTrap (code : TrapCode) (bad : BWord → Bool) (xs : List BWord) : Option Trap :=
  (xs.find? bad).map fun x => Trap.at_ code x.addr

/-- ILLEGAL_FIELD: reserved fields, field limits, peek bits, format codes (R36, R51, R72). -/
def Core.badField (c : Core) (x : BWord) : Bool :=
  match x.dec with
  | .illegalField => true
  | .ok i => !i.fieldWf || !Instr.formatOk i (c.a.sys.entry x.fmt) c.a.brec
  | _ => false

/-- ILLEGAL_PORT (R48, R49). -/
def BWord.badPort (x : BWord) : Bool := match x.instr? with | some i => !i.portWf | none => false

/-- ILLEGAL_OP (R61). -/
def BWord.badOp (x : BWord) : Bool :=
  match x.dec with
  | .illegalOp | .truncated => true
  | _ => false

/-- The first misplaced, repeated, targetless or refused P-format word (R52); `seen` are the kinds waiting for their
target, `prev` says whether the word before is an operation word. -/
def badPrefix (seen : List PfxKind) (prev : Bool) : List BWord → Option Nat
  | [] => none
  | x :: xs =>
    match x.instr? with
    | some i =>
      match i.pfxKind with
      | some k =>
        match xs.find? BWord.isOp |>.bind BWord.instr? with
        | some t => if seen.contains k || !t.accepts k then some x.addr else badPrefix (k :: seen) false xs
        | none => some x.addr
      | none =>
        if i.isSfx then (if prev then badPrefix seen false xs else some x.addr)
        else badPrefix [] true xs
    | none => some x.addr

/-- ILLEGAL_PREFIX (R38, R52). -/
def prefixTrap (xs : List BWord) : Option Trap :=
  if xs.all BWord.isP then xs.head?.map fun x => Trap.at_ .illegalPrefix x.addr
  else (badPrefix [] false xs).map (Trap.at_ .illegalPrefix)

/-- Words of a pipe a bundle may hold (R38). -/
def pipeLimit : PipeClass → Nat
  | .s => 1 | .v => 2 | .m => 1 | .c => 2

/-- The matrix words that occupy the array (R206). -/
def Instr.usesArray : Instr → Bool
  | .mxLdb .. | .mxLdbs .. | .mxRun .. | .mxPair .. => true
  | _ => false

/-- The amplitude data instructions (R360). -/
def Instr.isAmpData : Instr → Bool
  | .ampInit .. | .ampMap .. | .ampSwap .. | .ampGate .. | .ampDiag .. | .ampNorm .. | .ampProb .. => true
  | _ => false

/-- ILLEGAL_BUNDLE of a word, `before` the operation words ahead of it: pipe limits (R38), transfers and loops in a delay
bundle (R140), a V pipe in use (R167), the array in use (R206), an amplitude instruction not complete (R361). The last four have
no place in R59's order: that they are tested word by word with the pipe limits, before ILLEGAL_TARGET, is the model's choice
(log 85). -/
def Core.badIssue (c : Core) (before : List PipeClass) (i : Instr) : Bool :=
  match i.pipe with
  | none => false
  | some p =>
    let n := (before.filter fun q => q == p).length
    pipeLimit p ≤ n ||
    (c.a.taken.isSome && i.isTransferOrLoop) ||
    (p == .v && c.now < (if n == 0 then c.a.v0Free else c.a.v1Free)) ||
    (Instr.usesArray i && c.now < c.a.arrayFree) ||
    (Instr.isAmpData i && c.a.ampBusy.any fun e => c.now < e.1)

def Core.issueTrap (c : Core) : List PipeClass → List BWord → Option Trap
  | _, [] => none
  | before, x :: xs =>
    match x.instr? with
    | some i =>
      if c.badIssue before i then some (Trap.at_ .illegalBundle x.addr)
      else c.issueTrap (before ++ i.pipe.toList) xs
    | none => c.issueTrap before xs

/-- The offset of a branch-class word (R47). -/
def Instr.offset? : Instr → Option (BitVec 15)
  | .br _ o | .brz _ _ o | .brnz _ _ o | .call _ o | .loop _ _ o | .loopf _ _ o => some o
  | _ => none

/-- ILLEGAL_TARGET of a target formed from an offset (R47). -/
def Core.slotTarget (c : Core) (x : BWord) : Option Trap :=
  match x.instr?.bind Instr.offset? with
  | none => none
  | some o =>
    match targetOk ({ c with cx := { c.cx with word := x.addr, imm := x.imm } }.target o) with
    | .ok _ => none
    | .error t => some t

/-- R37: the twelfth word is chained. -/
def lengthTrap (ws : List (Nat × Word)) : Option Trap :=
  match ws[11]? with
  | some (a, w) => if w.msb then some (Trap.at_ .illegalBundle a) else none
  | none => none

/-- The first fault of a fetched bundle in the order of R59. -/
def Core.bundleTrap (c : Core) (ws : List (Nat × Word)) : Option Trap :=
  let xs := annotate none none ws
  lengthTrap ws <|> classTrap .illegalOp BWord.badOp xs <|> classTrap .illegalField c.badField xs <|>
    classTrap .illegalPort BWord.badPort xs <|> prefixTrap xs <|> c.issueTrap [] xs <|> xs.findSome? c.slotTarget

/-- The first of some reservations beyond its destination's depth; `taken` are the destinations reserved before it. -/
def Core.overflowIn (c : Core) (taken : List Port) : List Item → Option Trap
  | [] => none
  | i :: is =>
    match i.dst with
    | none => c.overflowIn taken is
    | some p =>
      let held := (c.a.landed p).length + (taken.filter fun q => q == p).length
      if p.depth ≤ held then some (Trap.at_ .queueOverflow i.word) else c.overflowIn (p :: taken) is

/-- QUEUE_OVERFLOW of the bundle: its reservations follow all its reads and all earlier reservations (R105, R108). -/
def Core.overflow (c : Core) : Option Trap :=
  let old := c.a.inflight.filter fun i => i.issue != c.now
  c.overflowIn (old.filterMap Item.dst) (c.a.inflight.filter fun i => i.issue == c.now)

/-! ## Loop closure and redirection -/

/-- Put the FMTSEL value of a `loopf` in force at the LT after the bundle (R146). -/
def Core.setLoopFmt (c : Core) (v : BitVec 4) : Core := c.later .s (c.now + 1) none (.loopFmtsel v)

/-- Pop a loop entry, restoring FMTSEL for a `loopf` (R146). -/
def Core.popLoop (c : Core) (e : LoopEntry) (rest : List LoopEntry) : Core :=
  let c := { c with a := { c.a with loops := rest } }
  match e.fmt with
  | some (_, _, saved) => c.setLoopFmt saved
  | none => c

/-- Close the loops that end at the bundle, innermost first: the entry whose count stays nonzero, which then has its next iteration
before it (R143, R144). -/
def Core.closeLoops (c : Core) (first last : Nat) : List LoopEntry → Core × Option LoopEntry
  | [] => (c, none)
  | e :: rest =>
    if first ≤ e.last && e.last ≤ last then
      if e.count ≤ 1 then (c.popLoop e rest).closeLoops first last rest
      else
        let e := { e with count := e.count - 1, fmt := e.fmt.map (fun (b, i, s) => (b, i + 1, s)), fresh := e.fmt.isSome }
        ({ c with a := { c.a with loops := e :: rest } }, some e)
    else (c, none)

/-- A taken branch pops the entries whose range excludes its target (R145). -/
def Core.popOutside (c : Core) (t : Nat) : List LoopEntry → Core
  | [] => c
  | e :: rest => if t < e.start || e.last < t then (c.popLoop e rest).popOutside t rest else c

/-- The innermost entry with a format base sets FMTSEL at the first bundle of its iteration: the next one, where it stands in the body
(R146). -/
def Core.startIteration (c : Core) : Core :=
  let at_ (e : LoopEntry) : Bool := e.fresh && e.start ≤ c.a.pc && c.a.pc ≤ e.last
  match c.a.loops.find? fun e => e.fmt.isSome with
  | none => c
  | some e => match e.fmt with
    | some (b, i, _) =>
      if at_ e then
        { c with a := { c.a with loops := c.a.loops.map fun x => if x == e then { e with fresh := false } else x } }.setLoopFmt
          (b + BitVec.ofNat 4 i)
      else c
    | none => c

/-- The next bundle stands at an address. -/
def Core.goTo (c : Core) (t : Nat) (entry : Entry) : Core := { c with a := { c.a with pc := t, entry := entry } }

/-- Where the next bundle stands once a bundle has issued: delay bundles and redirection (R139), a loop passed over (R143),
loop closures, of which a redirection or a delay bundle takes the place (R145). `pushed` says that the bundle pushed a
loop, which then is the innermost and has its body still ahead. Where a bundle that closes a body also passes over a loop or
takes a transfer, the count goes down and the loop or the transfer decides where the next bundle stands: the model's choice
(log 83). -/
def Core.redirect (c : Core) (pushed : Bool) : Core :=
  let (c, again) := if pushed then (c, none) else c.closeLoops c.cx.bundle c.cx.last c.a.loops
  match c.a.taken, c.cx.jump with
  | some (t, 1, pops), _ =>
    let c := if pops then c.popOutside t c.a.loops else c
    { c with a := { c.a with taken := none } }.goTo t .direct
  | some (t, n, pops), _ => { c with a := { c.a with taken := some (t, n - 1, pops) } }.goTo c.cx.after .sequential
  | none, some (t, true, pops) => { c with a := { c.a with taken := some (t, 2, pops) } }.goTo c.cx.after .sequential
  | none, some (t, false, _) => c.goTo t .direct
  | none, none => match again with
    | some e => c.goTo e.start .direct
    | none => c.goTo c.cx.after .sequential

/-- A core moves to its next bundle; the iteration of a `loopf` that begins there, by whatever way, has its FMTSEL (R146). -/
def Core.advance (c : Core) (pushed : Bool) : Core := (c.redirect pushed).startIteration

end Sys2Proof.Machine
end

