-- ==== Sys2Proof/Machine/AmpEngine.lean ====
section
/-! DEFINITION. The amplitude engine between issue and completion (R353-R364): transpositions, exchanges chunk by chunk, the
arithmetic of gates, diagonals, norms and marginals, and the replay log. -/
namespace Sys2Proof.Machine

/-! ## Exchanges (R353, R355) -/

/-- An index with two bits exchanged (R353). -/
def swapBits (o a b : Nat) : Nat :=
  if bit o a == bit o b then o else o ^^^ (2 ^ a ||| 2 ^ b)

/-- A local transposition of a slice. -/
def localSwap (xs : List Nat) (a b : Nat) : List Nat := (upto xs.length).map fun o => xs.getD (swapBits o a b) 0

/-- The offsets a core of rank r sends in a transposition, ascending, and the rank it exchanges with (R353). -/
def outgoing (no size r : Nat) (t : Nat × Nat) : List Nat × Nat :=
  let lo := Nat.min t.1 t.2
  let hi := Nat.max t.1 t.2
  if lo < no then ((upto size).filter fun o => bit o lo != bit r (hi - no), r ^^^ 2 ^ (hi - no))
  else if bit r (lo - no) != bit r (hi - no) then (upto size, swapBits r (lo - no) (hi - no))
  else ([], r)

/-- Elements of a 4 KiB chunk. -/
def AmpDesc.chunkLen (d : AmpDesc) : Nat := 4096 / d.es

/-- The offsets of chunk j. -/
def AmpDesc.chunkOf (d : AmpDesc) (offs : List Nat) (j : Nat) : List Nat := (offs.drop (j * d.chunkLen)).take d.chunkLen

/-- The number of chunks of an exchange. -/
def AmpDesc.chunks (d : AmpDesc) (offs : List Nat) : Nat := ceilDiv offs.length d.chunkLen

/-- Write elements at offsets. -/
def putElems : List Nat → List (Nat × Nat) → List Nat
  | xs, [] => xs
  | xs, (o, v) :: r => putElems (xs.set o v) r

/-! ## Arithmetic (R356-R358) -/

/-- round of an exact sum of products, RNE (R356). -/
def sumProducts (t : Nat) (ps : List (Num × Flags)) : Nat × Flags :=
  let clash := ps.any fun p => p.2 != 0
  let pos := ps.any fun p => match p.1 with | .inf n => !n | _ => false
  let neg := ps.any fun p => match p.1 with | .inf n => n | _ => false
  let f := Flags.when (clash || (pos && neg)) Flags.invalid
  if clash || (pos && neg) || ps.any fun p => p.1.isNan then ((ffOf t).cnan, f)
  else
    let s := match ps with
      | [] => Num.zero
      | p :: r => r.foldl (fun s q => (addNum 0 s q.1).1) p.1
    let (c, g) := (ffOf t).round 0 s
    (c, f ||| g)

/-- Parts of a complex code. -/
def rePart (t x : Nat) : Num := valOf t (bitsOf x 0 (widthOf t))
def imPart (t x : Nat) : Num := valOf t (bitsOf x (widthOf t) (widthOf t))

/-- A product, negated where asked. -/
def prodOf (sub : Bool) (a b : Num) : Num × Flags :=
  let (p, f) := mulNum a b
  (if sub then p.negate else p, f)

/-- Σ u × a over pairs of complex codes, each part rounded once (R356). -/
def complexDot (t : Nat) (us : List (Nat × Nat)) : Nat × Flags :=
  let re := us.flatMap fun (u, a) =>
    [prodOf false (rePart t u) (rePart t a), prodOf true (imPart t u) (imPart t a)]
  let im := us.flatMap fun (u, a) =>
    [prodOf false (rePart t u) (imPart t a), prodOf false (imPart t u) (rePart t a)]
  let (x, f) := sumProducts t re
  let (y, g) := sumProducts t im
  (x + y <<< widthOf t, f ||| g)

/-- The value of a position: an offset bit or a rank bit (R356, R357). -/
def posBit (no r o p : Nat) : Bool := if p < no then bit o p else bit r (p - no)

/-- Whether every control reads 1 (R356). -/
def controlsOn (m : SysRegs) (no n r o : Nat) (cm : BitVec 64) : Bool :=
  (upto n).all fun q => !cm.getLsbD q || posBit no r o (m.qpos q)

/-- The number the target bits of an offset spell (R356). -/
def spell (m : SysRegs) (no r o : Nat) (ts : List Nat) : Nat := ofBits (ts.map fun t => posBit no r o (m.qpos t))

/-- The offset whose target bits spell c (R356). -/
def respell (m : SysRegs) (o c : Nat) : Nat → List Nat → Nat
  | _, [] => o
  | j, t :: ts =>
    let o' := respell m o c (j + 1) ts
    if bit o' (m.qpos t) == bit c j then o' else o' ^^^ 2 ^ m.qpos t

/-- Element i of a popped matrix (R359). -/
def matrixElem (es : Nat) (u : List Val) (i : Nat) : Nat := elem (ofDigits 2048 (u.map fun v => v.bits.toNat)) (8 * es) i

/-- s_e of R358. -/
def normElem (t x : Nat) : Nat × Flags :=
  let (s, f) := addNum 0 (prodOf false (rePart t x) (rePart t x)).1 (prodOf false (imPart t x) (imPart t x)).1
  let (c, g) := FF.fp64.round 0 s
  (c, f ||| g)

/-- The sum of R358 over some elements. -/
def normSum (t fuel : Nat) (xs : List Nat) : Nat × Flags :=
  let es := xs.map (normElem t)
  let (c, f) := treeSum 10 0 fuel (es.map Prod.fst)
  (c, f ||| Flags.union (es.map Prod.snd))

/-- Both parts times a factor, each rounded once (R370). -/
def scaleElem (t : Nat) (f : Num) (x : Nat) : Nat × Flags :=
  let one (v : Num) : Nat × Flags :=
    let (p, g) := mulNum v f
    let (c, h) := (ffOf t).round 0 p
    (c, g ||| h)
  let (re, a) := one (rePart t x)
  let (im, b) := one (imPart t x)
  (re + im <<< widthOf t, a ||| b)

/-- What an operation does to a slice once its transpositions are done: new codes, result, flags. -/
def applyOp (d : AmpDesc) (m : SysRegs) (r : Nat) (op : AmpOp) (xs : List Nat) : List Nat × Nat × Flags :=
  let t := d.part
  let offs := upto xs.length
  match op with
  | .init true => ((upto d.size).map fun o => if o == 0 && r == 0 then (ffOf t).round 0 (.fin (.ofNat 1 0)) |>.1 else 0, 0, 0)
  | .init false | .map _ | .swap _ _ => (xs, 0, 0)
  | .gate ts cm u =>
    let k := ts.length
    let out := (xs.zip offs).map fun (x, o) =>
      if controlsOn m d.no d.n r o cm then
        let row := spell m d.no r o ts
        complexDot t ((upto (2 ^ k)).map fun c => (matrixElem d.es u (row * 2 ^ k + c), xs.getD (respell m o c 0 ts) 0))
      else (x, 0)
    (out.map Prod.fst, 0, Flags.union (out.map Prod.snd))
  | .diag ts cm u =>
    let out := (xs.zip offs).map fun (x, o) =>
      if controlsOn m d.no d.n r o cm then cmul t (matrixElem d.es u (spell m d.no r o ts)) x else (x, 0)
    (out.map Prod.fst, 0, Flags.union (out.map Prod.snd))
  | .norm f _ =>
    let (v, g) := normSum t (d.no + 1) xs
    match f with
    | none => (xs, v, g)
    | some w =>
      let out := xs.map (scaleElem t (valOf 10 w.toNat))
      (out.map Prod.fst, v, g ||| Flags.union (out.map Prod.snd))
  | .prob q proj _ =>
    let on (o : Nat) : Bool := posBit d.no r o (m.qpos q)
    let (v, g) := normSum t (d.no + 1) (((xs.zip offs).filter fun e => on e.2).map Prod.fst)
    match proj with
    | none => (xs, v, g)
    | some b => ((xs.zip offs).map fun (x, o) => if on o == b then x else 0, v, g)

/-! ## The slice -/

/-- The element codes of the slice as it stands (R348). -/
def State.readSlice (s : State) (c : Core) (d : AmpDesc) : List Nat :=
  let bs := if d.hbm then s.hbmBytes (s.keyOfCore c) ((c.window (winOf d.base)).base + offOf d.base) d.bytes
    else readBytes c.spad d.base d.bytes
  digits (8 * d.es) d.size (ofBytes bs)

/-- The maximal runs of consecutive numbers of a rising list: first and length. -/
def runsOf : List Nat → List (Nat × Nat)
  | [] => []
  | o :: os => match runsOf os with
    | (f, n) :: rs => if o + 1 == f then (o, n + 1) :: rs else (o, 1) :: (f, n) :: rs
    | [] => [(o, 1)]

/-- Write a run of elements of a slice from offset o (R361). -/
def State.writeElems (s : State) (n : Nat) (d : AmpDesc) (o : Nat) (xs : List Nat) : State :=
  let c := s.core n
  let len := xs.length * d.es
  let v := ofDigits (8 * d.es) xs
  let a := d.base + o * d.es
  if d.hbm then
    let pa := (c.window (winOf d.base)).base + offOf a
    (s.crossRange (dieOf n) pa (toBytes len v) false).hbmWrite (s.keyOfCore c) pa (toBytes len v)
  else s.setCore n (c.storeWords a ((digits 32 (len / 4) v).map PWord.ofNat))

/-- Write a slice back (R361). An element that the instruction neither reads nor changes keeps its code, and its words what makes
them uncorrectable (R240, R363); `which` are the others, ascending. -/
def State.writeSlice (s : State) (n : Nat) (d : AmpDesc) (which : List Nat) (xs : List Nat) : State :=
  (runsOf which).foldl (fun s r => s.writeElems n d r.1 ((xs.drop r.1).take r.2)) s

/-- Offsets that a transposition moves (R353). -/
def movedBy (d : AmpDesc) (r : Nat) (t : Nat × Nat) : List Nat :=
  if Nat.max t.1 t.2 < d.no then (upto d.size).filter fun o => bit o t.1 != bit o t.2 else (outgoing d.no d.size r t).1

/-- The offsets of the group of a gate that holds offset b, whose bits at the target positions are 0, ascending (R356). -/
def groupAt (d : AmpDesc) (m : SysRegs) (ts : List Nat) (b : Nat) : List Nat :=
  ((upto d.no).filter fun p => ts.any fun t => m.qpos t == p).foldl (fun os p => os ++ os.map (· + 2 ^ p)) [b]

/-- Offsets that the operation itself reads once the transpositions are done, in the engine's order: the groups of a gate in
ascending offset (R364). -/
def opReads (d : AmpDesc) (m : SysRegs) (r : Nat) (op : AmpOp) : List Nat :=
  let all := upto d.size
  match op with
  | .gate ts cm _ => (all.filter fun o => controlsOn m d.no d.n r o cm && respell m o 0 0 ts == o).flatMap (groupAt d m ts)
  | .diag _ cm _ => all.filter fun o => controlsOn m d.no d.n r o cm
  | .norm _ _ => all
  | .prob q _ _ => all.filter fun o => posBit d.no r o (m.qpos q)
  | _ => []

/-- QMAP once the transpositions of an instruction are done (R353). -/
def AmpEntry.moved (e : AmpEntry) (m : SysRegs) : SysRegs := e.trans.foldl (fun m t => m.exchange t.1 t.2) m

/-- Offsets an instruction reads or moves: transpositions, then the operation (R363, R364). -/
def touched (d : AmpDesc) (m : SysRegs) (r : Nat) (e : AmpEntry) : List Nat :=
  e.trans.flatMap (movedBy d r) ++ opReads d (e.moved m) r e.op

/-- Offsets an instruction writes: those it reads or moves, every one for `amp.init` with ZERO = 1, and those that a projection
sets to +0 (R366, R370). -/
def written (d : AmpDesc) (m0 : SysRegs) (r : Nat) (e : AmpEntry) : List Nat :=
  let m := e.moved m0
  let reads := touched d m0 r e
  (upto d.size).filter fun o => reads.contains o || match e.op with
    | .init z => z
    | .prob q (some b) _ => posBit d.no r o (m.qpos q) != b
    | _ => false

/-- The first uncorrectable word of the element at an offset, with its kind (R363, R467). -/
def State.elemFault (s : State) (c : Core) (d : AmpDesc) (o : Nat) : Option (TrapCode × Nat) :=
  (upto (d.es / 4)).findSome? fun k =>
    let a := d.base + o * d.es + 4 * k
    if d.hbm then
      let pa := (c.window (winOf d.base)).base + offOf a
      if s.hbmBad.contains (pa / 64) then some (.uncorrectable, a) else none
    else
      let kd := (c.spadWord a).k
      if kd.poisoned then some (kd.code, a) else none

/-- The elements among some offsets with an uncorrectable word. -/
def State.badElems (s : State) (c : Core) (d : AmpDesc) (os : List Nat) : List (Nat × TrapCode × Nat) :=
  os.eraseDups.filterMap fun o => (s.elemFault c d o).map fun f => (o, f)

/-- The lowest word of the elements at some offsets of a slice whose pending bit is set for a write after LT x (R361). -/
def Core.lateWord (c : Core) (d : AmpDesc) (x : Nat) (os : List Nat) : Option Nat :=
  let late := (c.a.inflight.flatMap Item.writes).filter fun w => x < w.1 && meets d.base d.bytes w.2.1 w.2.2
  if late.isEmpty then none
  else (os.filterMap fun o =>
    let a := d.base + o * d.es
    (late.filterMap fun w => if meets a d.es w.2.1 w.2.2 then some (Nat.max a w.2.1 / 4 * 4) else none).min?).min?

/-- The first uncorrectable word that the engine meets as it reads some offsets in turn (R363). -/
def AmpEntry.meetsBad (e : AmpEntry) (os : List Nat) : Option (TrapCode × Nat) :=
  os.findSome? fun o => (e.bad.find? fun b => b.1 == o).map Prod.snd

/-! ## Progress -/

def Core.ampEntry? (c : Core) (id : Nat) : Option AmpEntry := c.ampLog.find? fun e => e.id == id

def Core.setAmpEntry (c : Core) (e : AmpEntry) : Core :=
  { c with ampLog := c.ampLog.map fun x => if x.id == e.id then e else x }

/-- The entry the engine is working on: one that a rewind left behind waits until its word has issued again, with the descriptor
and QMAP as the words before it leave them (R364). -/
def Core.ampActive (c : Core) : Option AmpEntry :=
  c.ampLog.find? fun e => e.live && !e.finished && e.fault.isNone && e.work.isSome

/-- The instruction whose span the core is in, its work done or not: until its completion LT a chunk can differ from its request
(R355). -/
def Core.ampCurrent (c : Core) : Option AmpEntry := c.ampLog.find? fun e => e.live && !e.ended && e.fault.isNone

/-- The physical core of a rank: `none` on another package, with its package and place there (R325). -/
def State.coreOfRank (s : State) (c : Core) (d : AmpDesc) (r : Nat) : Option Nat ⊕ (Nat × Nat) :=
  let g := s.ampGroup c d
  match findRank r (s.groupLists g) with
  | none => .inl none
  | some (p, k) =>
    if p != s.pkgnum.toNat then .inr (p, k)
    else .inl <| match g.locals[k]?, s.kernelOf c with
      | some l, some kr => kr.phys? l
      | _, _ => none

/-- Chunk j of a transposition as its sender makes it (R355). -/
def outChunk (d : AmpDesc) (r : Nat) (e : AmpEntry) (t : Nat × Nat) (offs xs : List Nat) (j : Nat) : AmpChunk :=
  { src := r, seq := e.seq, a := t.1, b := t.2, index := j, data := (d.chunkOf offs j).map fun o => xs.getD o 0 }

/-- The beats of a chunk (R318, R355). -/
def AmpDesc.chunkBeats (d : AmpDesc) (k : AmpChunk) : List Beat512 :=
  (digits 512 (ceilDiv (d.es * k.data.length) 64) (ofDigits (8 * d.es) k.data)).map (BitVec.ofNat 512)

/-- The chunks of a transposition leave for a member of another package (R318, R355). -/
def State.sendChunks (s : State) (d : AmpDesc) (p k : Nat) (cs : List AmpChunk) : State :=
  cs.foldl (fun s c => s.sendOut none (d.chunkBeats c) [.chunk p k c]) s

/-- Carry an entry on as far as it goes without a further chunk: local transpositions, finished exchanges, and at the end
the operation (R364). It stops before a transposition, a chunk or an operation that reads an uncorrectable word (R363). `fuel` bounds
the transpositions. -/
def State.ampAdvance (s : State) (n : Nat) : Nat → State
  | 0 => s
  | fuel + 1 =>
    let c := s.core n
    match c.ampActive with
    | none => s
    | some e =>
      let d := c.a.sys.amp
      let r := s.ampRank c d
      let xs := e.work.getD []
      let put (e : AmpEntry) : State := s.setCore n (c.setAmpEntry e)
      match e.trans[e.tdone]? with
      | none =>
        let m := e.moved c.a.sys
        match e.meetsBad (opReads d m r e.op) with
        | some f => put { e with fault := some f }
        | none =>
          let (ys, v, f) := applyOp d m r e.op xs
          put { e with work := some ys, result := BitVec.ofNat 64 v, flags := f, finished := true }
      | some t =>
        if Nat.max t.1 t.2 < d.no then
          match e.meetsBad (movedBy d r t) with
          | some f => put { e with fault := some f }
          | none => (put { e with work := some (localSwap xs t.1 t.2), tdone := e.tdone + 1 }).ampAdvance n fuel
        else
          let (offs, other) := outgoing d.no d.size r t
          let k := d.chunks offs
          let left := rangeFrom e.sent (k - e.sent)
          let clean := left.takeWhile fun j => (e.meetsBad (d.chunkOf offs j)).isNone
          let stop := (left.drop clean.length).head?.bind fun j => e.meetsBad (d.chunkOf offs j)
          if e.got == k then (put { e with tdone := e.tdone + 1, sent := 0, got := 0 }).ampAdvance n fuel
          else match s.coreOfRank c d other with
            | .inr (p, m) =>
              (put { e with sent := e.sent + clean.length, fault := stop }).sendChunks d p m (clean.map (outChunk d r e t offs xs))
            | .inl _ => if clean.isEmpty then put { e with fault := stop } else s

/-- The core's own request to a rank: the first transposition still to be finished that exchanges elements with it (R353,
R355). -/
def AmpEntry.requestTo (e : AmpEntry) (d : AmpDesc) (r src : Nat) : Option (Nat × Nat) :=
  (e.trans.drop e.tdone).find? fun t => d.no ≤ Nat.max t.1 t.2 &&
    (let o := outgoing d.no d.size r t; !o.1.isEmpty && o.2 == src)

/-- Whether the oldest chunk held from a rank differs from the core's own request to it (R355): in sequence number or
transposition; without such a request a chunk of this instruction or an earlier one differs, and one of a later one waits for its
request. That the test goes on to the completion LT, and no further, is the model's choice (log 141). -/
def AmpEntry.clashes (e : AmpEntry) (d : AmpDesc) (r : Nat) (buf : List AmpChunk) (k : AmpChunk) : Bool :=
  buf.find? (fun x => x.src == k.src) == some k && match e.requestTo d r k.src with
    | some t => k.seq != e.seq || (k.a, k.b) != t
    | none => k.seq ≤ e.seq

/-- Whether a chunk is the next one that the exchange in progress takes (R355). -/
def AmpEntry.takesNext (e : AmpEntry) (k : AmpChunk) : Bool :=
  k.seq == e.seq && e.trans[e.tdone]? == some (k.a, k.b) && k.index == e.got

/-- Record AMP_MAP for the instruction in whose span a core is, where it is the one with sequence number `seq` (R355). -/
def Core.ampMismatch (c : Core) (seq : Nat) : Core :=
  match c.ampCurrent with
  | some e => if e.seq == seq then c.setAmpEntry { e with fault := some (.ampMap, e.word) } else c
  | none => c

/-- Both cores of an exchange raise AMP_MAP, the sender of the differing chunk on this package or on another one (R355). -/
def State.ampRefuse (s : State) (n : Nat) (e : AmpEntry) (k : AmpChunk) : State :=
  let c := s.core n
  let s := s.setCore n { c.ampMismatch e.seq with ampBuf := c.ampBuf.erase k }
  match s.coreOfRank c c.a.sys.amp k.src with
  | .inl (some m) => (s.crossDie (dieOf n) (dieOf m) []).modCore m fun d => d.ampMismatch k.seq
  | .inl none => s
  | .inr (p, m) => s.sendOut none [] [.chunkDiffers p m k]

/-- Take from the exchange buffer what the transposition in progress can use, and refuse what differs from the request (R355). -/
def State.ampAbsorb (s : State) (n : Nat) : Nat → State
  | 0 => s
  | fuel + 1 =>
    let c := s.core n
    match c.ampCurrent with
    | none => s
    | some e =>
      match c.ampBuf.find? (e.clashes c.a.sys.amp (s.ampRank c c.a.sys.amp) c.ampBuf) with
      | some k => s.ampRefuse n e k
      | none =>
        match e.trans[e.tdone]? with
        | none => s
        | some t =>
          let d := c.a.sys.amp
          let r := s.ampRank c d
          match c.ampBuf.find? e.takesNext with
          | none => s
          | some k =>
            if e.sent ≤ e.got then s
            else
              let offs := d.chunkOf (outgoing d.no d.size r t).1 k.index
              let e := { e with work := e.work.map fun xs => putElems xs (offs.zip k.data), got := e.got + 1 }
              let s := s.setCore n ({ c.setAmpEntry e with ampBuf := c.ampBuf.erase k })
              (s.ampAdvance n (e.trans.length + 1)).ampAbsorb n fuel

/-- Advance and absorb. -/
def State.ampRun (s : State) (n : Nat) : State :=
  let k := match (s.core n).ampActive with | some e => e.trans.length + 1 | none => 0
  (s.ampAdvance n k).ampAbsorb n 64

/-- Whether the engine reaches its slice now, where the instruction reads or writes it at this LT: a slice in the HBM beside the other
die is behind the link (R320, log 100). -/
def State.ampReaches (s : State) (c : Core) (id : Nat) (uses : AmpEntry → Bool) : Bool :=
  let d := c.a.sys.amp
  !d.hbm || s.reaches c.die ((c.window (winOf d.base)).base + offOf d.base) d.bytes ||
  match c.ampEntry? id with
  | some e => e.fault.isSome || !uses e
  | none => true

/-- LT t + 1: the engine reads its slice, or continues an entry a rewind left behind, for which it reads the words again that it could
not read (R361, R363, R364); PENDING_READ in pending-bit mode for a word that it reads. -/
def State.ampStart (s : State) (n id : Nat) : Except Trap State :=
  let c := s.core n
  match c.ampEntry? id with
  | none => .ok s
  | some e =>
    if e.finished then .ok ((s.setCore n (c.setAmpEntry { e with live := true })).ampAbsorb n 64)
    else
      let d := c.a.sys.amp
      let r := s.ampRank c d
      let late := if !(c.dbgctl.getLsbD 0 && e.reads && !d.hbm) then none else c.lateWord d e.done_ (touched d c.a.sys r e)
      match late with
      | some a => .error (Trap.at_ .pendingRead a)
      | none =>
        let e := { e with live := true }
        let slice := s.readSlice c d
        let e := match e.work with
          | some xs =>
            let old := e.bad.map Prod.fst
            { e with work := some (putElems xs (old.map fun o => (o, slice.getD o 0))), bad := s.badElems c d old }
          | none =>
            if e.reads then { e with work := some slice, bad := s.badElems c d (touched d c.a.sys r e) }
            else match e.op with
              | .init true => { e with work := some [] }
              | _ => { e with finished := true }
        let s := if d.hbm && e.reads then
            s.crossRange (dieOf n) ((c.window (winOf d.base)).base + offOf d.base) (toBytes d.bytes (ofDigits (8 * d.es) slice)) true
          else s
        .ok ((s.setCore n (c.setAmpEntry e)).ampRun n)

/-- Whether a data instruction is ready at its completion LT (R16, R355). -/
def Core.ampReady (c : Core) (id : Nat) : Bool :=
  match c.ampEntry? id with
  | some e => e.finished || e.fault.isSome
  | none => true

/-- QMAP after an instruction (R353, R361, R366, R368). -/
def AmpEntry.mapAfter (e : AmpEntry) (r : SysRegs) : SysRegs :=
  let m := e.moved r
  match e.op with
  | .map l => l.foldl (fun m p => m.setQ p.1 p.2) m
  | .swap a b => (m.setQ a (m.qpos b)).setQ b (m.qpos a)
  | .init _ => { m with qmap := [] }
  | _ => m

/-- LT t + L: the slice, QMAP, the result with `l.a`, and the flags (R361, R364). -/
def State.ampEnd (s : State) (n id : Nat) : Except Trap State :=
  let c := s.core n
  match c.ampEntry? id with
  | none => .ok s
  | some e =>
    match e.fault with
    | some (code, a) => .error (Trap.at_ code a)
    | none =>
      let d := c.a.sys.amp
      let s := match e.work with | some xs => s.writeSlice n d (written d c.a.sys (s.ampRank c d) e) xs | none => s
      let c := (s.core n).setAmpEntry { e with work := none, ended := true }
      let m := e.mapAfter c.a.sys
      let a := { c.a with sys := { m with flags := m.flags ||| e.flags } }
      let v := Val.ofScalar e.result
      let a := match e.op with
        | .norm _ p | .prob _ _ p => (a.push p v).setLatch .a v
        | _ => a
      .ok (s.setCore n { c with a := a })

/-- Whether the exchange buffer of a core takes a chunk (R355): it holds sixteen chunks of 4 KiB, of which the last is kept for the
chunk that the exchange in progress takes next, so that chunks of later exchanges cannot shut it out (log 79). -/
def Core.ampRoom (c : Core) (k : AmpChunk) : Bool :=
  let next := match c.ampActive with | some e => e.takesNext k | none => false
  c.ampBuf.length + (if next then 0 else 1) < 16

/-- The chunks that the engines of this package may send to core n: each with its sender (R355). -/
def State.ampSenders (s : State) (n : Nat) : List (Nat × AmpChunk) :=
  (s.cores.map Prod.fst).filterMap fun m =>
    let c := s.core m
    match c.ampActive with
    | none => none
    | some e =>
      match e.trans[e.tdone]? with
      | none => none
      | some t =>
        let d := c.a.sys.amp
        if Nat.max t.1 t.2 < d.no then none
        else
          let r := s.ampRank c d
          let (offs, other) := outgoing d.no d.size r t
          match s.coreOfRank c d other with
          | .inl (some p) =>
            if p == n && m != n && e.sent < d.chunks offs then
              some (m, outChunk d r e t offs (e.work.getD []) e.sent)
            else none
          | _ => none

/-- The sender and chunk that arrive at core n next: one that its exchange in progress takes next, before any other (R355,
log 79). -/
def State.ampSender (s : State) (n : Nat) : Option (Nat × AmpChunk) :=
  let c := s.core n
  let open_ := (s.ampSenders n).filter fun e => c.ampRoom e.2
  let next := open_.find? fun x => match c.ampActive with | some e => e.takesNext x.2 | none => false
  next <|> open_.head?

end Sys2Proof.Machine
end

