-- ==== Sys2Proof/Machine/Matrix.lean ====
section
/-! DEFINITION. Matrix instructions (R196-R234). -/
namespace Sys2Proof.Machine

/-! ## Issue of a matrix word -/

/-- Issue on pipe M; poison it reads makes the trap a matrix trap (R216). -/
def issueM (i : Instr) (body : Body) (s : State) : Res :=
  issue i (fun s c => match body s c with
    | .ok c' => .ok c'
    | .error t => .error { t with matrix := true }) s

/-- The word is complete at issue LT + L: the exit rule of R210, and its suffix (R57). -/
def Core.matrixDone (c : Core) (lt : Nat) : Core :=
  ({ c with a := { c.a with mxBusy := c.a.mxBusy ++ [(lt, c.cx.word)] } }).retireAt lt

/-- ILLEGAL_BUNDLE while an earlier word occupies the array; then occupy it until LT F (R206). -/
def Core.claimArray (c : Core) (f : Nat) : Except Trap Core := do
  let _ ← c.need (c.a.arrayFree ≤ c.now) .illegalBundle
  .ok { c with a := { c.a with arrayFree := f } }

/-- The B record becomes the format of a B load (R224, R225). -/
def Core.setBRec (c : Core) (e : Nat) : Core :=
  { c with a := { c.a with brec :=
    { btype := BitVec.ofNat 4 (fBtype e), bcell := BitVec.ofNat 2 (fBcell e), sparse := BitVec.ofNat 2 (fSparse e) } } }

/-! ## Loads -/

/-- R224: 256 bytes at each LT from issue + 1. -/
def execMxLdb (ch : Bool) (a : Src) (s : State) : Res :=
  issueM (.mxLdb ch a) (fun _ c => do
    let e := c.fmt
    let (ctl, c) ← c.readS a
    let nk := fld ctl 38 32 + 1
    let k0 := fld ctl 30 24
    let addr := fld ctl 22 0
    let _ ← c.need (within ctl (ones 38 32 + ones 30 24 + ones 22 0) && k0 + nk ≤ 128 && addr % 64 == 0 &&
      addr + 2048 * nk ≤ spadSize) .range
    let chunks := upto (8 * nk)
    let _ ← c.readGuard (chunks.map fun o => (c.now + 1 + o, addr + 256 * o, 256))
    let c ← c.claimArray (c.now + 8 * nk)
    let c := chunks.foldl
      (fun c o => c.later .m (c.now + 1 + o) none (.ldbChunk (addr + 256 * o) (k0 + o / 8) (o % 8))) c
    .ok ((c.setBRec e).matrixDone (c.now + 8 * nk))) s

/-- R225: the entry is popped at issue and placed at issue + L. -/
def execMxLdbs (ch : Bool) (a : Src) (s : State) : Res :=
  issueM (.mxLdbs ch a) (fun _ c => do
    let e := c.fmt
    let (ctl, c) ← c.readS a
    let _ ← c.need (within ctl (ones 10 0)) .range
    let (v, c) ← c.readQueue .mxB false
    let f := c.now + 1 + cellWidth (fBcell e) / 4
    let c ← c.claimArray f
    .ok (((c.later .m f none (.ldbs (BitVec.ofNat 32 e) ctl.toNat v)).setBRec e).matrixDone f)) s

/-- R226 -/
def execMxLds (ch : Bool) (a b : Src) (s : State) : Res :=
  issueM (.mxLds ch a b) (fun _ c => do
    let (ctl, c) ← c.readS a
    let (v, c) ← c.readV b
    let side := fld ctl 0 0 == 1
    let g := fld ctl 17 8
    let _ ← c.need (within ctl (ones 17 8 + 1) && (side || g < 128)) .range
    .ok ((c.later .m (c.now + 4) none (.lds side g v)).matrixDone (c.now + 4))) s

/-- R227 -/
def execMxArow (ch : Bool) (a b : Src) (s : State) : Res :=
  issueM (.mxArow ch a b) (fun _ c => do
    let (v, c) ← c.readV a
    let (ctl, c) ← c.readS b
    let _ ← c.noPoison v.anyKind
    let _ ← c.need (within ctl 3 && (upto 64).all fun k => bitsOf (v.elem 32 k) 23 9 == 0 && v.elem 32 k % 64 == 0) .range
    .ok ((c.later .m (c.now + 4) none (.arow ctl.toNat v)).matrixDone (c.now + 4))) s

/-! ## Passes -/

/-- The two descriptors of a pass (R200, R201). -/
structure PassDesc where
  gath : Bool
  src : Bool
  nr : Nat
  stride : Nat
  addr : Nat
  asr : Nat
  acc : Nat

def PassDesc.ofWords (a c : W64) : PassDesc :=
  { gath := fld a 49 49 == 1, src := fld a 48 48 == 1, nr := fld a 47 40, stride := fld a 35 24, addr := fld a 22 0,
    asr := fld c 31 24, acc := fld c 13 0 }

/-- The address of A row i that is read from scratchpad; through the row list, as the list stands (R200). -/
def PassDesc.row (d : PassDesc) (m : Matrix) (i : Nat) : Nat :=
  if d.gath then SMap.get 0 m.list i else d.addr + 64 * d.stride * i

/-- What A row i of a pass is read through at its read LT (R200, R227). -/
def PassDesc.rowSrc (d : PassDesc) (c : Core) (i : Nat) : RowSrc :=
  if d.gath then .listed i c.a.bufs else .addr (d.addr + 64 * d.stride * i)

/-- The checks of R202 for `outs` output rows of Q accumulator rows and A rows of `rb` bytes. -/
def PassDesc.ok (d : PassDesc) (a c : W64) (outs q rb : Nat) : Bool :=
  within a (ones 49 40 + ones 35 24 + ones 22 0) && within c (ones 31 24 + ones 13 0) && d.addr % 64 == 0 &&
  !(d.src && d.gath) && (!d.src || (d.nr ≤ 1 && (d.nr == 0 || rb ≤ 256))) &&
  (d.gath || d.src || (upto (d.nr + 1)).all fun i => d.addr + 64 * d.stride * i + rb ≤ spadSize) &&
  d.acc + outs * q ≤ 16384

/-- Q: accumulator rows of an output row (R196). -/
def rowsPerOut (e : Nat) : Nat := 256 / cellWidth (fBcell e)

/-- R211: rows a pass with OVW targets are established; the first accumulating update of a row that is neither established
nor shadowed shadows it, 256 rows at most. -/
def Core.shadowRows (c : Core) (ovw : Bool) (rows : List Nat) : Except Trap Core :=
  if ovw then .ok { c with mx := { c.mx with established := c.mx.established ++ rows.filter fun r => !c.mx.established.contains r } }
  else
    let new := rows.filter fun r => !c.mx.established.contains r && (SMap.get none c.mx.shadow r).isNone
    if 256 < c.mx.shadow.length + new.length then .error (c.wordTrap .commitOverflow)
    else
      let sh := new.foldl (fun m r => SMap.set none m r (some (SMap.get .zero c.mx.acc r))) c.mx.shadow
      .ok { c with mx := { c.mx with shadow := sh } }

/-- Pop the A rows of SRC = 1 from `mx.a` (R200). -/
def Core.popRows (c : Core) (rb : Nat) : Nat → Except Trap (List (List PWord) × Core)
  | 0 => .ok ([], c)
  | n + 1 => do
    let (v, c) ← c.readQueue .mxA false
    if rb ≤ 256 then
      let (r, c) ← c.popRows rb n
      .ok (v.words (rb / 4) :: r, c)
    else
      let (w, c) ← c.readQueue .mxA false
      let (r, c) ← c.popRows rb n
      .ok ((v.words 64 ++ w.words 64) :: r, c)

/-- The flags of a pass are collected in an entry due at its completion (R203). -/
def Core.passFlags (c : Core) (lt : Nat) : Core := c.later .m lt none (.flags 0)

/-- The rows of a pass read from scratchpad: row i at LT `first` + i × wa, visible 11 + wa LTs later. -/
def Core.passRows (c : Core) (p : Pass) (first wa : Nat) (src : Nat → RowSrc) (n : Nat) : Core :=
  (upto n).foldl (fun c i => c.later .m (first + i * wa) none (.passRow p i (src i) (first + i * wa + wa + 11))) c

/-- R203, R228: a pass over the rows of one core. -/
def execMxRun (ch : Bool) (a b : Src) (s : State) : Res :=
  issueM (.mxRun ch a b) (fun _ c => do
    let e := c.fmt
    let (x, c) ← c.readS a
    let (y, c) ← c.readS b
    let d := PassDesc.ofWords x y
    let wa := planes (fAtype e)
    let q := rowsPerOut e
    let rb := aBytes (fAtype e) (fSparse e)
    let n := d.nr + 1
    let t := c.now
    let _ ← c.need (d.ok x y n q rb) .range
    let _ ← if d.src then .ok () else c.readGuard ((upto n).map fun i => (t + 1 + i * wa, d.row (c.listAt (t + 1 + i * wa)) i, rb))
    let c ← c.claimArray (t + n * wa)
    let ovw := c.a.sys.mxmode.getLsbD 0
    let p : Pass := { fmt := BitVec.ofNat 32 e, ovw := ovw, acc := d.acc, asr := d.asr }
    let c ← c.shadowRows ovw (rangeFrom d.acc (n * q))
    if d.src then
      let (rows, c) ← c.popRows rb n
      let vals := rows.zip (upto n) |>.map fun (r, i) => (passRow c.mx p i r, i)
      let c := vals.foldl
        (fun c (r, i) => c.later .m (t + (i + 1) * wa + 12) none (.accUpdate (d.acc + i * q) ovw r.checked r.rows)) c
      let f := Flags.union (vals.map fun v => v.1.flags)
      .ok ((c.later .m (t + n * wa + 12) none (.flags f)).matrixDone (t + n * wa + 12))
    else
      let c := c.passRows p (t + 1) wa (d.rowSrc c) n
      .ok ((c.passFlags (t + n * wa + 12)).matrixDone (t + n * wa + 12))) s

/-- R218, R219, R229: a pass over the rows of both cores of a logical pair. With GATH = 1 own row j is read through its row-list
entry at its own read LT, as `mx.run` reads its rows (R204, R227). The A scales, the A band and the B scales of a combined row are those
at the LT at which it streams, lr + 1 + i × wa: the model's choice (log 117). -/
def execMxPair (ch : Bool) (a b : Src) (s : State) : Res :=
  issueM (.mxPair ch a b) (fun s c => do
    let e := c.fmt
    let (x, c) ← c.readS a
    let (y, c) ← c.readS b
    let d := PassDesc.ofWords x y
    let wa := planes (fAtype e)
    let q := rowsPerOut e
    let rb := aBytes (fAtype e) (fSparse e)
    let h := d.nr + 1
    let t := c.now
    let lr ← c.targetLt (t + h + 16)
    let _ ← c.need (d.ok x y (2 * h) q rb) .range
    let _ ← c.need ((c.lcore ^^^ 1) < s.coreCount c && c.cx.entry && !d.src && h ≤ 128 && h * rb ≤ 32768) .range
    let _ ← c.need (t + h < lr) .timestamp
    let _ ← c.readGuard ((upto h).map fun j => (t + 1 + j, d.row (c.listAt (t + 1 + j)) j, rb))
    let c ← c.claimArray (lr + 2 * h * wa)
    let ovw := c.a.sys.mxmode.getLsbD 0
    let p : Pass := { fmt := BitVec.ofNat 32 e, ovw := ovw, acc := d.acc, asr := d.asr }
    let c ← c.shadowRows ovw (rangeFrom d.acc (2 * h * q))
    let seq := c.a.pseq
    let par := (lr, h, fAtype e, fSparse e)
    let c := { c with a := { c.a with pseq := seq + 1 } }
    let c := (upto h).foldl (fun c j => c.later .m (t + 1 + j) none
        (.pairRead j (d.rowSrc c j) rb seq par)) c
    let c := c.gate .m lr (.pairGate seq par)
    let even := c.lcore % 2 == 0
    let c := c.passRows p (lr + 1) wa (fun i => .pair (decide (i < h) == even) (i % h)) (2 * h)
    let done_ := lr + 2 * h * wa + 12
    .ok ((c.passFlags done_).matrixDone done_)) s

/-! ## Accumulator rows -/

/-- R230 -/
def execMxClr (ch : Bool) (a : Src) (s : State) : Res :=
  issueM (.mxClr ch a) (fun _ c => do
    let (ctl, c) ← c.readS a
    let first := fld ctl 13 0
    let n := fld ctl 29 16 + 1
    let _ ← c.need (within ctl (ones 29 16 + ones 13 0) && first + n ≤ 16384) .range
    let c ← c.shadowRows true (rangeFrom first n)
    let lt := c.now + 1 + ceilDiv n 64
    .ok ((c.later .m lt none (.accClear first n)).matrixDone lt)) s

/-- R230 -/
def execMxWr (ch : Bool) (a b : Src) (s : State) : Res :=
  issueM (.mxWr ch a b) (fun _ c => do
    let (v, c) ← c.readV a
    let (r, c) ← c.readS b
    let _ ← c.need (r.toNat < 16384) .range
    let c ← c.shadowRows true [r.toNat]
    .ok ((c.later .m (c.now + 8) none (.accWrite r.toNat v)).matrixDone (c.now + 8))) s

/-- The trap of reading poisoned rows (R208): the lowest of them, and the union of their kinds. -/
def Matrix.readTrap (m : Matrix) (rows : List Nat) : Option Trap :=
  let bad := rows.filter fun r => (SMap.get AccRow.zero m.acc r).k.poisoned
  match bad.min? with
  | none => none
  | some r =>
    some { Trap.at_ (Kind.joinAll (bad.map fun r => (SMap.get AccRow.zero m.acc r).k)).code r with matrix := true }

/-- R231 -/
def execMxRd (ch : Bool) (d : Port) (a : Src) (s : State) : Res :=
  issueM (.mxRd ch d a) (fun _ c => do
    let (r, c) ← c.readS a
    let _ ← c.need (r.toNat < 16384) .range
    match c.mx.readTrap [r.toNat] with
    | some t => .error t
    | none =>
      let v : Val := { bits := (SMap.get AccRow.zero c.mx.acc r.toNat).bits, ep := 0, sp := 0 }
      .ok ((c.deliver .m (some .m) d v 8).matrixDone (c.now + 8))) s

/-- One epilogue row: the codes of its 64 elements and their flags (R232). -/
def epiRow (e : Nat) (row : AccRow) : Nat × Flags :=
  let t := fEpit e
  let rs := (upto 64).map fun i => roundTo t (fRnd e) (activate (fAct e) (valOf 9 (elem row.bits.toNat 32 i)))
  (ofElems (widthOf t) (rs.map Prod.fst), Flags.union (rs.map Prod.snd))

/-- The checks of the operands of `mx.epi` (R232). -/
def epiOperandsOk (dest rows : W64) (bo : Nat) : Bool :=
  let off := fld dest 63 63 == 1
  let n := fld rows 25 16 + 1
  within dest (2 ^ 63 + if off then ones 47 0 else ones 22 0) && within rows (ones 25 16 + ones 13 0) &&
  fld rows 13 0 + n ≤ 16384 && fld dest 47 0 % bo == 0 && (off || fld dest 22 0 + n * bo ≤ spadSize)

/-- R232: rows to scratchpad at issue + 2 + j, or a held copy on q0 (R256). An `sfx.arv` arrives at issue LT + L, as R223 gives for
every word of its chapter (log 78). -/
def execMxEpi (ch : Bool) (a b : Src) (s : State) : Res :=
  issueM (.mxEpi ch a b) (fun _ c => do
    let e := c.fmt
    let (dest, c) ← c.readS a
    let (rows, c) ← c.readS b
    let bo := 8 * widthOf (fEpit e)
    let first := fld rows 13 0
    let n := fld rows 25 16 + 1
    let _ ← c.need (epiOperandsOk dest rows bo) .range
    match c.mx.readTrap (rangeFrom first n) with
    | some t => .error t
    | none =>
      let outs := (rangeFrom first n).map fun r => epiRow e (SMap.get AccRow.zero c.mx.acc r)
      let f := Flags.union (outs.map Prod.snd)
      let t := c.now
      let done_ := t + n + 2
      if fld dest 63 63 == 1 then
        let len := n * bo
        let w ← c.windowCheck (dest &&& BitVec.ofNat 64 (ones 47 0)) len fun w => w.wr
        let image := ofDigits (8 * bo) (outs.map Prod.fst)
        let beats := (upto (ceilDiv len 64)).map fun j =>
          c.newBeat (w + 64 * j) 0 (some { bits := BitVec.ofNat 512 (bitsOf image (512 * j) 512), bad := false })
        let c ← c.issueCopy .m 0 (.epi len) (some len) beats none
        .ok ((c.raiseAt .m (n + 2) f).matrixDone done_)
      else
        let addr := fld dest 22 0
        let _ ← c.writeGuard ((upto n).map fun j => (t + 2 + j, addr + bo * j, bo))
        let c := (outs.zip (upto n)).foldl
          (fun c (o, j) => c.later .m (t + 2 + j) none (.write (addr + bo * j) ((digits 32 (bo / 4) o.1).map PWord.ofNat))) c
        .ok ((c.raiseAt .m (n + 2) f).matrixDone done_)) s

/-! ## Signature and mode -/

/-- R233: RSIG is folded at issue and lands at issue + 4. -/
def execMxSig (ch : Bool) (d : Port) (a : Src) (s : State) : Res :=
  issueM (.mxSig ch d a) (fun _ c => do
    let (v, c) ← c.readS a
    let sig := c.a.sys.rsig.rotateLeft 1 ^^^ v
    let c := { c with a := { c.a with sys := { c.a.sys with rsig := sig } } }
    .ok ((c.deliver .m (some .m) d (Val.ofScalar sig) 4).matrixDone (c.now + 4))) s

/-- R234 -/
def execMxMode (ch : Bool) (d : Port) (h o : Bool) (s : State) : Res :=
  issueM (.mxMode ch d h o) (fun _ c =>
    let new : BitVec 2 := BitVec.ofNat 2 (ofBits [o, h])
    let c := c.later .m (c.now + 1) none (.setMxmode new)
    .ok ((c.deliver .m (some .m) d (Val.ofNat c.a.sys.mxmode.toNat) 1).matrixDone (c.now + 1))) s

end Sys2Proof.Machine
end

