-- ==== Sys2Proof/Machine/Scratchpad.lean ====
section
/-! DEFINITION. Scratchpad and atomic instructions (R235-R255). -/
namespace Sys2Proof.Machine

/-- R248: the address is base + off and the eight bytes are read one LT later. -/
def execLd (ch : Bool) (d : Port) (a : Src) (i : BitVec 8) (s : State) : Res :=
  issue (.ld ch d a i) (fun _ c => do
    let (b, c) ← c.readS a
    let x ← c.spadAddr (b + BitVec.ofInt 64 (c.immS 8 i.toNat)) 8 8
    let _ ← c.readGuard [(c.now + 1, x, 8)]
    .ok ((c.later .s (c.now + 1) (if Port.reserves d then some d else none) (.readScalar x d (c.now + 4))).retireAt (c.now + 1))) s

/-- R248: the eight bytes are written one LT later. -/
def execSt (ch : Bool) (a b : Src) (s : State) : Res :=
  issue (.st ch a b) (fun _ c => do
    let (x, c) ← c.readS a
    let (v, c) ← c.readS b
    let x ← c.spadAddr x 8 8
    let _ ← c.writeGuard [(c.now + 1, x, 8)]
    .ok ((c.later .s (c.now + 1) none (.write x (words64 v))).retireAt (c.now + 1))) s

/-- R249: the address is base + 64 × off and the 256 bytes are read one LT later. -/
def execVld (ch : Bool) (d : Port) (a : Src) (i : BitVec 8) (s : State) : Res :=
  issue (.vld ch d a i) (fun _ c => do
    let (b, c) ← c.readS a
    let x ← c.spadAddr (b + BitVec.ofInt 64 (64 * c.immS 8 i.toNat)) 64 256
    let _ ← c.readGuard [(c.now + 1, x, 256)]
    .ok ((c.later c.vPipe (c.now + 1) (if Port.reserves d then some d else none) (.readVec x d (c.now + 6))).retireAt
      (c.now + 1))) s

/-- R249: the 256 bytes of a vector are written one LT later with its poison. -/
def execVst (ch : Bool) (a b : Src) (s : State) : Res :=
  issue (.vst ch a b) (fun _ c => do
    let (v, c) ← c.readV a
    let (x, c) ← c.readS b
    let x ← c.spadAddr x 64 256
    let _ ← c.writeGuard [(c.now + 1, x, 256)]
    .ok ((c.later c.vPipe (c.now + 1) none (.write x (v.words 64))).retireAt (c.now + 1))) s

/-- The first `n` address lanes of a vector; a poisoned lane traps (R467). -/
def Core.lanes (c : Core) (v : Val) (n : Nat) : Except Trap (List Nat) := do
  let _ ← c.noPoison (Kind.joinAll ((upto n).map v.kind))
  .ok ((upto n).map (v.elem 32))

/-- Checked lanes: the address and OP of each lane that takes part (R247). -/
def Core.checkLanes (c : Core) (ls : List Nat) (align len : Nat) (opOk : Nat → Bool) :
    Except Trap (List (Option (Nat × BitVec 3))) := do
  let _ ← c.need (ls.all fun l => laneOff l || (laneOk l align len && opOk (laneOp l))) .range
  .ok (ls.map fun l => if laneOff l then none else some (laneAddr l, BitVec.ofNat 3 (laneOp l)))

/-- The addresses of the lanes that take part. -/
def laneAddrs (ls : List (Option (Nat × BitVec 3))) : List Nat := ls.filterMap fun l => l.map Prod.fst

/-- R250: one element per lane, read two LTs later. -/
def execVgath (ch : Bool) (d : Port) (a : Src) (s : State) : Res :=
  issue (.vgath ch d a) (fun _ c => do
    let w := widthOf (fVtype c.fmt)
    let (v, c) ← c.readV a
    let ls ← c.lanes v (2048 / w)
    let ls ← c.checkLanes ls (w / 8) (w / 8) (· == 0)
    let _ ← c.readGuard ((laneAddrs ls).map fun x => (c.now + 2, x, w / 8))
    .ok ((c.later c.vPipe (c.now + 2) (if Port.reserves d then some d else none)
      (.readLanes (w == 64) (ls.map fun l => l.map Prod.fst) d (c.now + 10))).retireAt (c.now + 2))) s

/-- The words of element i of width 32 or 64 of a vector. -/
def Val.elemWords (v : Val) (w i : Nat) : List PWord :=
  (rangeFrom (i * (w / 32)) (w / 32)).map fun k => { w := BitVec.ofNat 32 (v.elem 32 k), k := v.kind k }

/-- One write per lane that takes part, in ascending lane order. -/
def Core.scatter (c : Core) (p : Pipe) (lt w : Nat) (v : Val) : Nat → List (Option (Nat × BitVec 3)) → Core
  | _, [] => c
  | i, none :: ls => c.scatter p lt w v (i + 1) ls
  | i, some (x, _) :: ls => (c.later p lt none (.write x (v.elemWords w i))).scatter p lt w v (i + 1) ls

/-- R250: one element per lane, written two LTs later. -/
def execVscat (ch : Bool) (a b : Src) (s : State) : Res :=
  issue (.vscat ch a b) (fun _ c => do
    let w := widthOf (fVtype c.fmt)
    let (v, c) ← c.readV a
    let (l, c) ← c.readV b
    let ls ← c.lanes l (2048 / w)
    let ls ← c.checkLanes ls (w / 8) (w / 8) (· == 0)
    let _ ← c.writeGuard ((laneAddrs ls).map fun x => (c.now + 2, x, w / 8))
    .ok ((c.scatter c.vPipe (c.now + 2) w v 0 ls).retireAt (c.now + 2))) s

/-- R251: read at t + 1, written at t + 3, the old value at t + 4; the bank is held from t + 1 to t + 3 (R244). -/
def execAtom (ch : Bool) (d : Port) (a b : Src) (s : State) : Res :=
  issue (.atom ch d a b) (fun _ c => do
    let (desc, c) ← c.readS a
    let (v, c) ← c.readS b
    let wide := fld desc 23 23 == 1
    let n := if wide then 8 else 4
    let x := fld desc 22 0
    let _ ← c.need (within desc (ones 26 0) && fld desc 26 24 != 7 && x % n == 0) .range
    let _ ← c.atomicGuard [(c.now + 1, x, n)]
    let c ← c.openSlots (c.now + 1) (c.now + 3) [x]
    .ok ((c.later .s (c.now + 1) (if Port.reserves d then some d else none)
      (.readAtom (BitVec.ofNat 3 (fld desc 26 24)) wide x v d)).retireAt (c.now + 3))) s

/-- R252: read at t + 2, written at t + 4, the old values at t + 6; the banks are held from t + 2 to t + 4 (R244). -/
def execVatom (ch : Bool) (d : Port) (a b : Src) (s : State) : Res :=
  issue (.vatom ch d a b) (fun _ c => do
    let w := widthOf (fVtype c.fmt)
    let e := c.fmt
    let (l, c) ← c.readV a
    let (v, c) ← c.readV b
    let ls ← c.lanes l (2048 / w)
    let ls ← c.checkLanes ls (w / 8) (w / 8) (· != 7)
    let _ ← c.atomicGuard ((laneAddrs ls).map fun x => (c.now + 2, x, w / 8))
    let c ← c.openSlots (c.now + 2) (c.now + 4) (laneAddrs ls)
    .ok ((c.later c.vPipe (c.now + 2) (if Port.reserves d then some d else none)
      (.readVatom (BitVec.ofNat 32 e) ls v d)).retireAt (c.now + 4))) s

/-- One row read per destination row, at t + 2 + i (R253). -/
def Core.gatherRows (c : Core) (p : Pipe) (dest slen rb : Nat) : Nat → List (Option (Nat × BitVec 3)) → Core
  | _, [] => c
  | i, l :: ls =>
    (c.later p (c.now + 2 + i) none (.readRow (l.map Prod.fst) slen rb (dest + rb * i))).gatherRows p dest slen rb (i + 1) ls

/-- R253. Address lanes at or above NROWS take no part, as in vgath and vatom: their bits and their poison are ignored, the model's
choice (log 104). -/
def execRgath (ch : Bool) (d : Port) (a b : Src) (s : State) : Res :=
  issue (.rgath ch d a b) (fun _ c => do
    let e := c.fmt
    let wa := widthOf (fAtype e)
    let rb := aBytes (fAtype e) (fSparse e)
    let (l, c) ← c.readV a
    let (ctl, c) ← c.readS b
    let slen := fld ctl 40 32
    let rows := fld ctl 29 24 + 1
    let dest := fld ctl 22 0
    let n := slen * wa / 8
    let _ ← c.need (within ctl (ones 40 32 + ones 29 24 + ones 22 0) && slen % 8 == 0 && 8 ≤ slen && slen ≤ aCount (fSparse e)
      && dest % 64 == 0 && dest + rb * rows ≤ spadSize) .range
    let ls ← c.lanes l rows
    let ls ← c.checkLanes ls 4 n (· == 0)
    let _ ← c.need ((laneAddrs ls).all fun x => !meets x n dest (rb * rows)) .range
    let reads := (ls.zip (upto rows)).filterMap fun (l, i) => l.map fun e => (c.now + 2 + i, e.1, n)
    let writes := (upto rows).map fun i => (c.now + 3 + i, dest + rb * i, rb)
    let _ ← c.moveGuard reads writes
    let c := c.gatherRows c.vPipe dest n rb 0 ls
    let list := leadingWords ((upto rows).map fun i => dest + rb * i)
    .ok ((c.deliverV d list 0 10).retireAt (c.now + 2 + rows))) s
where
  /-- The vector whose first 32-bit lanes are given and whose others are zero. -/
  leadingWords (xs : List Nat) : Val := Val.ofNat (ofDigits 32 xs)

/-- A buffer descriptor's new word, in force and in `l.s` one LT later (R242, R254). -/
def Core.setBuf (c : Core) (n : Nat) (b : Buf) (filled : Nat) : Core :=
  ((c.later .s (c.now + 1) none (.bufSet n b.base b.size b.state)).deliverS .zero (bufWord b filled) 1)

/-- R254: BASE and SIZE, and the buffer EMPTY. -/
def execBdecl (ch : Bool) (n : BitVec 7) (a b : Src) (s : State) : Res :=
  issue (.bdecl ch n a b) (fun _ c => do
    let (base, c) ← c.readS a
    let (size, c) ← c.readS b
    let lo := base.toNat
    let len := 64 * size.toNat
    let _ ← c.need ((c.a.buf n.toNat).state == 0) .bufferState
    let _ ← c.need (lo % 64 == 0 && size.toNat ≤ 131072 && lo + len ≤ spadSize && lo < spadSize) .range
    let _ ← c.need (c.a.bufs.all fun (k, o) => k == n.toNat || o.size == 0 || size == 0 || !meets lo len o.base (64 * o.size)) .range
    .ok (c.setBuf n.toNat { base := lo, size := size.toNat, state := 0 } (SMap.get 0 c.filled n.toNat))) s

/-- The state a `bset` code leaves, for the state it starts from (R254). -/
def bsetTo (code state : Nat) : Option Nat :=
  match code, state with
  | 1, 0 => some 1
  | 2, 1 => some 2
  | 3, 2 => some 3
  | 4, 3 => some 0
  | 5, _ => some 0
  | _, _ => none

/-- R254: the buffer's state moves as the code says. -/
def execBset (ch : Bool) (n : BitVec 7) (k : BitVec 8) (s : State) : Res :=
  issue (.bset ch n k) (fun _ c =>
    let b := c.a.buf n.toNat
    match bsetTo k.toNat b.state with
    | none => .error (c.wordTrap .bufferState)
    | some st => .ok (c.setBuf n.toNat { b with state := st } (if k == 1 then 0 else SMap.get 0 c.filled n.toNat))) s

/-- R255: the descriptor in force, with FILLED as it physically stands. -/
def execBstat (ch : Bool) (d : Port) (n : BitVec 8) (s : State) : Res :=
  issue (.bstat ch d n) (fun _ c =>
    .ok (c.deliverS d (bufWord (c.a.buf n.toNat) (SMap.get 0 c.filled n.toNat)) 1)) s

end Sys2Proof.Machine
end

