-- ==== Sys2Proof/Machine/Sequence.lean ====
section
/-! DEFINITION. Sequence-unit instructions (R371-R385). -/
namespace Sys2Proof.Machine

/-- Number of a direction-number word and of a seed word in the table of uncorrectable ones. -/
def dirKey (d b : Nat) : Nat := d * 32 + b
def seedKey (d : Nat) : Nat := 2 ^ 16 + d

/-- The raw point of index i in dimension d (R372). -/
def SeqUnit.point (q : SeqUnit) (i d : Nat) : BitVec 32 :=
  let g := i ^^^ i >>> 1
  (upto 32).foldl (fun x b => if bit g b then x ^^^ SMap.get 0 q.v (dirKey d b) else x) 0

/-- R373: the nested-uniform hash. -/
def nus (x s : BitVec 32) : BitVec 32 :=
  let y := x.reverse + s
  let y := y ^^^ y * 0x5A3C96E2
  let y := y ^^^ y * 0xC13FA9A4
  let y := y ^^^ y * 0x2E8D7B58
  let y := y ^^^ y * 0x94D049BE
  y.reverse

/-- The scrambled point (R373). Mode 3, which only a debugger can have written (R380), scrambles as mode 2: the model's choice
(log 129). -/
def SeqUnit.scrambled (q : SeqUnit) (i d : Nat) : BitVec 32 :=
  let x := q.point i d
  let s := SMap.get 0 q.seed d
  match SMap.get 0 q.mode d with
  | 0 => x
  | 1 => x ^^^ s
  | _ => nus x s

/-- R374: (y >> 8) × 2^-24 as an FP32 code. -/
def pointFloat (y : BitVec 32) : Nat := (FF.fp32.roundEx 0 (.ofNat (y.toNat >>> 8) (-24))).1

/-- The lowest index of an uncorrectable direction-number word of a dimension that the point of index i reads: words at the
ones of its Gray code (R372, R378). -/
def SeqUnit.badWord (q : SeqUnit) (i d : Nat) : Option Nat :=
  (upto 32).find? fun b => bit (i ^^^ i >>> 1) b && q.bad.contains (dirKey d b)

/-- FAULTADDR of a SEQ_TABLE in a dimension that lanes read at some indices: unloaded, an uncorrectable seed word, the
uncorrectable direction-number word with the lowest b (R378). -/
def SeqUnit.cause (q : SeqUnit) (is : List Nat) (d : Nat) : Option Nat :=
  if !q.loaded.contains d then some (2 ^ 16 + d <<< 5)
  else if q.bad.contains (seedKey d) then some (2 ^ 15 + d <<< 5)
  else (is.filterMap fun i => q.badWord i d).min?.map fun b => d <<< 5 + b

/-- The trap of a read of the tables by enabled lanes: the lowest dimension with a cause is reported, and every dimension in
which a word read is uncorrectable loses its loaded bit (R378). That both go by the lanes of one word, so that of two words of a bundle
that fail the first alone is reported and clears, is the model's choice (log 138). -/
def SeqUnit.trap? (q : SeqUnit) (lanes : List (Nat × Nat)) : Option Trap :=
  let dims := lanes.foldl (fun ds e => if ds.contains e.2 then ds else ds ++ [e.2]) ([] : List Nat)
  let spoilt := lanes.filter fun (i, d) => q.bad.contains (seedKey d) || (q.badWord i d).isSome
  (dims.findSome? fun d => q.cause ((lanes.filter fun e => e.2 == d).map Prod.fst) d).map fun f =>
    { Trap.at_ .seqTable f with dims := spoilt.map Prod.snd }

/-- The index and dimension of each enabled lane (R376). -/
def seqLanes (base off dim nl : Nat) (lmode : Bool) : List (Nat × Nat) :=
  (upto nl).map fun j => if lmode then (base + off, dim + j) else (base + off + j, dim)

/-- R384 with R376-R378: one vector of points. -/
def Core.generate (c : Core) (d : Port) (a b : Src) (code : BitVec 32 → Nat) : Except Trap Core := do
  let (ctl, c) ← c.readS a
  let (off, c) ← c.readS b
  let _ ← c.need (within ctl (ones 9 0 + ones 12 12 + ones 21 16)) .range
  let lanes := seqLanes c.a.sys.seqbase.toNat off.toNat (fld ctl 9 0) (fld ctl 21 16 + 1) (fld ctl 12 12 == 1)
  let _ ← c.need (lanes.all fun (i, m) => i < 2 ^ 32 && m < 1024) .range
  match c.seq.trap? lanes with
  | some t => .error t
  | none => .ok (c.deliver c.vPipe (some .q) d (Val.ofNat (ofDigits 32 (lanes.map fun (i, m) => code (c.seq.scrambled i m)))) 6)

/-- R384 -/
def execQrGen (ch : Bool) (d : Port) (a b : Src) (s : State) : Res :=
  issue (.qrGen ch d a b) (fun _ c => c.generate d a b BitVec.toNat) s

/-- R384 -/
def execQrGenf (ch : Bool) (d : Port) (a b : Src) (s : State) : Res :=
  issue (.qrGenf ch d a b) (fun _ c => c.generate d a b pointFloat) s

/-- R382 -/
def execQrTab (ch : Bool) (a b : Src) (s : State) : Res :=
  issue (.qrTab ch a b) (fun _ c => do
    let (v, c) ← c.readV a
    let (ctl, c) ← c.readS b
    let two := fld ctl 16 16 == 1
    let dim := fld ctl 9 0
    let _ ← c.need (within ctl (ones 9 0 + ones 16 16) && dim + fld ctl 16 16 ≤ 1023) .range
    let lt := c.now + if two then 6 else 4
    .ok ((c.later c.vPipe lt none (.qrTab dim two v)).retireAt lt)) s

/-- R383 -/
def execQrSeed (ch : Bool) (a b : Src) (s : State) : Res :=
  issue (.qrSeed ch a b) (fun _ c => do
    let (v, c) ← c.readV a
    let (ctl, c) ← c.readS b
    let dim := fld ctl 9 0
    let mode := fld ctl 17 16
    let n := fld ctl 29 24 + 1
    let _ ← c.need (within ctl (ones 9 0 + ones 17 16 + ones 29 24) && mode != 3 && dim + n ≤ 1024) .range
    .ok ((c.later c.vPipe (c.now + 4) none (.qrSeed dim mode n v)).retireAt (c.now + 4))) s

/-- R385 -/
def execQrSkip (ch : Bool) (d : Port) (a b : Src) (s : State) : Res :=
  issue (.qrSkip ch d a b) (fun _ c => do
    let (v, c) ← c.readS a
    let (m, c) ← c.readS b
    let n := if m.getLsbD 0 then c.a.sys.seqbase.toNat + v.toNat else v.toNat
    let _ ← c.need (within m 1 && n < 2 ^ 32) .range
    let x := BitVec.ofNat 64 n
    .ok ((c.later c.vPipe (c.now + 1) none (.sysWrite 0x0C x)).deliver c.vPipe (some .q) d (Val.ofScalar x) 1)) s

/-! ## Effects at the completion LT (R377, R381) -/

/-- Mark or clear a word of the sequence unit. -/
def SeqUnit.mark (q : SeqUnit) (key : Nat) (bad : Bool) : SeqUnit :=
  let l := q.bad.filter fun k => k != key
  { q with bad := if bad then key :: l else l }

/-- One dimension's direction numbers from lanes `from_` on (R382). -/
def SeqUnit.loadDim (q : SeqUnit) (dim from_ : Nat) (v : Val) : SeqUnit :=
  let q := (upto 32).foldl
    (fun q b => ({ q with v := SMap.set 0 q.v (dirKey dim b) (BitVec.ofNat 32 (v.elem 32 (from_ + b))) }).mark (dirKey dim b)
      (v.kind (from_ + b)).poisoned) q
  { q with loaded := if q.loaded.contains dim then q.loaded else dim :: q.loaded }

def SeqUnit.load (q : SeqUnit) (dim : Nat) (two : Bool) (v : Val) : SeqUnit :=
  let q := q.loadDim dim 0 v
  if two then q.loadDim (dim + 1) 32 v else q

/-- Scramble modes and seeds of `n` dimensions (R383). -/
def SeqUnit.loadSeeds (q : SeqUnit) (dim mode n : Nat) (v : Val) : SeqUnit :=
  (upto n).foldl
    (fun q j => ({ q with mode := SMap.set 0 q.mode (dim + j) mode
                          seed := SMap.set 0 q.seed (dim + j) (BitVec.ofNat 32 (v.elem 32 j)) }).mark (seedKey (dim + j))
      (v.kind j).poisoned) q

end Sys2Proof.Machine
end

