-- ==== Sys2Proof/Machine/Vector.lean ====
section
/-! DEFINITION. Vector instructions (R165-R183). -/
namespace Sys2Proof.Machine

/-- A vector result with the union of the flags of its elements (R93). -/
abbrev VecRes := Val × Flags

/-- The vector whose element i of width w is `f i`, with flags and poison. -/
def vecOf (w : Nat) (f : Nat → (Nat × Flags) × Kind) : VecRes :=
  let es := (upto (2048 / w)).map f
  (Val.ofElems w (es.map fun e => (e.1.1, e.2)), Flags.union (es.map fun e => e.1.2))

/-- Element by element over two vectors (R173). -/
def zipElems (w : Nat) (a b : Val) (f : Nat → Nat → Nat × Flags) : VecRes :=
  vecOf w fun i => (f (a.elem w i) (b.elem w i), (a.elemKind w i).join (b.elemKind w i))

/-- Element by element over one vector. -/
def mapElems (w : Nat) (a : Val) (f : Nat → Nat × Flags) : VecRes :=
  vecOf w fun i => (f (a.elem w i), a.elemKind w i)

/-- Latency of the arithmetic of R173 and R174: 2 for integer types, 4 otherwise. -/
def arithLat (t : Nat) : Nat := if isInt t then 2 else 4

/-- Read both vector operands and deliver a result in the element type in force. -/
def Core.vecBinary (c : Core) (d : Port) (a b : Src) (lat : Nat → Nat) (f : Nat → Nat → Nat → Nat → Nat × Flags) :
    Except Trap Core := do
  let t := fVtype c.fmt
  let rm := fRnd c.fmt
  let (x, c) ← c.readV a
  let (y, c) ← c.readV b
  let (r, g) := zipElems (widthOf t) x y (f t rm)
  .ok (c.deliverV d r g (lat t))

/-- Read the vector operand and deliver a result in the element type in force. -/
def Core.vecUnary (c : Core) (d : Port) (a : Src) (lat : Nat) (f : Nat → Nat → Nat → Nat × Flags) : Except Trap Core := do
  let t := fVtype c.fmt
  let rm := fRnd c.fmt
  let (x, c) ← c.readV a
  let (r, g) := mapElems (widthOf t) x (f t rm)
  .ok (c.deliverV d r g lat)

/-! ## The element functions of R173 -/

/-- Each part of a complex element by itself. -/
def eachPart (t x y : Nat) (f : Nat → Nat → Nat → Nat × Flags) : Nat × Flags :=
  let p := partOf t
  let w := widthOf p
  let (re, g) := f p (bitsOf x 0 w) (bitsOf y 0 w)
  let (im, h) := f p (bitsOf x w w) (bitsOf y w w)
  (re + im <<< w, g ||| h)

/-- round(x − y, t, rm). -/
def subCode (t rm x y : Nat) : Nat × Flags :=
  let (r, f) := addNum rm (valOf t x) (valOf t y).negate
  let (c, g) := roundTo t rm r
  (c, f ||| g)

def elemAdd (t rm x y : Nat) : Nat × Flags :=
  if isInt t then ((x + y) % 2 ^ widthOf t, 0)
  else if isComplex t then eachPart t x y fun p u v => addCode p rm u v
  else addCode t rm x y

def elemSub (t rm x y : Nat) : Nat × Flags :=
  if isInt t then ((x + 2 ^ widthOf t - y) % 2 ^ widthOf t, 0)
  else if isComplex t then eachPart t x y fun p u v => subCode p rm u v
  else subCode t rm x y

def elemMul (t rm x y : Nat) : Nat × Flags :=
  if isInt t then ((x * y) % 2 ^ widthOf t, 0)
  else if isComplex t then cmul (partOf t) x y
  else mulCode t rm x y

/-- Lesser or greater; NaN gives the canonical NaN (R173). -/
def elemMinMax (greater : Bool) (t : Nat) (x y : Nat) : Nat :=
  if isInt t then
    if greater then (if intVal t x < intVal t y then y else x) else (if intVal t y < intVal t x then y else x)
  else
    let a := valOf t x
    let b := valOf t y
    if a.isNan || b.isNan then (ffOf t).cnan
    else if greater then (if ltNum true a b then y else x) else (if ltNum true b a then y else x)

def elemAbs (t x : Nat) : Nat :=
  if isInt t then (if t == 1 then x else wrapInt ((intVal t x).natAbs : Nat) (widthOf t))
  else if (valOf t x).isNan then (ffOf t).cnan else bitsOf x 0 (widthOf t - 1)

def elemShl (t x y : Nat) : Nat := if widthOf t ≤ y then 0 else (x <<< y) % 2 ^ widthOf t

def elemShr (t x y : Nat) : Nat :=
  let v := intVal t x
  if widthOf t ≤ y then (if v < 0 then 2 ^ widthOf t - 1 else 0) else wrapInt (v / (2 : Int) ^ y) (widthOf t)

/-- R173 -/
def execVadd (ch : Bool) (d : Port) (a b : Src) (s : State) : Res :=
  issue (.vadd ch d a b) (fun _ c => c.vecBinary d a b arithLat elemAdd) s

/-- R173 -/
def execVsub (ch : Bool) (d : Port) (a b : Src) (s : State) : Res :=
  issue (.vsub ch d a b) (fun _ c => c.vecBinary d a b arithLat elemSub) s

/-- R173 -/
def execVmul (ch : Bool) (d : Port) (a b : Src) (s : State) : Res :=
  issue (.vmul ch d a b) (fun _ c => c.vecBinary d a b arithLat elemMul) s

/-- R173 -/
def execVmin (ch : Bool) (d : Port) (a b : Src) (s : State) : Res :=
  issue (.vmin ch d a b) (fun _ c => c.vecBinary d a b (fun _ => 2) fun t _ x y => (elemMinMax false t x y, 0)) s

/-- R173 -/
def execVmax (ch : Bool) (d : Port) (a b : Src) (s : State) : Res :=
  issue (.vmax ch d a b) (fun _ c => c.vecBinary d a b (fun _ => 2) fun t _ x y => (elemMinMax true t x y, 0)) s

/-- R173 -/
def execVabs (ch : Bool) (d : Port) (a : Src) (s : State) : Res :=
  issue (.vabs ch d a) (fun _ c => c.vecUnary d a 2 fun t _ x => (elemAbs t x, 0)) s

/-- R173 -/
def execVand (ch : Bool) (d : Port) (a b : Src) (s : State) : Res :=
  issue (.vand ch d a b) (fun _ c => c.vecBinary d a b (fun _ => 2) fun _ _ x y => (x &&& y, 0)) s

/-- R173 -/
def execVor (ch : Bool) (d : Port) (a b : Src) (s : State) : Res :=
  issue (.vor ch d a b) (fun _ c => c.vecBinary d a b (fun _ => 2) fun _ _ x y => (x ||| y, 0)) s

/-- R173 -/
def execVxor (ch : Bool) (d : Port) (a b : Src) (s : State) : Res :=
  issue (.vxor ch d a b) (fun _ c => c.vecBinary d a b (fun _ => 2) fun _ _ x y => (x ^^^ y, 0)) s

/-- R173 -/
def execVshl (ch : Bool) (d : Port) (a b : Src) (s : State) : Res :=
  issue (.vshl ch d a b) (fun _ c => c.vecBinary d a b (fun _ => 2) fun t _ x y => (elemShl t x y, 0)) s

/-- R173 -/
def execVshr (ch : Bool) (d : Port) (a b : Src) (s : State) : Res :=
  issue (.vshr ch d a b) (fun _ c => c.vecBinary d a b (fun _ => 2) fun t _ x y => (elemShr t x y, 0)) s

/-! ## Fused multiply-add (R174) -/

/-- a × b ± c of one element: wrapped for integers, rounded once otherwise. -/
def elemFma (sub : Bool) (t rm x y z : Nat) : Nat × Flags :=
  if isInt t then
    let m := 2 ^ widthOf t
    ((x * y + (if sub then m - z else z)) % m, 0)
  else
    let c := valOf t z
    let (v, f) := fmaNum rm (valOf t x) (valOf t y) (if sub then c.negate else c)
    let (r, g) := roundTo t rm v
    (r, f ||| g)

/-- Both sources are read, then the addend is popped from the destination (R107, R174). -/
def Core.fma (c : Core) (sub : Bool) (d : Port) (a b : Src) : Except Trap Core := do
  let t := fVtype c.fmt
  let rm := fRnd c.fmt
  let w := widthOf t
  let (x, c) ← c.readV a
  let (y, c) ← c.readV b
  let (z, c) ← c.readQueue d false
  let (r, g) := vecOf w fun i => (elemFma sub t rm (x.elem w i) (y.elem w i) (z.elem w i),
    ((x.elemKind w i).join (y.elemKind w i)).join (z.elemKind w i))
  .ok (c.deliverV d r g (arithLat t))

/-- R174 -/
def execVfma (ch : Bool) (d : Port) (a b : Src) (s : State) : Res :=
  issue (.vfma ch d a b) (fun _ c => c.fma false d a b) s

/-- R174 -/
def execVfms (ch : Bool) (d : Port) (a b : Src) (s : State) : Res :=
  issue (.vfms ch d a b) (fun _ c => c.fma true d a b) s

/-! ## Compare and select (R169, R175, R176) -/

def elemEq (t x y : Nat) : Bool := if isInt t then x == y else eqNum (valOf t x) (valOf t y)
def elemLt (t x y : Nat) : Bool := if isInt t then intVal t x < intVal t y else ltNum false (valOf t x) (valOf t y)

/-- A compare writes all ones or zeros to each element and its results to M; a poisoned operand traps (R171, R175). -/
def Core.vecCompare (c : Core) (d : Port) (a b : Src) (f : Nat → Nat → Nat → Bool) : Except Trap Core := do
  let t := fVtype c.fmt
  let w := widthOf t
  let (x, c) ← c.readV a
  let (y, c) ← c.readV b
  let _ ← c.noPoison (x.anyKind.join y.anyKind)
  let rs := (upto (2048 / w)).map fun i => f t (x.elem w i) (y.elem w i)
  let c := c.deliverV d (Val.ofElems w (rs.map fun r => (if r then 2 ^ w - 1 else 0, .clean))) 0 2
  .ok (c.later c.vPipe (c.now + 2) none (.setM (BitVec.ofNat 256 (ofBits rs))))

/-- R175 -/
def execVceq (ch : Bool) (d : Port) (a b : Src) (s : State) : Res :=
  issue (.vceq ch d a b) (fun _ c => c.vecCompare d a b elemEq) s

/-- R175 -/
def execVclt (ch : Bool) (d : Port) (a b : Src) (s : State) : Res :=
  issue (.vclt ch d a b) (fun _ c => c.vecCompare d a b elemLt) s

/-- `vsel` reads both sources and takes each element by M; the result carries the poison of both (R176). -/
def execVsel (ch : Bool) (d : Port) (a b : Src) (s : State) : Res :=
  issue (.vsel ch d a b) (fun _ c => do
    let w := widthOf (fVtype c.fmt)
    let m := c.a.m
    let (x, c) ← c.readV a
    let (y, c) ← c.readV b
    let (r, _) := vecOf w fun i => ((if m.getLsbD i then x.elem w i else y.elem w i, 0),
      (x.elemKind w i).join (y.elemKind w i))
    .ok (c.deliverV d r 0 2)) s

/-! ## Correctly rounded functions (R177) -/

/-- R177 -/
def execVrcp (ch : Bool) (d : Port) (a : Src) (s : State) : Res :=
  issue (.vrcp ch d a) (fun _ c => c.vecUnary d a 8 (fnCode .rcp)) s

/-- R177 -/
def execVrsq (ch : Bool) (d : Port) (a : Src) (s : State) : Res :=
  issue (.vrsq ch d a) (fun _ c => c.vecUnary d a 8 (fnCode .rsq)) s

/-- R177 -/
def execVexp2 (ch : Bool) (d : Port) (a : Src) (s : State) : Res :=
  issue (.vexp2 ch d a) (fun _ c => c.vecUnary d a 8 (fnCode .exp2)) s

/-- R177 -/
def execVlog2 (ch : Bool) (d : Port) (a : Src) (s : State) : Res :=
  issue (.vlog2 ch d a) (fun _ c => c.vecUnary d a 8 (fnCode .log2)) s

/-! ## Reductions (R179) -/

/-- The sum of the elements in the order of R100 and R179. -/
def sumElems (t rm : Nat) (xs : List Nat) : Nat × Flags :=
  if isInt t then (xs.foldl (· + ·) 0 % 2 ^ widthOf t, 0)
  else if isComplex t then
    let p := partOf t
    let w := widthOf p
    let (re, f) := treeSum p rm 16 (xs.map fun x => bitsOf x 0 w)
    let (im, g) := treeSum p rm 16 (xs.map fun x => bitsOf x w w)
    (re + im <<< w, f ||| g)
  else treeSum t rm 16 xs

/-- A vector whose leading elements are given and whose others are zero. -/
def leading (w : Nat) (es : List (Nat × Kind)) : Val :=
  Val.ofElems w (es ++ List.replicate (2048 / w - es.length) (0, .clean))

/-- R179 -/
def execVred (ch : Bool) (d : Port) (a : Src) (s : State) : Res :=
  issue (.vred ch d a) (fun _ c => do
    let t := fVtype c.fmt
    let rm := fRnd c.fmt
    let w := widthOf t
    let (x, c) ← c.readV a
    let (r, f) := sumElems t rm ((upto (2048 / w)).map (x.elem w))
    .ok (c.deliverV d (leading w [(r, x.anyKind)]) f 6)) s

/-- The maximum under the order of `vmax` and the lowest index at which it occurs; a NaN is reported first (R179). -/
def argMax (t : Nat) (xs : List Nat) : Nat × Nat :=
  if isInt t then
    let m := xs.tail.foldl (fun m x => if intVal t m < intVal t x then x else m) (xs.headD 0)
    (m, (findPos (· == m) xs).getD 0)
  else
    match findPos (fun x => (valOf t x).isNan) xs with
    | some k => ((ffOf t).cnan, k)
    | none =>
      let m := xs.tail.foldl (fun m x => if ltNum true (valOf t m) (valOf t x) then x else m) (xs.headD 0)
      (m, (findPos (· == m) xs).getD 0)

/-- R179 -/
def execVredx (ch : Bool) (d : Port) (a : Src) (s : State) : Res :=
  issue (.vredx ch d a) (fun _ c => do
    let t := fVtype c.fmt
    let w := widthOf t
    let (x, c) ← c.readV a
    let (m, k) := argMax t ((upto (2048 / w)).map (x.elem w))
    .ok (c.deliverV d (leading w [(m, x.anyKind), (k, x.anyKind)]) 0 6)) s

/-! ## Permutes (R180) -/

/-- R180 -/
def execVperm (ch : Bool) (d : Port) (a b : Src) (s : State) : Res :=
  issue (.vperm ch d a b) (fun _ c => do
    let w := widthOf (fVtype c.fmt)
    let n := 2048 / w
    let (x, c) ← c.readV a
    let (y, c) ← c.readV b
    .ok (c.deliverV d (Val.tabulate w fun i =>
      let j := y.elem w i % n
      (x.elem w j, (x.elemKind w j).join (y.elemKind w i))) 0 3)) s

/-- R180 -/
def execVlane (ch : Bool) (d : Port) (a b : Src) (s : State) : Res :=
  issue (.vlane ch d a b) (fun _ c => do
    let w := widthOf (fVtype c.fmt)
    let n := 2048 / w
    let (x, c) ← c.readV a
    let (k, c) ← c.readS b
    .ok (c.deliverV d (Val.tabulate w fun i =>
      let j := (i + n - k.toNat % n) % n
      (x.elem w j, x.elemKind w j)) 0 2)) s

/-! ## Compress (R181, R182) -/

/-- A field of a result: position, length, value and poison. -/
structure Field where
  lo : Nat
  len : Nat
  v : Nat
  k : Kind
  deriving DecidableEq, Repr

/-- The 2048-bit value whose fields are given; a word takes the kinds of the fields it holds a part of. -/
def Val.ofFields (fs : List Field) : Val :=
  Val.withKinds (fs.foldl (fun n f => n + (f.v % 2 ^ f.len) <<< f.lo) 0) fun k =>
    Kind.joinAll ((fs.filter fun f => f.k.poisoned && f.lo < 32 * k + 32 && 32 * k < f.lo + f.len).map Field.k)

/-- Whether |y| ranks strictly above |x|: a NaN above every number (R181). -/
def magBelow (t x y : Nat) : Bool :=
  let a := valOf t x
  let b := valOf t y
  if b.isNan then !a.isNan
  else if a.isNan then false
  else
    let pos (v : Num) : Num := if v.neg then v.negate else v
    ltNum false (pos a) (pos b)

/-- The indices a group keeps, ascending (R181). -/
def keepOf (t : Nat) (g : List Nat) : List Nat :=
  (upto g.length).filter fun i =>
    let x := g.getD i 0
    ((upto g.length).filter fun j =>
      let y := g.getD j 0
      magBelow t x y || (j < i && !magBelow t y x)).length < g.length / 2

/-- The fields of the `vcomp` result for one group (R182). -/
def compGroup (t G : Nat) (x : Val) (g : Nat) : List Field :=
  let w := widthOf t
  let b := if G == 4 then 2 else 3
  let f := b * G / 2
  let codes := (rangeFrom (g * G) G).map (x.elem w)
  let k := Kind.joinAll ((rangeFrom (g * G) G).map (x.elemKind w))
  let keep := keepOf t codes
  { lo := 1024 + f * g, len := f, v := ofDigits b keep, k := k } ::
    (upto (G / 2)).map fun j =>
      { lo := w * (g * (G / 2) + j), len := w, v := codes.getD (keep.getD j 0) 0, k := k }

/-- R181, R182 -/
def execVcomp (ch : Bool) (d : Port) (a : Src) (s : State) : Res :=
  issue (.vcomp ch d a) (fun _ c => do
    let t := fVtype c.fmt
    let G := if fSparse c.fmt == 1 then 4 else 8
    let (x, c) ← c.readV a
    let fs := ((upto (2048 / widthOf t / G)).map (compGroup t G x)).flatten
    .ok (c.deliverV d (Val.ofFields fs) 0 4)) s

/-! ## Hash (R183) -/

/-- One 32-bit lane of `vhash`. -/
def hashLane (x : Nat) (m : Nat) : Nat :=
  let h := (x * m) % 2 ^ 64
  (h ^^^ (h >>> 29)) >>> 32

/-- R183 -/
def execVhash (ch : Bool) (d : Port) (a b : Src) (s : State) : Res :=
  issue (.vhash ch d a b) (fun _ c => do
    let (x, c) ← c.readV a
    let (m, c) ← c.readS b
    .ok (c.deliverV d (Val.tabulate 32 fun i => (hashLane (x.elem 32 i) (m.toNat ||| 1), x.elemKind 32 i)) 0 3)) s

end Sys2Proof.Machine
end

