-- ==== Sys2Proof/Machine/Perform.lean ====
section
/-! DEFINITION. What an item in flight does at its LT (R16, R17, R203-R207, R219, R237-R241, R245, R260, R290, R311, R361): reads,
writes, landings and updates of one core. -/
namespace Sys2Proof.Machine

/-! ## Items that follow from an item -/

/-- Put an item in flight that continues another one: same word, issue LT, pipe and reserved slot. -/
def Core.follow (c : Core) (i : Item) (lt : Nat) (act : Act) : Core :=
  { c with a := { c.a with inflight := c.a.inflight ++ [{ i with lt := lt, ready := !c.slow, act := act }] } }

/-- The same without the reserved slot. -/
def Core.followFree (c : Core) (i : Item) (lt : Nat) (act : Act) : Core := c.follow { i with dst := none } lt act

/-- A read value on its way to its destination, and to the latch of its pipe (R109). -/
def Core.landFrom (c : Core) (i : Item) (d : Port) (v : Val) (lt : Nat) : Core :=
  c.follow i lt (.land d (some i.pipe.latch) v)

/-- Collect flags in the entry that carries a pass's flags to its completion (R203). -/
def Core.collectFlags (c : Core) (i : Item) (f : Flags) : Core :=
  { c with a := { c.a with inflight := c.a.inflight.map fun j =>
      match j.act with
      | .flags g => if j.word == i.word && j.issue == i.issue && j.pipe == i.pipe then { j with act := .flags (g ||| f) } else j
      | _ => j } }

/-! ## Checks of a read at its LT -/

/-- PENDING_READ in pending-bit mode, against what is in flight as the LT begins (R205, R239). -/
def Core.pendingCheck (c : Core) (i : Item) (x lo len : Nat) : Except Trap Unit :=
  match c.pendingWord i.word i.issue x lo len with
  | some a => .error (Trap.at_ .pendingRead a)
  | none => .ok ()

/-- The words from a word-aligned address as one value, or the trap of its poison (R85, R220, R241, R278): SCALE_POISON where a word
carries scale poison. That FAULTADDR holds the lowest word with the poison that gives the code, and that `vatom` takes its lanes in
order, each a value of its own, is the model's choice (log 115). -/
def Core.cleanWords (c : Core) (matrix : Bool) (a n : Nat) : Except Trap (List PWord) :=
  let all := Kind.joinAll ((c.spadWords a n).map PWord.k)
  let bad (k : Kind) : Bool := if all.scale then k.scale else k.poisoned
  match (upto n).find? fun k => bad (c.spadWord (a + 4 * k)).k with
  | some k => .error { Trap.at_ all.code (a + 4 * k) with matrix := matrix }
  | none => .ok (c.spadWords a n)

/-- The number some words hold. -/
def wordsNat (ws : List PWord) : Nat := ofDigits 32 (ws.map fun w => w.w.toNat)

/-- A number as clean words. -/
def natWords (n v : Nat) : List PWord := (digits 32 n v).map PWord.ofNat

/-! ## Atomics (R245) -/

/-- The integer operation of R245. -/
def atomInt (op : BitVec 3) (w old v : Nat) : Nat :=
  let less := sextInt v w < sextInt old w
  let more := sextInt old w < sextInt v w
  match op.toNat with
  | 0 => (old + v) % 2 ^ w
  | 1 => if less then v else old
  | 2 => if more then v else old
  | 3 => old &&& v
  | 4 => old ||| v
  | 5 => old ^^^ v
  | _ => v

/-- The operation of R245 in a format code, rounding ADD in the mode given. -/
def atomElem (op : BitVec 3) (t rm old v : Nat) : Nat × Flags :=
  if isInt t then (atomInt op (widthOf t) old v, 0)
  else match op.toNat with
    | 0 => addCode t rm old v
    | 1 => (elemMinMax false t old v, 0)
    | 2 => (elemMinMax true t old v, 0)
    | _ => (atomInt op (widthOf t) old v, 0)

/-- Memory as the lanes of a `vatom` see it: address, value and kind of each element touched. -/
abbrev AtomMem := List (Nat × Nat × Kind)

/-- One lane of `vatom`: the element as the lower lanes left it, and the element after it (R245). -/
def atomLane (t rm : Nat) (m : AtomMem) (a : Nat) (op : BitVec 3) (v : Nat) (k : Kind) : (Nat × Kind) × AtomMem × Flags :=
  match m.find? fun e => e.1 == a with
  | none => ((0, .clean), m, 0)
  | some (_, old, ko) =>
    let (new, f) := atomElem op t rm old v
    let kn := if op == 6 then k else k.join ko
    ((old, ko), m.map (fun e => if e.1 == a then (a, new, kn) else e), f)

/-- All lanes in ascending order: the old values, memory after them, and the flags. -/
def atomLanes (t rm : Nat) (v : Val) : Nat → List (Option (Nat × BitVec 3)) → AtomMem → List (Nat × Kind) × AtomMem × Flags
  | _, [], m => ([], m, 0)
  | i, none :: ls, m =>
    let (os, m, f) := atomLanes t rm v (i + 1) ls m
    ((0, .clean) :: os, m, f)
  | i, some (a, op) :: ls, m =>
    let w := widthOf t
    let (o, m, f) := atomLane t rm m a op (v.elem w i) (v.elemKind w i)
    let (os, m, g) := atomLanes t rm v (i + 1) ls m
    (o :: os, m, f ||| g)

/-- The addresses a `vatom` touches, each once. -/
def atomAddrs (ls : List (Option (Nat × BitVec 3))) : List Nat :=
  (laneAddrs ls).foldl (fun as a => if as.contains a then as else as ++ [a]) []

/-- `vatom` at its read LT: read every element, write every one two LTs later, deliver the old values and the flags four
LTs later (R252). -/
def Core.performVatom (c : Core) (i : Item) (x : Nat) (e : Nat) (ls : List (Option (Nat × BitVec 3))) (v : Val) (d : Port) :
    Except Trap Core := do
  let t := fVtype e
  let w := widthOf t
  let as := atomAddrs ls
  let reads ← as.foldlM (fun (m : AtomMem) a => do
    let ws ← c.cleanWords false a (w / 32)
    .ok (m ++ [(a, wordsNat ws, Kind.clean)])) ([] : AtomMem)
  let (os, m, f) := atomLanes t (fRnd e) v 0 ls reads
  let c := m.foldl (fun c (a, n, k) =>
    c.followFree i (x + 2) (.write a ((natWords (w / 32) n).map fun p => { p with k := k }))) c
  let c := if f == 0 then c else c.followFree i (x + 4) (.flags f)
  .ok (c.landFrom i d (Val.ofElems w os) (x + 4))

/-- `atom` at its read LT (R251). -/
def Core.performAtom (c : Core) (i : Item) (x : Nat) (op : BitVec 3) (wide : Bool) (a : Nat) (v : W64) (d : Port) :
    Except Trap Core := do
  let w := if wide then 64 else 32
  let ws ← c.cleanWords false a (w / 32)
  let old := wordsNat ws
  let new := atomInt op w old (bitsOf v.toNat 0 w)
  let c := c.followFree i (x + 2) (.write a (natWords (w / 32) new))
  .ok (c.landFrom i d (Val.ofScalar (BitVec.ofInt 64 (sextInt old w))) (x + 3))

/-! ## Matrix rows -/

/-- The scratchpad address of an A row of `rb` bytes at its read LT, with the checks made there: a row-list entry is read and its
bound checked (R202, R204), and PENDING_READ (R205). An entry that an `mx.arow` issued after the pass has moved meets there the checks
that the issue made of the entries it knew: BUFFER_STATE by the buffers of the issue LT (R243), and AMP_MAP (R361; log 19). `none` for
rows that are not read from scratchpad. -/
def Core.rowAddr (c old : Core) (i : Item) (x rb : Nat) (src : RowSrc) : Except Trap (Option Nat) := do
  let read (a : Nat) : Except Trap (Option Nat) :=
    if spadSize < a + rb then .error (Trap.at_ .range a)
    else (old.pendingCheck i x a rb).map fun _ => some a
  match src with
  | .addr a => read a
  | .listed j bufs =>
    let a := SMap.get 0 c.mx.list j
    let _ ← Core.bufferCheck { c with a := { c.a with bufs := bufs } } false [(a, rb)]
    if (c.a.ampSpan x a rb).isSome then .error (Trap.at_ .ampMap i.word) else read a
  | .given _ | .pair _ _ => .ok none

/-- The words of A row i of a pass at its read LT (R200, R213). -/
def Core.passWords (c old : Core) (i : Item) (x rb : Nat) (src : RowSrc) : Except Trap (List PWord) := do
  let a? ← c.rowAddr old i x rb src
  match src, a? with
  | .given ws, _ => .ok ws
  | .pair own j, _ => .ok ((SMap.get none (if own then c.mx.own else c.mx.partner).rows j).getD [])
  | _, some a => .ok (c.spadWords a (rb / 4))
  | _, none => .ok []

/-- Row i of a pass: its accumulator rows are updated at the LT given, its flags collected (R203, R204). -/
def Core.performPassRow (c old : Core) (it : Item) (x : Nat) (p : Pass) (i : Nat) (src : RowSrc) (at_ : Nat) : Except Trap Core := do
  let e := p.fmt.toNat
  let ws ← c.passWords old it x (aBytes (fAtype e) (fSparse e)) src
  let r := passRow c.mx p i ws
  .ok ((c.followFree it at_ (.accUpdate (p.acc + i * rowsPerOut e) p.ovw r.checked r.rows)).collectFlags it r.flags)

/-- Put row j into a half of the pair buffer; another sequence number starts the half over (R219, R221). -/
def PairHalf.put (h : PairHalf) (seq : BitVec 32) (par : Nat × Nat × Nat × Nat) (j : Nat) (ws : List PWord) : PairHalf :=
  let rows := if h.seq == seq then h.rows else []
  { seq := seq, par := par, rows := SMap.set none rows j (some ws) }

/-- The physical core of the other core of a logical pair (R218). -/
def State.partnerOf (s : State) (c : Core) : Option Nat := (s.kernelOf c).bind fun k => k.phys? (c.lcore ^^^ 1)

/-- Own row j is read at its read LT, through its row-list entry where the pass names one, kept and sent over the pair link
(R204, R219, R220, R229). -/
def State.performPairRead (s : State) (n : Nat) (old : Core) (i : Item) (x j : Nat) (src : RowSrc) (len : Nat) (seq : BitVec 32)
    (par : Nat × Nat × Nat × Nat) : Except Trap State := do
  let c := s.core n
  let a? ← c.rowAddr old i x len src
  let ws ← match a? with
    | some a => c.cleanWords true a (len / 4)
    | none => .ok []
  let s := s.setCore n { c with mx := { c.mx with own := c.mx.own.put seq par j ws } }
  match s.partnerOf c with
  | some m => .ok (s.modCore m fun k =>
      { k with mx := { k.mx with link := k.mx.link ++ [{ seq := seq, par := par, row := j, data := ws }] } })
  | none => .ok s

/-! ## System registers written at an LT (R412) -/

/-- The bits of word 0 of the amplitude descriptor that are not reserved (R349). -/
def ampFields : Nat := ones 5 0 + ones 13 8 + ones 19 16 + ones 23 22

/-- A system register that LT-timed updates change takes a value; its reserved bits keep reading zero (R8). -/
def SysRegs.put (r : SysRegs) (x : Nat) (v : W64) : SysRegs :=
  match x with
  | 0x03 => { r with flags := v.setWidth 5 }
  | 0x04 => { r with fmtsel := v.setWidth 4 }
  | 0x08 => { r with rsig := v }
  | 0x0C => { r with seqbase := v.setWidth 32 }
  | 0x100 => { r with amp0 := v &&& BitVec.ofNat 64 ampFields }
  | 0x101 => { r with amp1 := v }
  | y => if 0x20 ≤ y && y ≤ 0x2F then { r with fmt := SMap.set 0 r.fmt (y - 0x20) (v.setWidth 32) } else r

/-- A system register takes a value: BUDGET or another (R157). -/
def Core.sysSet (c : Core) (x : Nat) (v : W64) : Core :=
  match x with
  | 0x01 => { c with budget := v.toNat % 2 ^ 48 }
  | _ => { c with a := { c.a with sys := c.a.sys.put x v } }

/-! ## Timed beats (R260) -/

/-- The data of a beat at the receiving core: in the landing buffer, or of an untimed landing that was deferred. -/
def Core.beatHere (c : Core) (id j : Nat) : Option BeatData :=
  match c.landing.findSome? fun l => match l.kind with
      | .beat i k d => if i == id && k == j then some d else none
      | .send .. => none with
  | some d => some d
  | none =>
    match (c.copy? id).bind fun k => if k.timed.isNone then k.beats[j]? else none with
    | some b => match b.state with | .coming d => some d | _ => none
    | none => none

/-- A beat of a copy lands at LT x, or at the LT to which R244, R260 or R361 defers it. -/
def Core.performBeat (c : Core) (i : Item) (x id j : Nat) : Core :=
  match c.copy? id, c.beatHere id j with
  | some k, some d =>
    let sp := match k.beats[j]? with | some b => b.sp | none => 0
    let y := c.landingLt x sp
    if x < y then
      { c with a := { c.a with inflight := c.a.inflight ++ [{ i with lt := y, ready := true }] } }
    else
      let gone := c.landing.filter fun l => match l.kind with | .beat a b _ => a == id && b == j | .send .. => false
      let c := (c.landBeat sp d).finishBeat id j
      { c with landing := c.landing.filter fun l => !gone.contains l, takenIn := c.takenIn ++ gone }
  | _, _ => c

/-- The operand beats of a held copy are read (R278). -/
def Core.performOperands (c : Core) (id : Nat) : Nat → Nat → Except Trap Core
  | _, 0 => .ok c
  | j, n + 1 =>
    match c.copy? id with
    | none => .ok c
    | some k =>
      match k.beats[j]? with
      | none => .ok c
      | some b => do
        let ws ← c.cleanWords false b.sp 16
        Core.performOperands (c.setCopy (k.setBeat j { b with data := some (BeatData.ofWords ws) })) id (j + 1) n

/-! ## One item -/

/-- A row of the accumulator store is replaced by others (R230). -/
def Core.clearRows (c : Core) (rows : List Nat) : Core := rows.foldl (fun c r => c.setAccRow r AccRow.zero) c

/-- A barrier object is written, and its place in the table (R294, R299, R311). That the table changes at the LT at which the object is
written is the model's choice (log 135). -/
def Core.performBarInit (c : Core) (a count : Nat) : Core :=
  let c := (c.detach a).putBar a (BarObj.init count)
  let others := c.a.bars.filter fun b => b != a
  { c with a := { c.a with bars := if count == 0 then others else others ++ [a] } }

/-- The arrival of a suffix word at its LT (R57). One that was in flight at the segment's entry is an update that a rewind makes
again, so the object is journalled first (R298). That it raises no COMMIT_OVERFLOW as a seventeenth object is the model's choice
(log 111). -/
def Core.suffixPerform (c : Core) (a : Nat) : Core :=
  let known := c.journal.any fun e => e.1 == a
  let c := if known then c else { c with journal := c.journal ++ [(a, c.spad64 a, c.spad64 (a + 8))] }
  c.ownUpdate a (BarObj.arrive 1)

/-- A buffer descriptor in force; FILL starts FILLED over (R242, R254). -/
def Core.performBufSet (c : Core) (n base size state : Nat) : Core :=
  let fill := state == 1 && (c.a.buf n).state == 0
  { c with
    a := { c.a with bufs := SMap.set .none_ c.a.bufs n { base := base, size := size, state := state } }
    filled := if fill then SMap.set 0 c.filled n 0 else c.filled }

/-- What an item that touches its own core alone does at LT x; `old` is the core as the LT began. -/
def Core.perform (c old : Core) (x : Nat) (i : Item) : Except Trap Core :=
  let check (lo len : Nat) : Except Trap Unit := old.pendingCheck i x lo len
  let put (a : Arch) : Except Trap Core := .ok { c with a := a }
  match i.act with
  | .land d l v =>
    let a := c.a.push d v
    put (match l with | some l => a.setLatch l v | none => a)
  | .flags f => put { c.a with sys := { c.a.sys with flags := c.a.sys.flags ||| f } }
  | .setP b => put { c.a with sys := { c.a.sys with p := b } }
  | .setM m => put { c.a with m := m }
  | .sysWrite y v => .ok (c.sysSet y v)
  | .setMxmode v => put { c.a with sys := { c.a.sys with mxmode := v } }
  | .setAmpmode b => put { c.a with sys := { c.a.sys with ampmode := b } }
  | .loopFmtsel v => put { c.a with sys := { c.a.sys with fmtsel := v } }
  | .readScalar a d at_ => do
    let _ ← check a 8
    let ws ← c.cleanWords false a 2
    .ok (c.landFrom i d (Val.ofNat (wordsNat ws)) at_)
  | .readVec a d at_ => do
    let _ ← check a 256
    .ok (c.landFrom i d (Val.ofWords (c.spadWords a 64)) at_)
  | .readLanes wide as d at_ => do
    let n := if wide then 2 else 1
    let _ ← as.forM fun a => match a with | some a => check a (4 * n) | none => .ok ()
    let ws := as.flatMap fun a => match a with | some a => c.spadWords a n | none => List.replicate n (PWord.ofNat 0)
    .ok (c.landFrom i d (Val.ofWords ws) at_)
  | .readAtom op wide a v d => do
    let _ ← check a (if wide then 8 else 4)
    c.performAtom i x op wide a v d
  | .readVatom fmt ls v d => do
    let _ ← (laneAddrs ls).forM fun a => check a (widthOf (fVtype fmt.toNat) / 8)
    c.performVatom i x fmt.toNat ls v d
  | .readRow src n rb dest => do
    let ws ← match src with
      | some a => do
        let _ ← check a n
        .ok (c.spadWords a (n / 4))
      | none => .ok []
    .ok (c.followFree i (x + 1) (.write dest (ws ++ List.replicate (rb / 4 - ws.length) (PWord.ofNat 0))))
  | .write a ws => .ok (c.storeWords a ws)
  | .barInit a count => .ok (c.performBarInit a count)
  | .barSet a count w0 w1 => .ok ((c.performBarInit a count).storeBytes a (toBytes 8 w0.toNat ++ toBytes 8 w1.toNat))
  | .barArrive a k => .ok (c.ownUpdate a (BarObj.arrive k))
  | .suffixArrive a => .ok (c.suffixPerform a)
  | .bufSet n base size state => .ok (c.performBufSet n base size state)
  | .bind q a => put { c.a with binds := SMap.set none c.a.binds q a }
  | .readCopy id j n => do
    let sp := match (c.copy? id).bind fun k => k.beats[j]? with | some b => b.sp | none => 0
    let _ ← check sp (64 * n)
    c.performOperands id j n
  | .timedBeat id j => .ok (c.performBeat i x id j)
  | .receive chan d => do
    match ← c.takeArrival chan x d i.word with
    | some (v, c) => .ok (c.landFrom i d v (x + 1))
    | none => .ok c
  | .ldbChunk a k j => do
    let _ ← check a 256
    .ok { c with mx := c.mx.loadChunk k j (c.spadWords a 64) }
  | .ldbs fmt start v => .ok { c with mx := c.mx.loadSparse fmt.toNat start v }
  | .lds side g v => .ok { c with mx := c.mx.loadScales side g v }
  | .arow q v => .ok { c with mx := c.mx.loadList q v }
  | .passRow p r src at_ => c.performPassRow old i x p r src at_
  | .accUpdate acc ovw chk rows =>
    let (c, f) := c.accUpdate acc ovw chk rows
    .ok (c.collectFlags i f)
  | .accClear first count => .ok (c.clearRows (rangeFrom first count))
  | .accSet first rows => .ok ((rows.zip (rangeFrom first rows.length)).foldl
      (fun c e => c.setAccRow e.2 { bits := e.1.bits, k := e.1.anyKind }) c)
  | .accWrite row v => .ok (c.setAccRow row { bits := v.bits, k := v.anyKind })
  | .qrTab dim two v => .ok { c with seq := c.seq.load dim two v }
  | .qrSeed dim mode cnt v => .ok { c with seq := c.seq.loadSeeds dim mode cnt v }
  | .rdvGate _ | .stepGate _ | .pairGate _ _ | .pairRead .. | .ampStart _ | .ampEnd .. => .ok c

/-- What an item of core `n` does at LT x. -/
def State.perform (s : State) (n : Nat) (old : Core) (x : Nat) (i : Item) : Except Trap State :=
  match i.act with
  | .pairRead j src len seq par => s.performPairRead n old i x j src len seq par
  | .ampStart id => s.ampStart n id
  | .ampEnd id _ _ => s.ampEnd n id
  | _ =>
    match (s.core n).perform old x i with
    | .ok c => .ok (s.setCore n c)
    | .error t => .error t

end Sys2Proof.Machine
end

