-- ==== Sys2Proof/Machine/Tick.lean ====
section
/-! DEFINITION. One core reaching an LT at which something is due (R15-R19): whether everything due has physically happened, the
order in which it takes effect (R106, R109, R237, R207), and the gates of rendezvous, step and pair (R153-R155, R219). -/
namespace Sys2Proof.Machine

/-! ## Order of effects at one LT -/

/-- Gates follow everything else that is due at their LT. -/
def Act.isGate : Act → Bool
  | .rdvGate _ | .stepGate _ | .pairGate _ _ => true
  | _ => false

/-- The class of an item: stores of the matrix unit that reads of the LT see (R204), reads, core writes, copy landings (R237),
register writes (R93, R412), results and updates (R106, R207), flags (R93), the value of a loop (R146). -/
def Act.cls : Act → Nat
  | .lds .. | .ldbs .. | .arow .. => 0
  | .readScalar .. | .readVec .. | .readLanes .. | .readAtom .. | .readVatom .. | .readRow .. | .readCopy .. | .passRow ..
  | .pairRead .. | .ldbChunk .. => 1
  | .write .. | .barInit .. | .barSet .. | .barArrive .. => 2
  | .timedBeat .. | .suffixArrive .. => 3
  | .sysWrite .. | .setMxmode .. | .setAmpmode .. => 4
  | .land .. | .setP .. | .setM .. | .bufSet .. | .bind .. | .receive .. | .accUpdate .. | .accClear .. | .accSet .. | .accWrite ..
  | .qrTab .. | .qrSeed .. | .ampStart .. | .ampEnd .. => 5
  | .flags .. => 6
  | .loopFmtsel .. => 7
  | .rdvGate .. | .stepGate .. | .pairGate .. => 8

/-- Effects of one LT that the pipe puts in order before the issue LT: core writes (R237) and tables of the sequence unit (R377). -/
def Act.byPipe (a : Act) : Bool :=
  match a with
  | .qrTab .. | .qrSeed .. => true
  | _ => a.cls == 2

/-- The place of an item among those of its LT: its class, then pipe and issue LT (R237, R377) or issue LT and pipe (R106, R207). That
of two writes of one pipe the earlier issued goes first is the model's choice (log 119). -/
def Item.rank (i : Item) : Nat :=
  i.act.cls <<< 64 + if i.act.byPipe then Pipe.num i.pipe <<< 52 + i.issue else i.issue <<< 3 + Pipe.num i.pipe

/-- The first of some items in that order; the earlier put in flight among equals. -/
def firstItem : List Item → Option Item
  | [] => none
  | i :: is =>
    match firstItem is with
    | none => some i
    | some j => if j.rank < i.rank then some j else some i

/-! ## Rendezvous, step and pair -/

/-- The outstanding rendezvous of a core on a group with the completion count it carries (R154). -/
def Core.rdvOn (c : Core) (g : Nat) : Option (Rdv × Nat) :=
  match c.slotOfGroup g with
  | none => none
  | some k => (SMap.get none c.a.rdv k).map fun r => (r, (SMap.get 0 c.a.sys.rdvcnt k).toNat)

/-- The placed cores of a kernel. -/
def State.placed (s : State) (k : Kernel) : List Core := (k.place.take k.n).map s.core

/-- The members of a group that its kernel has placed, as cores (R26). -/
def State.membersOf (s : State) (k : Kernel) (g : Nat) : List Core :=
  ((s.group g).locals.filterMap k.phys?).map s.core

/-- Whether a member has recorded another release LT for the same rendezvous (R153). -/
def State.rdvClash (s : State) (c : Core) (slot : Nat) : Bool :=
  match SMap.get none c.a.rdv slot, s.kernelOf c with
  | some r, some k =>
    let count := (SMap.get 0 c.a.sys.rdvcnt slot).toNat
    (s.membersOf k r.group).any fun m => match m.rdvOn r.group with
      | some (r', n) => n == count && r'.lt != r.lt
      | none => false
  | _, _ => false

/-- Whether a core of the kernel has recorded another release LT for the same step (R155). -/
def State.stepClash (s : State) (c : Core) : Bool :=
  match c.a.step, s.kernelOf c with
  | some l, some k => (s.placed k).any fun m => m.a.steps == c.a.steps && (match m.a.step with | some l' => l' != l | none => false)
  | _, _ => false

/-- Whether the partner's half suits: every row of the same sequence number is there, or its `mx.pair` differs (R218, R219). -/
def Core.pairHere (c : Core) (seq : BitVec 32) (par : Nat × Nat × Nat × Nat) : Bool :=
  let h := c.mx.partner
  h.seq == seq && !h.rows.isEmpty && (h.par != par || (upto par.2.1).all fun j => (SMap.get none h.rows j).isSome)

/-! ## What has physically happened (R16, R18) -/

/-- Whether a beat of a timed copy is here, or will never come because the copy has ended. -/
def Core.beatOpen (c : Core) (id j : Nat) : Bool :=
  (c.beatHere id j).isSome ||
  match c.copy? id with
  | some k => k.settled || (match k.beats[j]? with | some b => b.state == .finished | none => true)
  | none => true

/-- The receives of a channel due at an LT, and the arrivals held for it (R290). -/
def Core.receiveOpen (c : Core) (x chan : Nat) : Bool :=
  let due := c.a.inflight.filter fun i => i.lt == x && (match i.act with | .receive k _ => k == chan | _ => false)
  due.length ≤ (c.landing.filter fun l => l.isFrom chan).length

/-- The landing LTs of timed sends to a core that have issued and are not in its landing buffer: their senders' copy engines keep
them, or they are on the network (R18, R263, R314). A send that has not issued yet is none of them (log 101). -/
def State.sendsTo (s : State) (c : Core) : List Nat :=
  match s.kernelOf c with
  | none => []
  | some k =>
    ((s.placed k).flatMap fun m => m.copies.filterMap fun h => match h.op with
      | .snd r t _ _ => if r == c.lcore && !h.settled then some t else none
      | _ => none) ++
    s.net.filterMap fun p => match p.kind with
      | .send _ t _ _ => if p.kernel == (k.queue, k.cid) && p.dst == c.lcore then some t else none
      | _ => none

/-- The first landing LT, from the LT it stands at to that of its next bundle, at which a core stops for a timed send that is not here,
whether or not anything reads it there (R18, R19, R147). It stands there until the data are here. One that has issued its `halt` discards what lands later (R164). -/
def State.stopLt (s : State) (c : Core) : Option Nat :=
  match c.run with
  | .halting _ | .halted _ => none
  | _ => ((s.sendsTo c).filter fun t => c.a.lt ≤ t && t ≤ c.a.next).min?

/-- Where it stops at LT x or before. -/
def State.stopBy (s : State) (c : Core) (x : Nat) : Option Nat := (s.stopLt c).filter (· ≤ x)

/-- Whether an item due at LT x may take effect. -/
def State.itemOpen (s : State) (c : Core) (x : Nat) (i : Item) : Bool :=
  match i.act with
  | .timedBeat id j => c.beatOpen id j
  | .receive chan _ => i.ready && c.receiveOpen x chan
  | .ampStart id => i.ready && s.ampReaches c id AmpEntry.reads
  | .ampEnd id _ _ => i.ready && c.ampReady id && s.ampReaches c id AmpEntry.writes
  | .rdvGate slot => i.ready || s.rdvClash c slot
  | .stepGate _ => i.ready || s.stepClash c
  | .pairGate seq par => c.pairHere seq par
  | _ => i.ready

/-! ## Time -/

/-- Whether BUDGET counts for a core: it runs, the first bundle of its superstep has issued, and no core of its kernel is under debug
halt, or held by a HALT that found it trapped or halting (R157, R399). That it does not count for a core that has issued its `halt`,
nor before the first bundle issues again in a rerun of the superstep's first segment, and that a hold of that first bundle is not
bounded by it (R157 beside R158), are the model's choices (log 112). -/
def State.budgetRuns (s : State) (c : Core) : Bool :=
  c.run == .running && !c.a.superNext && match s.kernelOf c with
    | some k => (s.placed k).all fun m => !(m.run.halted? || m.debugHold)
    | none => true

/-- Physical cycles pass for a core: BUDGET counts them (R157). -/
def State.spend (s : State) (n k : Nat) : State :=
  let c := s.core n
  { (if s.budgetRuns c then s.setCore n { c with budget := c.budget - k } else s) with phys := s.phys + k }

/-- A core stalls for one physical cycle (R19). -/
def State.stall (s : State) (n : Nat) : State := s.spend n 1

/-- Keep the system registers as an LT begins (R411). -/
def Arch.open_ (a : Arch) (x : Nat) : Arch := if a.before.1 == x then a else { a with before := (x, a.sys) }

/-- A core's LT comes to x. -/
def State.reach (s : State) (n x : Nat) : State :=
  let c := s.core n
  (s.spend n (x - c.a.lt)).modCore n fun c => { c with a := { c.a.open_ x with lt := Nat.max c.a.lt x }, pairWait := 0 }

/-! ## Gates -/

/-- A core passes its rendezvous (R154). -/
def Arch.passRdv (a : Arch) (slot : Nat) : Arch :=
  { a with rdv := SMap.set none a.rdv slot none
           sys := { a.sys with rdvcnt := SMap.set 0 a.sys.rdvcnt slot (SMap.get 0 a.sys.rdvcnt slot + 1) } }

/-- A core passes its step: the next bundle begins a superstep, and BUDGET is loaded again (R155-R157). -/
def Core.passStep (c : Core) (imm : BitVec 16) : Core :=
  { c with a := { c.a with step := none, steps := c.a.steps + 1, superNext := true }
           budget := if imm == 0 then c.launchBudget else imm.toNat * 1024 }

/-- A gate opens for its core, or the trap of a disagreement (R153, R155, R218). -/
def State.passGate (s : State) (n : Nat) (i : Item) : Except Trap State :=
  let c := s.core n
  match i.act with
  | .rdvGate slot =>
    if s.rdvClash c slot then .error (Trap.at_ .timestamp i.word)
    else .ok (s.setCore n { c with a := c.a.passRdv slot })
  | .stepGate imm =>
    if s.stepClash c then .error (Trap.at_ .timestamp i.word) else .ok (s.setCore n (c.passStep imm))
  | .pairGate _ par =>
    if c.mx.partner.par.1 != par.1 then .error (Trap.at_ .timestamp i.word)
    else if c.mx.partner.par != par then .error (Trap.at_ .range i.word)
    else .ok s
  | _ => .ok s

/-! ## One LT -/

/-- An item due at LT x takes effect, out of flight before it acts; `old` is the core as the LT began. -/
def State.takeItem (s : State) (n : Nat) (old : Core) (x : Nat) (i : Item) : Except Trap State :=
  let c := s.core n
  let s := s.setCore n { c with a := { c.a with inflight := c.a.inflight.erase i } }
  if i.act.isGate then s.passGate n i else s.perform n old x i

/-- Take the items of a kind due at LT x in order. -/
def State.runDue (n x : Nat) (gates : Bool) (old : Core) : Nat → State → Except Trap State
  | 0, s => .ok s
  | fuel + 1, s =>
    let c := s.core n
    match firstItem (c.a.inflight.filter fun i => i.lt == x && i.act.isGate == gates) with
    | none => .ok s
    | some i =>
      match s.takeItem n old x i with
      | .ok s => State.runDue n x gates old fuel s
      | .error t => .error t

/-- The earliest LT at which something is due. -/
def Core.dueLt (c : Core) : Option Nat := (c.a.inflight.map Item.lt).min?

/-- Whether a core waits at the release LT of its `mx.pair` for the partner's rows (R222). -/
def State.waitsPair (s : State) (c : Core) (x : Nat) : Bool :=
  (s.stopBy c x).isNone &&
    c.a.inflight.any fun i => i.lt == x && (match i.act with | .pairGate .. => true | _ => false) && !s.itemOpen c x i

/-- A core waits at the release LT of its `mx.pair`, once its idle cycles have brought it there; the time counts while it runs,
not under a freeze or debug halt (R222). -/
def State.pairStall (s : State) (n x : Nat) : State :=
  if (s.core n).a.lt < x then s.reach n x
  else (s.stall n).modCore n fun c => { c with pairWait := if c.run == .running then c.pairWait + 1 else c.pairWait }

/-- BUDGET runs out in the next cycles: they pass, and the core raises DEADLINE before its next bundle (R157). -/
def State.deadline (s : State) (n : Nat) : State :=
  let c := s.core n
  takeTrap n (Trap.at_ .deadline 0) { s.setCore n { c with budget := 0 } with phys := s.phys + c.budget }

/-- Reads that a disturbance made fail have been made (R240, R463). -/
def Core.readsDone (c : Core) : Core := { c with soft := [] }

/-- A core stops at an LT t for a timed send (R18). -/
def State.standAt (s : State) (n t : Nat) : State := if (s.core n).a.lt < t then s.reach n t else s.stall n

/-- A core at an LT x at which something is due: everything but gates takes effect, then the gates; a timed send or a part that has
not physically happened stops LT there (R16, R18), and a trap of a read or a gate is taken before the bundle (R386). A BUDGET that the
idle cycles before a gate have used up is not loaded again by a `step` (R157). That the release LT of an `rdv` at which idle cycles run
and no bundle issues stops LT there all the same, and counts the completion there, is the model's choice (R153; log 133). -/
def State.tick (s : State) (n x : Nat) : State :=
  let c := s.core n
  let due := c.a.inflight.filter fun i => i.lt == x
  let gates := due.all fun i => i.act.isGate
  let part := due.filter fun i => i.act.isGate == gates
  match s.stopBy c x with
  | some t => s.standAt n t
  | none =>
    if part.all (s.itemOpen c x) then
      let s := s.reach n x
      if gates && c.run == .running && (s.core n).budget == 0 then s.deadline n
      else match State.runDue n x gates (s.core n) part.length s with
      | .ok s => s.modCore n Core.readsDone
      | .error t => takeTrap n t (s.modCore n Core.readsDone)
    else if gates && s.waitsPair c x then s.pairStall n x
    else s.stall n

/-! ## Draining (R114, R395) -/

/-- The values in a core's pipelines whose LT has come by an LT physically land there. -/
def Core.flush (c : Core) (last : Nat) : Core :=
  { c with a := { c.a with inflight := c.a.inflight.map fun i => if i.lt ≤ last && !i.act.isGate then { i with ready := true } else i } }

/-- What is due at LT x on a core that halts takes effect item by item, a gate once everything else due by then has; what has not
come, or would trap (`stay`), stays in flight. -/
def State.landSome (n x : Nat) (old : Core) : Nat → List Item → State → State
  | 0, _, s => s
  | fuel + 1, stay, s =>
    let c := s.core n
    let mayGo (i : Item) : Bool := !i.act.isGate || c.a.inflight.all fun j => j.act.isGate || x < j.lt
    match firstItem (c.a.inflight.filter fun i => i.lt == x && !stay.contains i && s.itemOpen c x i && mayGo i) with
    | none => s
    | some i =>
      match s.takeItem n old x i with
      | .ok s => State.landSome n x old fuel stay s
      | .error _ => State.landSome n x old fuel (i :: stay) s

/-- Whether a core stands at LT x for something that has not come: what is due later has not landed yet (R16, R18). -/
def State.standsAt (s : State) (n x : Nat) : Bool :=
  let c := s.core n
  (s.stopBy c x).isSome || c.a.inflight.any fun i => i.lt == x && !s.itemOpen c x i

/-- The same for every LT from one on up to the last, in order, or up to that at which the core stands. -/
def State.landRest (n last : Nat) : Nat → Nat → State → State
  | 0, _, s => s
  | fuel + 1, x, s =>
    let c := s.core n
    match ((c.a.inflight.map Item.lt).filter fun y => x ≤ y && y ≤ last).min? with
    | none => s
    | some y =>
      if (s.stopBy c (y - 1)).isSome then s
      else
        let s := s.reach n y
        let k := ((s.core n).a.inflight.filter fun i => i.lt == y).length
        let s := (State.landSome n y (s.core n) k [] s).modCore n Core.readsDone
        if s.standsAt n y then s else State.landRest n last fuel (y + 1) s

/-- What is due by an LT lands, for a core that issues no more. -/
def State.landBy (s : State) (n last : Nat) : State :=
  let c := s.core n
  let first := (c.dueLt).getD c.a.lt
  State.landRest n last (last + 1 - first) first (s.modCore n fun c => c.flush last)

/-- A core that halts drains its pipelines and latches into architectural state (R114): everything due by its freeze LT lands, up to
the LT at which it stands for what has not come. What is due later stays in the replay buffer (R395), and so does a read, receive or gate
that traps or has trapped, to be made when the core resumes (log 93). -/
def State.drain (s : State) (n : Nat) : State := s.landBy n (s.core n).a.next

end Sys2Proof.Machine
end

