-- ==== Sys2Proof/Machine/Turn.lean ====
section
/-! DEFINITION. One turn of a core: what is due at the next LT, the exit and entry of segments (R148-R151, R156, R210, R215, R270,
R290, R362), the issue of one bundle (R40, R107, R468), or the end of its issue by `halt` (R164). -/
namespace Sys2Proof.Machine

/-! ## Segment exit -/

/-- Whether a copy of the segment still waits for a translation, a copy that has failed at another address too (R270). -/
def Core.translating (c : Core) : Bool := c.copies.any fun k => k.inSeg && k.untranslated

/-- The exit checks of a segment: poisoned accumulator rows (R215), then the earliest-issued failed copy (R270). -/
def Core.exitTrap (c : Core) : Option Trap :=
  match c.mx.readTrap c.mx.updated with
  | some t => some { t with exiting := true }
  | none => c.copies.findSome? fun k =>
      match k.state with
      | .failed code addr => if k.inSeg then some { Trap.at_ code addr.toNat with exiting := true } else none
      | _ => none

/-- The content of the commit buffer is released in issue order (R150); a `snd` carries out its suffix (R310). -/
def Core.releaseHeld (c : Core) : Core :=
  let mine := c.copies.filter fun k => k.inSeg && !k.released
  let c := mine.foldl (fun c k => match k.op with | .snd .. => c.suffixArrivals k | _ => c) c
  let sent (k : Copy) : Bool := match k.op with | .snd .. => true | _ => false
  { c with copies := c.copies.map fun k =>
      if k.inSeg then { k with released := true, arv := if sent k then [] else k.arv } else k }

/-- What still runs when a segment-entry bundle would issue: a matrix word (R210), an amplitude word (R362), a receive (R290). Each
rule names its own word as FAULTADDR; where several run, that they are taken in this order is the model's choice (log 127). -/
def Core.entryTrap (c : Core) : Option Trap :=
  let late (l : List (Nat × Nat)) : Option Nat := (l.find? fun e => c.now < e.1).map Prod.snd
  let rcv := (c.a.inflight.find? fun i => match i.act with | .receive .. => true | _ => false).map Item.word
  (late c.a.mxBusy <|> late c.a.ampBusy <|> rcv).map (Trap.at_ .range)

/-! ## Segment entry -/

/-- The copies as a new segment finds them: none its own, those that a `bar.init` detached without a barrier (R299). -/
def Copy.settleSegment (k : Copy) : Copy :=
  { k with inSeg := false, released := true, bound := if k.detached then none else k.bound, detached := false }

/-- Exit the segment and take the checkpoint of the next one (R148). -/
def Core.enterSegment (c : Core) : Core :=
  let c := (if c.a.out then c else c.releaseHeld)
  let c := { c with copies := c.copies.map Copy.settleSegment }
  let c := c.pruneCopies
  let points := c.a.points.filter fun p => c.copies.any fun h => h.id < p.pos && !c.settledAt p.scope h
  let a : Arch :=
    { c.a with again := true, out := false, segLt := c.now, superLt := if c.a.superNext then c.now else c.a.superLt
               fences := c.a.fences.filter c.fenceOpen, points := points, mxBusy := [], ampBusy := [], ampCount := 0 }
  { c with
    a := a, ck := a, takenIn := [], journal := [], ampLog := [], rewinds := 0, requeues := 0
    mx := { c.mx with established := [], shadow := [], updated := [] } }

/-- What a segment-entry bundle does before it issues (R148): hold, trap, enter, or stand at the exit of a twin rerun. -/
inductive EntryStep where
  | hold
  | trap (t : Trap)
  | enter
  | twinExit

/-- A twin rerun stands at the exit of its segment (R216). -/
def Core.atExit (c : Core) : Core := { c with twin := c.twin.map fun t => { t with atExit := true } }

/-- An entry of the error log (R462). -/
def PendLog.entry (p : PendLog) (cid lcore outcome : Nat) : List W64 :=
  [BitVec.ofNat 64 ((cid % 2 ^ 32) <<< 32 + p.code.toNat <<< 24 + (lcore % 256) <<< 16 + (p.corenum % 256) <<< 8 +
     (Nat.min p.reruns 15) <<< 4 + outcome <<< 2),
   BitVec.ofNat 64 p.pc, p.addr, BitVec.ofNat 64 p.lt]

/-- The entry of the rewind pending on a core, placed or saved, with its outcome (R462). -/
def Core.rewindEntry (c : Core) (outcome : Nat) : List (List W64) :=
  c.pend.toList.map fun p => p.entry ((c.kernel.map Prod.snd).getD 0) c.lcore outcome

/-- The rewind pending on a core enters the error log with its outcome (R462). -/
def State.logRewind (s : State) (n outcome : Nat) : State :=
  let c := s.core n
  if c.pend.isNone then s else { s.setCore n { c with pend := none } with errlog := s.errlog ++ c.rewindEntry outcome }

/-- The rewinds pending on the cores of a kernel that ends, placed or in its saved contexts, enter the error log (R462, log 39). -/
def State.logRewinds (s : State) (k : Kernel) : State :=
  let s := (k.place.take k.n).foldl (fun s n => s.logRewind n 0) s
  { s with errlog := s.errlog ++ k.context.flatMap fun e => (e.2.map fun c => c.rewindEntry 0).getD [] }

/-- The exit and entry checks of a segment-entry bundle. A rerun for the comparison of R216 waits for the front-end. -/
def Core.entryStep (c : Core) : EntryStep :=
  if c.translating then .hold
  else match c.entryTrap <|> c.exitTrap with
    | some t => .trap t
    | none => if c.twin.isSome then .twinExit else .enter

/-! ## The issue of a bundle -/

/-- The issue context of a bundle. -/
def State.issueContext (s : State) (c : Core) (entry : Bool) (ws : List (Nat × Word)) : Issue :=
  let last := (ws.getLast?.map Prod.fst).getD c.a.pc
  let after := nextWord last
  { Issue.reset with
    bundle := c.a.pc, word := c.a.pc, last := last, after := after
    after2 := match s.afterTwo c after with | .ok a => .inl a | .error x => .inr x
    next := c.now + 1, entry := entry }

/-- Issue the words of a bundle in address order until one traps (R107). -/
def runWords (run : Instr → State → Res) (n : Nat) : List (Nat × Instr) → State → Res
  | [], s => .next s
  | (a, i) :: ws, s =>
    match run i (s.modCore n fun c => { c with cx := { c.cx with word := a } }) with
    | .next s' => if (s'.core n).run = .trapped then .next s' else runWords run n ws s'
    | r => r

/-- A core after a bundle that has issued in full: LT, the next bundle, a debugger's step over (R15, R399). A halting core
stays at its `halt` bundle (R164). -/
def Core.closeBundle (c : Core) (pushed : Bool) : Core :=
  let t := c.now
  let next := c.cx.next
  let pc := c.cx.bundle
  let d := c.advance pushed
  let a := { d.a with again := false, superNext := false, lt := t, next := next }
  match c.run with
  | .halting _ => { d with cx := .reset, absent := [], a := { a with pc := pc, next := t } }
  | .debug _ => { d with cx := .reset, absent := [], a := a, run := .debug false }
  | _ => { d with cx := .reset, absent := [], a := a }

/-- A held bundle has not issued; the translation of a line ahead that it waits for is requested (R468, log 74). -/
def State.holdBundle (before : State) (n : Nat) (ahead : Option (Nat × Nat)) : State :=
  (before.stall n).modCore n fun c => { c with ahead := c.ahead <|> ahead }

/-- The state after the words of a bundle have run from `entered`, which is `before` with the segment entered where the bundle enters
one: a trap leaves the bundle unissued and nothing changed, the segment before it not exited (R40, R148), and a hold leaves it
unissued (R468, log 29). A bundle that is held raises QUEUE_OVERFLOW only once its hold has ended, while the read traps of its words
come at once: the order is the model's choice (log 77). Of a word that trapped the loaded bits it cleared stay cleared (R378). A
core that STEP has released halts again and drains (R114, R399). -/
def State.afterWords (before entered s : State) (n : Nat) : State :=
  let c := s.core n
  if c.run = .trapped then
    match s.reports.getLast? with
    | some r =>
      let t : Trap := { code := r.code, addr := r.addr, matrix := r.matrix, exiting := r.exiting, cause := r.cause, dims := [] }
      takeTrap n t (before.modCore n fun d => { d with seq := { d.seq with loaded := c.seq.loaded } })
    | none => before
  else if c.cx.held then entered.holdBundle n c.cx.ahead
  else
    match c.overflow with
    | some t => takeTrap n t before
    | none =>
      let s := s.setCore n (c.closeBundle ((entered.core n).a.loops.length < c.a.loops.length))
      if c.run.halted? then s.drain n else s

/-- Run the decoded words of a bundle from a state `s` in which its segment has been entered; `before` is the state it comes from. -/
def State.runBundle (run : Instr → State → Res) (before s : State) (n : Nat) (entry : Bool) (ws : List (Nat × Word)) : Res :=
  let is := (annotate none none ws).filterMap fun x => x.instr?.map fun i => (x.addr, i)
  let start := s.modCore n fun c => { c with cx := s.issueContext c entry ws }
  match runWords run n is start with
  | .next s' => .next (State.afterWords before s s' n)
  | r => r

/-- The bundle at the program counter, fetched and decoded: its checks, the segment it may enter, and its words. -/
def State.issueBundle (run : Instr → State → Res) (s : State) (n : Nat) (b : Bundle) : Res :=
  let c := s.core n
  match c.bundleTrap b.words with
  | some t => .next (takeTrap n t s)
  | none =>
    if b.sstart && !c.a.superNext then .next (takeTrap n (Trap.at_ .range (lineOf c.a.pc)) s)
    else if (c.a.superNext || b.sege) && !c.a.again then
      match c.entryStep with
      | .hold => .next (s.stall n)
      | .trap t => .next (takeTrap n t s)
      | .twinExit => .next ((s.stall n).modCore n Core.atExit)
      | .enter => s.runBundle run ((s.logRewind n 0).modCore n Core.enterSegment) n true b.words
    else s.runBundle run s n c.a.again b.words

/-- The fetch unit of a core whose fetch has ended in a trap: no line waits to be fetched once more (R43), and the disturbance of a
critical window's translations is over once it has stopped a fetch (R271, R391). -/
def Core.fetchTrapped (c : Core) (t : Trap) : Core :=
  let c := { c with refetch := [] }
  if t.code == .uncorrectable then
    let line := lineOf c.a.pc
    { c with disagree := c.disagree.erase (if c.disagree.contains line then line else lineOf (nextWord (line + 60))) }
  else c

/-- A core issues its next bundle, or stops before it (R40, R391, R392). -/
def State.bundleTurn (run : Instr → State → Res) (s : State) (n : Nat) : Res :=
  let s := s.reach n (s.core n).a.next
  let c := s.core n
  if maxLt < c.now + 1 then .next (takeTrap n (Trap.at_ .deadline c.a.pc) s)
  else if c.a.pc % 64 == 0 || c.a.pc % 4 != 0 then .next (takeTrap n (Trap.at_ .illegalTarget c.a.pc) s)
  else match s.fetchNeed c 12 c.a.pc with
    | some (.inl t) => .next (takeTrap n t (s.setCore n (c.fetchTrapped t)))
    | some (.inr _) => .next (s.stall n)
    | none =>
      match s.fetchBundle c with
      | .ok (b, c) => (s.takeReads n b.reads c).issueBundle run n b
      | .error (.inl t, rs, c) => .next (takeTrap n t (s.takeReads n rs (c.fetchTrapped t)))
      | .error (.inr _, rs, c) => .next ((s.takeReads n rs c).stall n)

/-! ## Halting (R164) -/

/-- Receives and rendezvous that a halting core leaves behind (R158, R164). -/
def Item.leftByHalt (i : Item) : Bool :=
  match i.act with
  | .receive .. | .rdvGate _ => true
  | _ => false

/-- Arrivals whose landing LT follows the halt are discarded (R164), and the receives that wait for them with them, which give no
result: the model's choice beside step 1 of R164 (log 113). Beats of the core's own timed copies are not among them: they land at
their LT, the model's choice (log 84). -/
def Core.dropLate (c : Core) : Core :=
  { c with
    a := { c.a with inflight := c.a.inflight.filter fun i => !i.leftByHalt }
    landing := c.landing.filter fun l => match l.kind with | .send .. => l.land ≤ c.haltLt | .beat .. => true }

/-- A halting core: what is in flight lands, the copies of the segment are translated, the segment is checked and its
commit buffer released; the report waits for the copies (CORE_HALT_REPORT). -/
def State.haltTurn (s : State) (n : Nat) : State :=
  let s := s.modCore n Core.dropLate
  let c := s.core n
  match c.dueLt with
  | some x => s.tick n x
  | none =>
    if c.a.out || c.translating then { s with phys := s.phys + 1 }
    else match c.exitTrap with
      | some t => takeTrap n t s
      | none =>
        if c.twin.isSome then { s.setCore n c.atExit with phys := s.phys + 1 }
        else
          let s := s.logRewind n 0
          let c := (s.core n).releaseHeld
          s.setCore n { c with a := { c.a with out := true } }

/-- A frozen core: what is due up to its freeze LT lands (R394, R395). -/
def State.stillTurn (s : State) (n : Nat) : State :=
  let c := s.core n
  match c.dueLt with
  | some x => if x ≤ c.a.next then s.tick n x else { s with phys := s.phys + 1 }
  | none => { s with phys := s.phys + 1 }

/-- Whether a core's kernel is frozen by the front-end (R394). -/
def State.kernelFrozen (s : State) (c : Core) : Bool :=
  match s.kernelOf c with | some k => k.state == .frozen | none => false

/-! ## A turn -/

/-- The next bundle, unless the core stops for a timed send before it (R18), or BUDGET runs out in the idle cycles (R157). -/
def State.bundleOrDeadline (run : Instr → State → Res) (s : State) (n : Nat) : Res :=
  let c := s.core n
  match s.stopLt c with
  | some t => .next (s.standAt n t)
  | none => if s.budgetRuns c && c.budget ≤ c.a.next - c.a.lt then .next (s.deadline n) else s.bundleTurn run n

/-- One turn of a core that issues: BUDGET, what is due, or the next bundle. -/
def State.runTurn (run : Instr → State → Res) (s : State) (n : Nat) : Res :=
  let c := s.core n
  if c.budget == 0 then .next (s.deadline n)
  else match c.dueLt with
    | some x => if x ≤ c.a.next then .next (s.tick n x) else s.bundleOrDeadline run n
    | none => s.bundleOrDeadline run n

/-- One turn of a core; a core that issues nothing lets a physical cycle pass. One that STEP has released issues its bundle once its
kernel is not frozen (R394, R399). -/
def State.turn (run : Instr → State → Res) (s : State) (n : Nat) : Res :=
  let s := { s with cur := n }
  match (s.core n).run with
  | .running => s.runTurn run n
  | .debug true => if s.kernelFrozen (s.core n) then .next (s.stillTurn n) else s.runTurn run n
  | .halting _ => .next (if s.kernelFrozen (s.core n) || (s.core n).debugHold then { s with phys := s.phys + 1 } else s.haltTurn n)
  | .frozen => .next (s.stillTurn n)
  | _ => .next { s with phys := s.phys + 1 }

end Sys2Proof.Machine
end

