-- ==== Sys2Proof/Machine/FrontEnd.lean ====
section
/-! DEFINITION. The front-end's shared operations: queues and completion records (R413-R416, R424), the end and the abort of a
kernel (R388, R420, R427, R433, R465), freezing (R394). -/
namespace Sys2Proof.Machine

/-! ## Events -/

/-- An event that cannot happen in this state does not: nothing changes (log 10). -/
def notNow (s : State) : Res := .next s

/-- An event that happens where its condition holds. -/
def eventIf (s : State) (ok : Bool) (t : State) : Res := if ok then .next t else notNow s

/-- Whether the front-end answers at all: it has come up and does not stand in recovery (R438, R452). -/
def State.serving (s : State) : Bool := s.ready && !s.recovery

/-- Whether nothing answers a master (R438, R445): the host in recovery and while the device is blank, anyone once it is scrapped. -/
def State.silent (s : State) (who : Master) : Bool :=
  s.lifecycle == .scrapped || (who == .host && (s.recovery || s.lifecycle == .blank))

/-- Whether no peer package is answered over UALink (R438, R445): in recovery, and once the device is scrapped. -/
def State.deaf (s : State) : Bool := s.recovery || s.lifecycle == .scrapped

/-- Whether what another package sends reaches this one: the device answers, and some rail group carries traffic (R320; log 42). -/
def State.hears (s : State) : Bool := !s.deaf && s.fabricUp

/-! ## The front-end cores (R31, R434) -/

/-- The instruction store of a front-end core: 1 MiB (R31). -/
def frontStoreSize : Nat := 2 ^ 20

/-- A byte of the instruction store (R31, log 73). -/
def FrontCore.storeByte (f : FrontCore) (a : Nat) : Byte := if a < frontStoreSize then Config.firmwareByte f.store a else 0

/-- The line of the instruction store at an address (R31, R41). -/
def FrontCore.storeLine (f : FrontCore) (a : Nat) : Line := lineOfBytes ((upto 64).map fun k => f.storeByte (a + k))

/-- The core with the lines of its store that a bundle at its program counter can touch: the one before, which may chain into it, and
as many after as the two bundles that a `call` returns beyond (R45, R160). -/
def FrontCore.atStore (f : FrontCore) : Core :=
  let line := lineOf f.core.a.pc
  let near := (rangeFrom (line - 64) 384).filter fun a => a % 64 == 0 && a < frontStoreSize
  { f.core with icache := near.foldl (fun m a => SMap.set none m a (some (f.storeLine a))) [], budget := f.core.launchBudget }

/-- The front-end cores have the S pipe only (R31): a word of another pipe has no meaning there. -/
def sPipeOnly (run : Instr → State → Res) (i : Instr) (s : State) : Res :=
  match i.pipe with
  | some .s | none => run i s
  | _ => .next (takeTrap s.cur (Trap.at_ .illegalOp (s.core s.cur).cx.word) s)

/-- What its command engine hands the core with the n-th event goes to the scalar queues that have room (R31, R103; log 73). -/
def FrontCore.handed (f : FrontCore) (n : Nat) : FrontCore :=
  (upto 32).foldl (fun f k => match Config.engineValue n k with
    | some v =>
      let vs := f.core.a.landed (.s (Fin.ofNat 32 k))
      if vs.length < 4 then { f with core := { f.core with a := f.core.a.setLanded (.s (Fin.ofNat 32 k)) (vs ++ [Val.ofNat v.toNat]) } } else f
    | none => f) f

/-- Phobos or, for `true`, Deimos. -/
def State.front (s : State) (deimos : Bool) : FrontCore := if deimos then s.deimos else s.phobos

def State.setFront (s : State) (deimos : Bool) (f : FrontCore) : State :=
  if deimos then { s with deimos := f } else { s with phobos := f }

/-- An event reaches the active core through its command engine: a queue's head, a trap, the scan, a plan, a freeze (R31). -/
def State.frontHanded (s : State) : State :=
  if s.serving then { s.setFront s.deimosActive ((s.front s.deimosActive).handed s.fresh) with fresh := s.fresh + 1 } else s

/-- One turn of a front-end core, as one of any core on the S words of its store (R31): what is due, or its next bundle. One whose store
or state has failed, or whose image has not been verified, runs nothing (R434, R438). It stands in the place of core 0 for the turn,
and nothing but itself is changed (log 73). -/
def State.frontTurn (run : Instr → State → Res) (s : State) (deimos : Bool) : Res :=
  let f := s.front deimos
  if s.serving && f.sound then
    match (s.setCore 0 f.atStore).turn (sPipeOnly run) 0 with
    | .next t => .next { s.setFront deimos { f with core := { t.core 0 with icache := [] } } with phys := t.phys }
    | r => r
  else .next { s with phys := s.phys + 1 }

/-! ## Physical time (R4, R450) -/

/-- The core clock of a frequency step in MHz (R450). -/
def coreMhz (n : Nat) : Nat :=
  match n with
  | 0 => 650 | 1 => 800 | 2 => 950 | 3 => 1050 | 4 => 1200 | 5 => 1300 | 6 => 1400 | _ => 1500

/-- Core cycles in some milliseconds at the step in force. -/
def State.ms (s : State) (n : Nat) : Nat := n * 1000 * coreMhz s.freq

/-! ## Queues (R414-R416) -/

def State.queue (s : State) (n : Nat) : Queue := SMap.get .reset s.queues n

def State.setQueue (s : State) (n : Nat) (q : Queue) : State := { s with queues := SMap.set .reset s.queues n q }

/-- The completion identifier of command k of queue n (R419). -/
def cidOf (n k : Nat) : Nat := n * 2 ^ 27 + k % 2 ^ 27

/-- The index below which every command is finished (R416). -/
def Queue.done_ (q : Queue) : Nat := (((q.started.filter fun c => !c.finished).map Cmd.index).min?).getD q.head

/-- The index below which every record is final (R416). -/
def Queue.final_ (q : Queue) : Nat := ((q.started.map Cmd.index).min?).getD q.head

/-- EN becomes 0 (R415, R443): the queue starts nothing more, and QHEAD and QFINAL keep their values. -/
def Queue.stop (q : Queue) : Queue :=
  if q.en then { q with en := false, ready := none, starved := false, stopped := some (q.done_, q.final_) } else q

/-- The 32 bytes of a record (R424). -/
def Record.bytes (r : Record) : List Byte :=
  toBytes 8 r.w0.toNat ++ toBytes 8 r.w1.toNat ++ toBytes 8 r.w2.toNat ++ toBytes 8 r.w3.toNat

/-- The host address of the record of command `index` (R415, R424). -/
def Queue.entry (q : Queue) (index : Nat) : Nat := q.comp.toNat + 32 * (index % 2 ^ q.log2n)

/-- Write a completion record at an address, and the interrupt after it (R424). -/
def State.writeRecordAt (s : State) (a n index : Nat) (r : Record) (irq : Bool) : State :=
  { s with
    hostMem := writeBytes s.hostMem a r.bytes
    outs := s.outs ++ [.record n index r] ++ (if irq then [.msix (s.queue n).vec] else []) }

/-- Write a completion record to its entry of the ring (R424). That QCOMP, LOG2N and VEC are those of the queue now, also for a command
started before they were written again, is the model's choice (R415; log 139). -/
def State.writeRecord (s : State) (n index : Nat) (r : Record) (irq : Bool) : State :=
  s.writeRecordAt ((s.queue n).entry index) n index r irq

/-- The record of a command without a trap (R424). -/
def plainRecord (cid status : Nat) : Record :=
  { w0 := BitVec.ofNat 64 (cid % 2 ^ 32 + status <<< 32), w1 := 0, w2 := 0, w3 := 0 }

/-- The header bit IRQ (R419). -/
def Cmd.irq (c : Cmd) : Bool := (c.words.getD 0 0).getLsbD 8

/-- The command code (R419). -/
def Cmd.opc (c : Cmd) : Nat := fld (c.words.getD 0 0) 7 0

/-- A command of a queue, started and with its record not final. -/
def State.cmd? (s : State) (n index : Nat) : Option Cmd := (s.queue n).started.find? fun c => c.index == index

def State.setCmd (s : State) (n : Nat) (c : Cmd) : State :=
  let q := s.queue n
  s.setQueue n { q with started := q.started.map fun x => if x.index == c.index then c else x }

/-- Drop a command whose record is final, or that gets none. -/
def State.dropCmd (s : State) (n index : Nat) : State :=
  let q := s.queue n
  s.setQueue n { q with started := q.started.filter fun c => c.index != index }

/-- A started command finishes with a final record (R420, R424). -/
def State.finish (s : State) (n index : Nat) (r : Record) : State :=
  match s.cmd? n index with
  | none => s
  | some c => (s.writeRecord n index r c.irq).dropCmd n index

/-- Finish with a status alone. -/
def State.finishStatus (s : State) (n index status : Nat) : State := s.finish n index (plainRecord (cidOf n index) status)

/-- Whether a CID is finished (R426): its queue is enabled, it lies below the head and its record has been written. -/
def State.cidFinished (s : State) (cid : Nat) : Bool :=
  let q := s.queue (cid / 2 ^ 27)
  let low := cid % 2 ^ 27
  let h := q.head % 2 ^ 27
  let back := if low < h then h - low else h + 2 ^ 27 - low
  cid / 2 ^ 27 < 32 && q.en && back ≤ q.head && !q.started.any fun c => c.index + back == q.head && !c.finished

/-! ## Kernels -/

/-- The record of a kernel (R388, R424, R465). -/
def Kernel.record (k : Kernel) (e : KernelEnd) (prov suspect : Bool) : Record :=
  let flag (b : Bool) (n : Nat) : Nat := if b then 1 <<< n else 0
  { w0 := BitVec.ofNat 64 (k.cid % 2 ^ 32 + e.status <<< 32 + e.code.toNat <<< 40 + flag prov 48 + flag suspect 49 +
      flag k.modified 50 + flag e.host 51)
    w1 := BitVec.ofNat 64 (e.pc + (e.core % 256) <<< 48)
    w2 := e.addr
    w3 := BitVec.ofNat 64 e.lt }

/-- A kernel that ended without a core trap (R465). -/
def KernelEnd.plain (status : Nat) (code : BitVec 8) (addr : Nat) : KernelEnd :=
  { status := status, code := code, core := 0, pc := 0, addr := BitVec.ofNat 64 addr, lt := 0, host := false, silent := false }

/-- A kernel that ends with no record (R465). -/
def KernelEnd.unrecorded : KernelEnd := { KernelEnd.plain 2 0 0 with silent := true }

/-- A physical core leaves its kernel. -/
def Core.release (c : Core) : Core :=
  { c with run := .idle, kernel := none, copies := [], held := [], twin := none, pend := none, debugHold := false, freezes := false }

/-- The halt codes, two bytes each (R427). -/
def State.writeCodes (s : State) (k : Kernel) : State :=
  k.codes.foldl (fun s e => match e.2 with
    | some v => s.frontWrite (s.keyOf k.ctx) (k.halts + 2 * e.1) (toBytes 2 v)
    | none => s) s

/-- The completion record of a kernel that placed cores, under QCFG.CONFIRM (R433). -/
def State.kernelRecord (s : State) (k : Kernel) (e : KernelEnd) : State :=
  let n := k.queue
  let q := s.queue n
  if e.silent then s.dropCmd n k.index
  else if e.code == TrapCode.num .signatureMismatch then s.finish n k.index (k.record e false false)
  else
    let bad := k.used.any fun p => s.retired.contains p
    if bad then s.finish n k.index (k.record e false true)
    else
      let early := s.scanning.bind fun p => if k.used.contains p then some p else none
      let p : Pending :=
        { index := k.index, ctx := k.ctx, record := k.record e false false, addr := q.entry k.index, past := false, pairs := k.used, early := early,
          suspect := false, irq := k.irq }
      let s := if q.confirm then s else s.writeRecord n k.index (k.record e true false) k.irq
      let q := s.queue n
      s.setQueue n { q with
        pending := q.pending ++ [p]
        started := q.started.map fun c => if c.index == k.index then { c with finished := !q.confirm } else c }

/-- The last use of the groups a kernel held (R328). -/
def State.touchGroups (s : State) (gs : List (Nat × BitVec 8)) : State :=
  gs.foldl (fun s e =>
    let g := SMap.get .reset s.groups e.1
    { s with groups := SMap.set .reset s.groups e.1 { g with lastUse := SMap.set 0 g.lastUse e.2.toNat (s.phys + 1) } }) s

/-- Packets of an ended kernel are discarded, but what it has rung at the doorbell stands (R417, R427). -/
def Packet.outlives (p : Packet) (k : Kernel) : Bool :=
  p.kernel != (k.queue, k.cid) || match p.kind with | .doorbell .. => true | _ => false

/-- A kernel finishes: halt codes, record, pairs freed (R420, R427). -/
def State.endKernel (s : State) (k : Kernel) (e : KernelEnd) : State :=
  let s := (s.writeCodes k).kernelRecord k e
  let s := s.touchGroups k.groups
  let mine (c : Core) : Bool := c.kernel == some (k.queue, k.cid)
  let s := (k.place.filter fun n => mine (s.core n)).foldl (fun s n => s.modCore n Core.release) s
  { s with
    kernels := s.kernels.filter fun x => !(x.queue == k.queue && x.cid == k.cid)
    net := s.net.filter fun p => p.outlives k }

/-- A core of an aborted kernel stops: its commit buffer is discarded, started copies go on (R388). That a copy which is released and has
not started is cancelled too is the model's choice (log 122). A timed copy lands at an LT that the core never reaches. -/
def Core.stop (c : Core) : Core :=
  { c with
    run := .idle, twin := none, held := [], landing := [], takenIn := [], debugHold := false, freezes := false
    copies := c.copies.map fun k => if k.state == .held || (k.timed.isSome && !k.settled) then { k with state := .cancelled } else k
    a := { c.a with inflight := [], slots := [], ampBusy := [] } }

/-- The started copy whose operand beats an item in flight is still to read (R278). -/
def Core.readsOperands (c : Core) (i : Item) : Option Copy :=
  match i.act with
  | .readCopy id _ _ => (c.copy? id).filter fun k => k.state == .started
  | _ => none

/-- The operand beats of the started copies of a core that stops are read, in the order of their LTs with what lands before them, so that
the copies can run to their end; one that would read an uncorrectable word, or that waits for what never comes, fails (R278, R388; log
122). -/
def State.readOperands (s : State) (n : Nat) : State :=
  let c := s.core n
  match ((c.a.inflight.filter fun i => (c.readsOperands i).isSome).map Item.lt).max? with
  | none => s
  | some y =>
    let s := s.landBy n y
    (s.core n).a.inflight.foldl (fun s i =>
      let c := s.core n
      match c.readsOperands i with
      | some k => match s.perform n c i.lt i with
        | .ok s => s
        | .error t => s.setCore n (c.failCopy k t.code t.addr.toNat)
      | none => s) s

/-- Whether a kernel still has a copy to wait for: one not complete at `.sys`, nor failed or cancelled (R307). -/
def State.copiesOpen (s : State) (k : Kernel) : Bool := (s.placed k).any fun c => c.copies.any fun h => !c.settledAt 3 h

/-- Whether the front-end reaches where the halt codes of a kernel go (R320, R427, log 100). -/
def State.codesReach (s : State) (k : Kernel) : Bool := k.codes.all fun e => e.2.isNone || s.reaches 0 (k.halts + 2 * e.1) 2

/-- A PREEMPT that is freezing an aborted kernel finishes with nothing saved (R431). -/
def State.endPreempt (s : State) (k : Kernel) : State :=
  (upto 32).foldl (fun s n =>
    match (s.queue n).started.find? fun c => c.opc == 0x0C && !c.finished && fld (c.words.getD 1 0) 31 0 == k.cid with
    | some c => s.finishStatus n c.index 0
    | none => s) s

/-- Abort (R388): every core stops, commit buffers are discarded, started copies run to their end, and the kernel completes
with its record, at once where no copy runs. -/
def State.abortKernel (s : State) (k : Kernel) (e : KernelEnd) : State :=
  let mine := k.place.take k.n
  let s := mine.foldl (fun s n => (s.readOperands n).modCore n Core.stop) (s.logRewinds k)
  let s := { s with reports := s.reports.filter fun r => !mine.contains r.core }
  let s := if k.state == .frozen then s.endPreempt k else s
  let k := { k with state := .aborted, end_ := some e, held := [], context := [] }
  let s := s.setKernel k
  if s.copiesOpen k || !s.codesReach k then s else s.endKernel k e

/-- Abort every kernel that meets a test. -/
def State.abortAll (s : State) (p : Kernel → Bool) (e : KernelEnd) : State :=
  (s.kernels.filter p).foldl (fun s k => match s.kernel? (k.queue, k.cid) with
    | some k => if k.state == .aborted then s.setKernel { k with end_ := if e.silent then some e else k.end_ } else s.abortKernel k e
    | none => s) s

/-! ## Freezing (R394-R396) -/

/-- The beats of started reads that are on their way are requested again at resume (R396). An untimed beat whose landing is deferred is
here already, and stays (R244, R262, R361). -/
def Core.freezeCopy (c : Core) (k : Copy) : Copy :=
  if k.isRead && !k.settled then
    { k with beats := k.beats.mapIdx fun j b => match b.state with
        | .coming _ => if b.w.isSome && (k.timed.isSome || !c.beatDue k.id j) then { b with state := .waiting } else b
        | _ => b }
  else k

/-- A core stops before its next bundle (R394); `dest` is how it stands then. A core under debug halt stays halted when its kernel
freezes. One that is trapped, requeued or halting issues no bundle: it halts at its entry bundle once a rewind completes (R389), and
its traffic waits as that of the others does (R396). -/
def Core.freeze (c : Core) (dest : RunState) : Core :=
  let d : Core := { c with copies := c.copies.map c.freezeCopy }
  match c.run with
  | .idle => c
  | .running | .frozen => { d with run := dest }
  | .debug _ => if dest.halted? then { d with run := dest } else { d with freezes := true }
  | .trapped | .requeued | .halting _ => if dest.halted? then { d with debugHold := true } else { d with freezes := true }
  | .halted _ => if dest.halted? then c else { d with freezes := true }

/-- A core stops; one that the debugger halts drains its pipelines and latches first (R114, R395, R399), also one that has issued its
`halt`. -/
def State.freezeCore (s : State) (n : Nat) (dest : RunState) : State :=
  let s := s.modCore n fun c => c.freeze dest
  let c := s.core n
  if c.run.halted? || (c.debugHold && match c.run with | .halting _ => true | _ => false) then s.drain n else s

/-- Every core of a kernel stops. -/
def State.freezeKernel (s : State) (k : Kernel) (dest : RunState) : State :=
  (k.place.take k.n).foldl (fun s n => s.freezeCore n dest) s

end Sys2Proof.Machine
end

