-- ==== Sys2Proof/Machine/TrapHandling.lean ====
section
/-! DEFINITION. The front-end's handling of traps (R388-R390): rewind (R151, R152), twin reruns (R216), requeue and the PRI
response, abort, host and debug halt. -/
namespace Sys2Proof.Machine

/-- The five responses of R388. -/
inductive Response where
  | rewind | requeue | abort | host | debugHalt
  deriving DecidableEq, Repr

/-- The response of R387 by the number of a code; BARRIER_FAULT takes that of its CAUSE (R297). -/
def responseOf (code : BitVec 8) : Response :=
  if code == 0x13 || code == 0x14 || code == 0x20 then .rewind
  else if code == 0x10 || code == 0x11 then .requeue
  else if code == 0x1A then .host
  else if code == 0x0B || code == 0x1B then .debugHalt
  else .abort

/-- The code whose response a report has: a BARRIER_FAULT has that of the CAUSE of the barrier waited on (R297). -/
def TrapReport.effective (r : TrapReport) : BitVec 8 := if r.code = .barrierFault then r.cause else r.code.num

/-- The end of a kernel by the trap of a core as its registers hold it (R388). -/
def Core.trapEnd (c : Core) (n : Nat) (host : Bool) : KernelEnd :=
  { status := 2, code := c.a.trapcode, core := n, pc := c.a.trappc, addr := c.a.faultaddr, lt := c.a.traplt, host := host,
    silent := false }

/-- Debug halt (R388, R399): every core of the kernel. The trapped core halts where it stands and drains (R114), but for what trapped;
one stopped by BREAK will pass its `brk` once (R409). -/
def State.debugHalt (s : State) (n : Nat) (k : Kernel) : State :=
  let skip := (s.core n).a.trapcode == TrapCode.num .break
  let s := s.modCore n fun c =>
    { c with run := .debug false, brkskip := c.brkskip || skip, debugHold := false, twin := none, copies := c.copies.map c.freezeCopy }
  (((k.place.take k.n).filter fun m => m != n).foldl (fun s m => s.freezeCore m (.debug false)) s).drain n

/-- An Abort or Debug halt response to the trap of core n (R388): the fault-hold policy and TRAPHALT turn an abort into a
debug halt; a debug halt without a session is an abort. -/
def State.abortOrHalt (s : State) (n : Nat) (k : Kernel) (halt : Bool) : State :=
  let c := s.core n
  if (halt || (s.queue k.queue).hold || c.dbgctl.getLsbD 2) && k.session then s.debugHalt n k
  else s.abortKernel k (c.trapEnd n false)

/-- Physical cycles added to BUDGET, whose 48 bits hold them up to their largest value (R151, R157, log 98). -/
def Core.credit (c : Core) (k : Nat) : Core := { c with budget := Nat.min (c.budget + k) (2 ^ 48 - 1) }

/-- Rewind the segment of a core with a credit to BUDGET (R151); a core that halts, or whose kernel freezes, stays at its entry
(R389). -/
def State.rewindCore (s : State) (n credit : Nat) (k : Kernel) : State :=
  s.modCore n fun c =>
    let d := c.rewind.credit credit
    { d with
      debugHold := false
      run := if c.debugHold || c.run.halted? then .debug false else if k.state == .frozen then .frozen else .running }

/-- The front-end notes the rewind it orders for the trap in a core's registers: another rerun for the trap of the rewind pending,
or a new entry, before which the pending one, which that rewind has ended, enters the log (R462). -/
def State.noteRewind (s : State) (n : Nat) : State :=
  let a := (s.core n).a
  let new : PendLog := { corenum := n, code := a.trapcode, pc := a.trappc, addr := a.faultaddr, lt := a.traplt, reruns := 1 }
  match (s.core n).pend with
  | some p =>
    if { p with reruns := 1 } = new then s.modCore n fun c => { c with pend := some { p with reruns := p.reruns + 1 } }
    else (s.logRewind n 0).modCore n fun c => { c with pend := some new }
  | none => s.modCore n fun c => { c with pend := some new }

/-- An error rewind for a trap at LT t: the count of R152, the credit of R151. -/
def State.errorRewind (s : State) (n t : Nat) (k : Kernel) : State :=
  (s.rewindCore n (2 * (t + 1 - (s.core n).ck.segLt)) k).modCore n fun d => { d with rewinds := d.rewinds + 1 }

/-- A core's reporting registers as a trap that the front-end raises for it leaves them (R386). -/
def Core.report (c : Core) (code : BitVec 8) (pc : Nat) (addr : BitVec 64) (lt : Nat) : Core :=
  { c with a := { c.a with trapcode := code, trappc := pc, faultaddr := addr, traplt := lt } }

/-- Disagreeing twin reruns, or a trap in one (R216): the pair is retired and reported, and SIGNATURE_MISMATCH naming the lowest
accumulator row of the segment has the response Abort. That the row is the lowest which the last rerun updated, and 0 where it
updated none, is the model's choice (log 123). -/
def State.twinMismatch (s : State) (n : Nat) (k : Kernel) : State :=
  let p := pairOf n
  let s := s.logRewind n 2
  let s := { s with
    retired := if s.retired.contains p then s.retired else s.retired ++ [p]
    outs := s.outs ++ [Output.pairFailed p] }
  let s := s.modCore n fun c =>
    c.report (TrapCode.num .signatureMismatch) c.a.pc (BitVec.ofNat 64 ((c.mx.updated.min?).getD 0)) c.a.next
  s.abortOrHalt n k false

/-- The host granule of an address that a PRI request names (R267, R388). -/
def Core.faultGranule (c : Core) (a : Nat) : Nat := (c.window (winOf a)).granule (offOf a)

/-- Handle the trap of a core of a kernel (R388, R389). -/
def State.handleTrap (s : State) (n : Nat) (k : Kernel) (r : TrapReport) : State :=
  let c := s.core n
  if c.twin.isSome then s.twinMismatch n k
  else
    match responseOf r.effective with
    | .host => s.abortKernel k (c.trapEnd n true)
    | .debugHalt => s.abortOrHalt n k true
    | .abort => s.abortOrHalt n k false
    | .rewind =>
      if c.a.out then s.abortOrHalt n k false
      else if 5 ≤ c.rewinds then (s.logRewind n 3).abortOrHalt n k false
      else
        let s := (s.noteRewind n).errorRewind n r.lt k
        if r.matrix then s.modCore n fun d => { d with twin := some { first := none, atExit := false } } else s
    | .requeue =>
      if c.a.out || 64 ≤ c.requeues then s.abortOrHalt n k false
      else
        { s.setCore n { c with run := .requeued } with
          outs := s.outs ++ [.pri n (c.faultGranule r.addr.toNat)] }

/-- R388: the front-end handles the trap that reached it first; one whose kernel has ended is abandoned (R389). -/
def execTrapHandling (s : State) : Res :=
  match s.reports with
  | [] => notNow s
  | r :: rest =>
    let s := { s with reports := rest }
    let c := s.core r.core
    match s.kernelOf c with
    | some k => if c.run == .trapped && k.state != .aborted then .next (s.handleTrap r.core k r) else .next s
    | none => .next s

/-- R388: the PRI response; on success the segment is rewound with its credit, a failed response makes the trap an Abort. -/
def execPriResponse (n : Nat) (ok : Bool) (s : State) : Res :=
  let c := s.core n
  match s.kernelOf c with
  | some k =>
    if c.run != .requeued then notNow s
    else if ok then
      .next (((s.noteRewind n).rewindCore n (c.a.traplt + 1 - c.ck.segLt) k).modCore n fun d => { d with requeues := d.requeues + 1 })
    else .next (s.abortOrHalt n k false)
  | none => notNow s

/-- R216: at the exit of the first rerun the front-end records exit LT and RSIG and rewinds again; at that of the second it
compares. A second rerun that would be a sixth rewind is refused under R152. -/
def execMatrixTwinRerun (n : Nat) (s : State) : Res :=
  let c := s.core n
  match c.twin, s.kernelOf c with
  | some t, some k =>
    if !t.atExit then notNow s
    else
      let here := (c.a.next, c.a.sys.rsig)
      match t.first with
      | none =>
        if 5 ≤ c.rewinds then
          let s := match c.pend with
            | some p => s.modCore n fun d => d.report p.code p.pc p.addr p.lt
            | none => s
          .next ((s.logRewind n 3).abortOrHalt n k false)
        else
          .next ((s.errorRewind n here.1 k).modCore n fun d =>
            { d with twin := some { first := some here, atExit := false }
                     pend := d.pend.map fun p => { p with reruns := p.reruns + 1 } })
      | some first =>
        if first == here then .next ((s.logRewind n 1).modCore n fun d => { d with twin := none }) else .next (s.twinMismatch n k)
  | _, _ => notNow s

end Sys2Proof.Machine
end

