-- ==== Sys2Proof/Machine/CoreEvents.lean ====
section
/-! DEFINITION. Events inside a timing domain: results that land late (R16), rendezvous and step releases (R153-R155), BUDGET
(R157), the pair link (R221, R222), amplitude chunks (R355), halted cores and finished kernels (R164, R420). -/
namespace Sys2Proof.Machine

/-- R16: result k of core n has physically landed. -/
def execResultLand (n k : Nat) (s : State) : Res :=
  let c := s.core n
  match c.a.inflight[k]? with
  | some i =>
    eventIf s (!i.ready && !i.act.isGate)
      (s.setCore n { c with a := { c.a with inflight := c.a.inflight.set k { i with ready := true } } })
  | none => notNow s

/-- Open the gates of a core that meet a test. -/
def Core.openGates (c : Core) (p : Act → Bool) : Core :=
  { c with a := { c.a with inflight := c.a.inflight.map fun i => if p i.act then { i with ready := true } else i } }

/-- Whether a core counts as arrived at every later rendezvous and step (R158, R164). -/
def Core.outOfPlay (c : Core) : Bool :=
  match c.run with
  | .halted _ => true
  | .halting _ => c.a.out
  | _ => false

/-! ## Rendezvous (R153, R154) -/

/-- Whether every member of a group has issued the rendezvous with a completion count. -/
def State.rdvReady (s : State) (k : Kernel) (g count : Nat) : Bool :=
  (s.membersOf k g).all fun m => m.outOfPlay || match m.rdvOn g with
    | some (_, n) => n == count
    | none => false

/-- R153: a rendezvous is satisfied by every member's arrival, or because all members completed it before (R154). -/
def execRdvRelease (n slot : Nat) (s : State) : Res :=
  let c := s.core n
  match SMap.get none c.a.rdv slot, s.kernelOf c with
  | some r, some k =>
    let count := (SMap.get 0 c.a.sys.rdvcnt slot).toNat
    let before := SMap.get 0 k.rdvDone r.group
    if count < before || s.rdvReady k r.group count then
      let s := s.setKernel { k with rdvDone := SMap.set 0 k.rdvDone r.group (Nat.max before (count + 1)) }
      .next (s.modCore n fun c => c.openGates fun a => a == .rdvGate slot)
    else notNow s
  | _, _ => notNow s

/-! ## Step (R155) -/

/-- Whether a core has issued its `step` and gone as far as it can without the others' releases: it stands at its release
LT, or before it at the landing LT of a timed send or a receive whose arrival is not there. -/
def State.atStep (s : State) (c : Core) : Bool :=
  c.a.step.isSome && match c.dueLt with
    | none => false
    | some x =>
      let due := c.a.inflight.filter fun i => i.lt == x
      (s.stopBy c x).isSome || (due.all fun i => i.act.isGate) && (due.any fun i => match i.act with | .stepGate _ => true | _ => false) ||
      (due.any fun i => match i.act with | .receive .. => i.ready && !s.itemOpen c x i | _ => false)

/-- The exit checks of one core at a step, then its release; a twin rerun stands at its exit (R155, R216). -/
def State.stepExit (s : State) (n : Nat) : State :=
  let c := s.core n
  if c.outOfPlay || c.a.out then s
  else match c.exitTrap with
    | some t => takeTrap n t s
    | none =>
      if c.twin.isSome then s.modCore n Core.atExit
      else
        let d := c.releaseHeld
        s.setCore n { d with a := { d.a with out := true } }

/-- Whether a `step` waits for a word: the copies of the queues, and an `icinv`, which R410 makes a write (R155, R305). -/
def Copy.stepWaits (k : Copy) : Bool := k.q.isSome || match k.op with | .icinv .. => true | _ => false

/-- Whether a core runs, or has been released by STEP for the bundle that it goes to (R399). -/
def RunState.goes : RunState → Bool
  | .running | .debug true => true
  | _ => false

/-- R155: once every core has issued its `step`, each makes its exit checks and releases its commit buffer; once every copy
issued before is settled, the release LT opens on every core. `k` is the place of the kernel in the list of kernels. A core that STEP
has released takes part as a running one, so that its bundle can issue (R399). -/
def execStepRelease (k : Nat) (s : State) : Res :=
  match s.kernels[k]? with
  | none => notNow s
  | some kr =>
    let cs := s.placed kr
    if cs.isEmpty || cs.all Core.outOfPlay || !cs.all fun c => c.outOfPlay || (c.run.goes && s.atStep c && !c.translating) then
      notNow s
    else if cs.all fun c => c.outOfPlay || c.a.out then
      if cs.all fun c => c.copies.all fun h => !h.stepWaits || h.settled then
        .next ((kr.place.take kr.n).foldl (fun s n => s.modCore n fun c => c.openGates fun a =>
          match a with | .stepGate _ => true | _ => false) s)
      else notNow s
    else .next ((kr.place.take kr.n).foldl State.stepExit s)

/-! ## BUDGET (R157) -/

/-- R157: the physical cycles left pass, and the core raises DEADLINE before its next bundle. -/
def execBudgetExpiry (n : Nat) (s : State) : Res :=
  eventIf s (s.budgetRuns (s.core n)) (s.deadline n)

/-! ## The pair link (R221, R222) -/

/-- What becomes of the oldest row on the link (R221): `none` while it stays there. -/
def Core.pairTake (c : Core) (r : PairRow) : Option Core :=
  let h := c.mx.partner
  let take : Core := { c with mx := { c.mx with partner := h.put r.seq r.par r.row r.data, link := c.mx.link.drop 1 } }
  if h.rows.isEmpty then some take
  else if r.seq == h.seq then
    if (SMap.get none h.rows r.row).isSome then some { c with mx := { c.mx with link := c.mx.link.drop 1 } } else some take
  else if r.seq == h.seq + 1 then if c.ck.pseq == r.seq then some take else none
  else some take

/-- R221 -/
def execPairRowArrival (n : Nat) (s : State) : Res :=
  let c := s.core n
  match c.mx.link with
  | [] => notNow s
  | r :: _ => match c.pairTake r with
    | some c => .next (s.setCore n c)
    | none => notNow s

/-- R222: more than a millisecond at the release LT. -/
def execPairTimeout (n : Nat) (s : State) : Res :=
  let c := s.core n
  let waiting := c.a.inflight.find? fun i => match i.act with | .pairGate .. => some i.lt == c.dueLt | _ => false
  match waiting with
  | some i => eventIf s (c.run == .running && s.ms 1 < c.pairWait) (takeTrap n (Trap.at_ .pairTimeout i.word) s)
  | none => notNow s

/-! ## Amplitude exchange (R355) -/

/-- R355: the next chunk of a partner on this package, or one from a peer package, arrives at core n. -/
def execAmpChunkArrival (n : Nat) (peer : Option AmpChunk) (s : State) : Res :=
  let c := s.core n
  match peer with
  | some k =>
    eventIf s (s.hears && c.ampRoom k) ((s.setCore n { c with ampBuf := c.ampBuf ++ [k] }).ampRun n)
  | none =>
    match s.ampSender n with
    | none => notNow s
    | some (m, k) =>
      let s := (s.setCore n { c with ampBuf := c.ampBuf ++ [k] }).crossDie (dieOf m) (dieOf n) (c.a.sys.amp.chunkBeats k)
      let s := s.modCore m fun d => match d.ampActive with
        | some e => d.setAmpEntry { e with sent := e.sent + 1 }
        | none => d
      .next ((s.ampRun n).ampRun m)

/-! ## Halting and finishing (R164, R420) -/

/-- R164: the core is reported halted once every copy it issued has ended; a copy of the halting segment that failed after its
release is raised as its trap (R270). -/
def execCoreHaltReport (n : Nat) (s : State) : Res :=
  let c := s.core n
  match c.run, s.kernelOf c with
  | .halting code, some k =>
    if !c.a.out || !c.a.inflight.isEmpty || !c.copies.all Copy.settled then notNow s
    else match c.exitTrap with
      | some t => .next (takeTrap n t s)
      | none =>
        let s := s.setCore n { c with run := .halted code }
        .next (s.setKernel { k with codes := SMap.set none k.codes c.lcore (some code.toNat) })
  | _, _ => notNow s

/-- R307, R388, R420: a kernel finishes once every core has halted and every copy is complete at `.sys`; an aborted one once its
started copies have ended. Its halt codes are written then (R427), over a link that is up (R320). -/
def execKernelFinish (k : Nat) (s : State) : Res :=
  match s.kernels[k]? with
  | none => notNow s
  | some kr =>
    if !s.codesReach kr then notNow s else match kr.state with
    | .aborted => eventIf s (!s.copiesOpen kr) (s.endKernel kr (kr.end_.getD (KernelEnd.plain 2 0 0)))
    | .running =>
      let cs := s.placed kr
      let finished (c : Core) : Bool := (match c.run with | .halted _ => true | _ => false) && c.copies.all fun h => c.settledAt 3 h
      eventIf s (cs.length == kr.n && cs.all finished) (s.endKernel kr (KernelEnd.plain 0 0 0))
    | _ => notNow s

end Sys2Proof.Machine
end

