-- ==== Sys2Proof/Machine/Network.lean ====
section
/-! DEFINITION. The network: the landing buffer (R263), timed sends (R288-R291), remote arrivals (R296), `pk.snd` (R327, R347) and
`icinv` requests (R410); what rail groups receive (R319, R320). -/
namespace Sys2Proof.Machine

/-! ## The landing buffer (R263) -/

/-- Entries of 64 bytes that a landing takes (R263, R288). -/
def Landing.size (l : Landing) : Nat :=
  match l.kind with
  | .beat .. => 1
  | .send _ wide _ => if wide then 4 else 1

def landingSize (ls : List Landing) : Nat := ls.foldl (fun n l => n + l.size) 0

/-- The held entry with the latest landing LT, the latest to arrive among equals. -/
def latestLanding : List Landing → Option Landing
  | [] => none
  | l :: ls => match latestLanding ls with
    | none => some l
    | some m => if m.land < l.land then some l else some m

/-- Remove entries that land later than LT t, the latest first, until `n` more entries fit; `none` where they cannot. R263 removes one
entry; that an arrival of four entries removes as many as it needs, or is refused, is the model's choice (log 106). -/
def makeRoom (t n : Nat) : Nat → List Landing → List Landing → Option (List Landing × List Landing)
  | 0, _, _ => none
  | fuel + 1, ls, out =>
    if landingSize ls + n ≤ 64 then some (ls, out)
    else match latestLanding ls with
      | some l => if t < l.land then makeRoom t n fuel (ls.erase l) (out ++ [l]) else none
      | none => none

/-- R263: put an entry in the landing buffer of a core; the entries refused in its place, or `none` if it is refused itself. -/
def Core.acceptLanding (c : Core) (l : Landing) : Option (Core × List Landing) :=
  (makeRoom l.land l.size 65 c.landing []).map fun r => ({ c with landing := r.1 ++ [l] }, r.2)

/-- A beat refused by the landing buffer is read again from memory (R263). -/
def Core.refuseBeat (c : Core) (l : Landing) : Core :=
  match l.kind with
  | .beat id j _ => match c.copy? id with
    | some k => match k.beats[j]? with
      | some b => c.setCopy (k.setBeat j { b with state := .waiting })
      | none => c
    | none => c
  | .send .. => c

/-- The packet that carries a refused send again (R263). -/
def Landing.again (l : Landing) (kernel : Nat × Nat) (dst : Nat) : Option Packet :=
  match l.kind with
  | .send sender wide v => some { kind := .send sender l.land wide v, src := none, dst := dst, kernel := kernel }
  | .beat .. => none

/-- An entry reaches the landing buffer of core n (R263); `none` if it is refused. -/
def State.land (s : State) (n : Nat) (l : Landing) : Option State :=
  let c := s.core n
  (c.acceptLanding l).map fun (c, out) =>
    let c := out.foldl Core.refuseBeat c
    let back := out.filterMap fun l => l.again (c.kernel.getD (0, 0)) c.lcore
    { s.setCore n c with net := back.reverse ++ s.net }

/-! ## Packets -/

/-- The die of a logical core of a kernel, by queue and CID (R23). -/
def State.dieOfMember (s : State) (k : Nat × Nat) (l : Nat) : Nat := ((s.kernel? k).map fun kr => kr.dies.getD l 0).getD 0

/-- The core a packet is for: its physical number. -/
def State.target (s : State) (p : Packet) : Option Nat := (s.kernel? p.kernel).bind fun k => if p.dst < k.n then k.phys? p.dst else none

/-- The sender's physical core and copy. -/
def State.sender (s : State) (p : Packet) : Option (Nat × Nat) :=
  p.src.bind fun (l, id) => ((s.kernel? p.kernel).bind fun k => k.phys? l).map fun n => (n, id)

def State.dropPacket (s : State) (i : Nat) : State := { s with net := s.net.eraseIdx i }

/-- A copy ends well: every beat is acknowledged (R256). -/
def Core.endCopy (c : Core) (id : Nat) : Core :=
  match c.copy? id with
  | none => c
  | some k =>
    if k.settled then c
    else if k.beats.isEmpty then c.completeCopy k
    else (upto k.beats.length).foldl (fun c j => c.finishBeat id j) c

/-- The die that a packet is for: of the front-end, which triggers go to, or of its core (R9, R344). -/
def State.packetDie (s : State) (p : Packet) : Nat := if p.kind == .trigger then 0 else s.dieOfMember p.kernel p.dst

/-- Whether a packet and its answer can pass between the dies of its sender and of its target (R320); a doorbell is for the front-end. -/
def State.packetPasses (s : State) (p : Packet) : Bool :=
  match p.kind, p.src with
  | .doorbell _ _ _ die, _ => die == 0 || s.groupUp 3
  | _, some (l, _) => s.packetDie p == s.dieOfMember p.kernel l || s.groupUp 3
  | _, none => true

/-- The answer to a packet goes back to the die of its sender (R318). -/
def State.sendBack (s : State) (p : Packet) : State :=
  match p.src with
  | some (l, _) => s.crossDie (s.packetDie p) (s.dieOfMember p.kernel l) []
  | none => s

/-- The sender of a packet learns that it has done its work. -/
def State.acknowledge (s : State) (p : Packet) : State :=
  match s.sender p with
  | some (n, id) => (s.sendBack p).modCore n fun c => c.endCopy id
  | none => s

/-- A core of a kernel, placed or in its saved context, changes (R396). -/
def State.modMember (s : State) (k : Kernel) (l : Nat) (f : Core → Core) : State :=
  match k.phys? l with
  | some n => s.modCore n f
  | none => match SMap.get none k.context l with
    | some c => s.setKernel { k with context := SMap.set none k.context l (some (f c)) }
    | none => s

/-! ## Timed sends (R288-R291) -/

/-- Whether two packets are sends of one channel. -/
def Packet.sameChannel (p q : Packet) : Bool :=
  p.kernel == q.kernel && p.dst == q.dst && match p.kind, q.kind with
    | .send a .., .send b .. => a == b
    | _, _ => false

/-- R288: a timed send arrives, in the order of its channel; a full landing buffer may refuse it (R263), a halted receiver
discards it (R291). -/
def execSendArrival (k : Nat) (s : State) : Res :=
  match s.net[k]? with
  | some p =>
    match p.kind, s.target p with
    | .send from_ t wide v, some n =>
      if (s.net.take k).any fun q => q.sameChannel p then notNow s
      else
        let c := s.core n
        let s' := s.dropPacket k
        if (match c.run with | .halted _ => true | _ => false) && c.haltLt < t then .next (s'.acknowledge p)
        else match s'.land n { land := t, kind := .send from_ wide v } with
          | some s' => .next (s'.acknowledge p)
          | none => .next s
    | _, _ => notNow s
  | none => notNow s

/-! ## Remote arrivals (R296, R312) -/

/-- R296: a remote arrival is applied, held while its core is frozen, or discarded where the barrier is not in the table. -/
def execRemoteArrival (k : Nat) (s : State) : Res :=
  match s.net[k]? with
  | some p =>
    match p.kind, s.kernel? p.kernel with
    | .arrive a n, some kr =>
      .next (((s.dropPacket k).acknowledge p).modMember kr p.dst fun c =>
        c.receiveUpdate { src := .remote, a := a, u := .arrive n })
    | _, _ => notNow s
  | none => notNow s

/-! ## `pk.snd` (R327, R347) -/

/-- Fields of a `pk.snd` descriptor (R347). -/
def pkAddr (d : W64) : Nat := 64 * fld d 42 26
def pkBar (d : W64) : Option Nat := if fld d 62 62 == 1 then some (16 * fld d 61 43) else none
def pkRank (d : W64) : Nat := fld d 25 8
def pkGroup (d : W64) : Nat := fld d 7 0

/-- Whether a payload may be written at an address (R347). -/
def Core.pkAllowed (c : Core) (a len : Nat) : Bool := a + len ≤ spadSize && (c.a.refusedByte true a len).isNone

/-- The 64-byte blocks that a payload of a `pk.snd` lands in (R347). -/
def pkBlocks (a : Nat) (wide : Bool) : List Nat := (upto (if wide then 4 else 1)).map fun i => a + 64 * i

/-- The payload of a `pk.snd` is written as landings of its blocks, which FILLED counts (R242, R262, R347). -/
def Core.pkWrite (c : Core) (a : Nat) (wide : Bool) (v : Val) : Core :=
  (pkBlocks a wide).foldl Core.countLanding (c.storeWords a (v.words (if wide then 64 else 2)))

/-- The LT to which the landing of a payload is deferred: until no block of it meets a slot or an amplitude slice (R244, R361). -/
def Core.pkLandingLt (c : Core) (a : Nat) (wide : Bool) : Nat :=
  (pkBlocks a wide).foldl (fun x b => Nat.max x (c.landingLt c.a.lt b)) c.a.lt

/-- The refusal of a packet goes back to its sender (R327, R347). -/
def State.refusePk (s : State) (p : Packet) (code : TrapCode) (a : Nat) : State :=
  match p.src with
  | some _ =>
    let s := s.sendBack p
    { s with net := s.net ++ [{ p with kind := .refusal code a }] }
  | none => s.sendOut none [] [.pkAnswer (some (code, a))]

/-- A payload is written at its target, with its arrival, or refused (R347); `held` for one that waited in the front-end and whose
arrival has its place among the held updates. -/
def State.deliverPk (s : State) (p : Packet) (n a : Nat) (wide : Bool) (v : Val) (bar : Option Nat) (held : Bool) : State :=
  let c := s.core n
  if !c.pkAllowed a (if wide then 256 else 8) then
    (s.setCore n (match bar with
      | some b => if held then { c with held := c.held.erase { src := .remote, a := b, u := .arrive 1 } } else c
      | none => c)).refusePk p .range a
  else
    let c := c.pkWrite a wide v
    let c := match bar with
      | some b => if held then c else c.receiveUpdate { src := .remote, a := b, u := .arrive 1 }
      | none => c
    let s := (s.setCore n c).acknowledge p
    match p.src with
    | some _ => s
    | none => s.sendOut none [] [.pkAnswer none]

/-- Packets that a frozen or saved kernel holds: the payload waits in the front-end, its arrival among the held updates (R396). -/
def State.holdPk (s : State) (k : Kernel) (p : Packet) (bar : Option Nat) : State :=
  let s := s.setKernel { k with held := k.held ++ [p] }
  match bar, s.kernel? p.kernel with
  | some b, some k => s.modMember k p.dst fun c => { c with held := c.held ++ [{ src := .remote, a := b, u := .arrive 1 }] }
  | _, _ => s

/-- A packet at its kernel: dropped as stale (R327), held, or delivered. -/
def State.pkArrive (s : State) (p : Packet) : Option State :=
  match p.kind, s.kernel? p.kernel with
  | .pk a wide v bar g gen, some kr =>
    let e := s.group g
    if !(e.assigned && e.gen == gen) then
      some ((s.modMember kr p.dst fun c => { c with gstale := c.gstale + 1 }).refusePk p .groupStale a)
    else match kr.phys? p.dst with
      | none => some (s.holdPk kr p bar)
      | some n =>
        let c := s.core n
        if c.still then some (s.holdPk kr p bar)
        else if c.a.lt < c.pkLandingLt a wide then none
        else some (s.deliverPk p n a wide v bar false)
  | _, _ => none

/-- The packet of a peer's `pk.snd` at this package: its target is the rank its group names (R325, R327). -/
def State.peerPk (s : State) (k : PkPacket) : Option Packet :=
  let g := s.group (pkGroup k.desc)
  match findRank (pkRank k.desc) (s.groupLists g) with
  | some (p, place) =>
    if p != s.pkgnum.toNat then none
    else match g.locals[place]?, s.kernels.find? fun kr => kr.cid == g.owner with
      | some l, some kr =>
        some { kind := .pk (pkAddr k.desc) k.wide { bits := k.data, ep := 0, sp := 0 } (pkBar k.desc) (pkGroup k.desc) k.gen,
               src := none, dst := l, kernel := (kr.queue, kr.cid) }
      | _, _ => none
  | none => none

/-- R347: a payload reaches its target core, from this package or from a peer; one whose target does not exist here is
dropped as stale (R327); none from a peer is answered in recovery (R438), and none comes while every rail group is DOWN (R320). -/
def execPkSndArrival (k : Nat) (peer : Option PkPacket) (s : State) : Res :=
  match peer with
  | some q =>
    if !s.hears then notNow s
    else match s.peerPk q with
    | some p => match s.pkArrive p with
      | some s => .next s
      | none => notNow s
    | none => .next (s.sendOut none [] [.pkAnswer (some (.groupStale, pkAddr q.desc))])
  | none => match s.net[k]? with
    | some p => match (s.dropPacket k).pkArrive p with
      | some s => .next s
      | none => notNow s
    | none => notNow s

/-- The package a `pk.snd` of a core goes to (R347). -/
def State.pkPackage (s : State) (desc : W64) : Option Nat :=
  (findRank (pkRank desc) (s.groupLists (s.group (pkGroup desc)))).map Prod.fst

/-- R327: a refusal reaches the sender, whose copy fails: a refusal on this package's network, or one by a peer package. -/
def execPkSndRefusal (n id : Nat) (s : State) : Res :=
  let c := s.core n
  match c.copy? id with
  | some k =>
    match k.op with
    | .pkSnd desc _ _ _ =>
      let mine (p : Packet) : Bool := s.sender p == some (n, id) && match p.kind with | .refusal .. => true | _ => false
      match s.net.find? mine with
      | some p => match p.kind with
        | .refusal code a => .next (({ s with net := s.net.erase p } : State).setCore n (c.failCopy k code a))
        | _ => notNow s
      | none =>
        eventIf s (s.hears && k.state == .started && s.pkPackage desc != some s.pkgnum.toNat)
          (s.setCore n (c.failCopy k .groupStale (pkAddr desc)))
    | _ => notNow s
  | none => notNow s

/-! ## `icinv` (R410) -/

/-- R410: a request reaches a target, running, frozen or halted, and is acknowledged; the copy is complete with the last. -/
def execIcinvRequestArrival (k : Nat) (s : State) : Res :=
  match s.net[k]? with
  | some p =>
    match p.kind, s.kernel? p.kernel with
    | .icinv, some kr =>
      let s := (s.dropPacket k).modMember kr p.dst fun c => { c with icache := [] }
      let more := s.net.any fun q => q.kernel == p.kernel && q.src == p.src && q.kind == .icinv
      .next (if more then s.sendBack p else s.acknowledge p)
    | _, _ => notNow s
  | none => notNow s

/-! ## Rails (R319, R320) -/

/-- Whether nothing goes over a rail group, because the device answers no peer package: groups 0-2 are those of UALink (R438, R445). -/
def State.groupDeaf (s : State) (g : Nat) : Bool := s.deaf && g != 3

/-- R319: a stripe arrives; one lost beat is rebuilt, two or more are requested again. A beat on a rail that is down is lost. The
link layer may replay a beat that has been rebuilt. In recovery no stripe of UALink is answered (R438). -/
def execLinkBeatReceive (group : Nat) (beats : List (Option Beat512)) (xor : Option Beat512) (s : State) : Res :=
  let down := s.railsDown group
  let seen := (upto beats.length).all fun k => !(down.contains k && ((beats.getD k none).isSome))
  let lost := (beats.filter Option.isNone).length
  if s.groupDeaf group || 4 ≤ group || beats.isEmpty || 4 < beats.length || 2 ≤ down.length || !seen || (down.contains 4 && xor.isSome) then
    notNow s
  else
    let got := beats.filterMap id
    if lost == 0 then .next { s with outs := s.outs ++ [.beats group got] }
    else match lost, xor with
      | 1, some x =>
        let b := xorBeats got ^^^ x
        .next { s with outs := s.outs ++ [.beats group (beats.map fun o => o.getD b)], rebuilt := s.rebuilt ++ [group] }
      | _, _ => .next { s with outs := s.outs ++ [.resend group] }

/-- R319, R320: a packet is sent again from the retransmit buffer, or leaves at last, on a rail group that is up. -/
def execRetransmitRequest (k : Nat) (s : State) : Res :=
  match s.retransmit[k]? with
  | some e => match s.groupFor e with
    | some g =>
      eventIf s (!s.groupDeaf g) { s with
        outs := s.outs ++ .rails g (onRails e.xor e.beats) :: e.unsent
        retransmit := s.retransmit.set k { e with group := g, unsent := [] } }
    | none => notNow s
  | none => notNow s

end Sys2Proof.Machine
end

