-- ==== Sys2Proof/Machine/CopyEvents.lean ====
section
/-! DEFINITION. Events of the copy engines: starts (R257), beats (R258, R260, R262), translations (R267-R270), peer refusals
(R268), the flushing read (R300); and the HBM controllers (R273-R277, R282, R283). -/
namespace Sys2Proof.Machine

/-! ## Starting (R257) -/

/-- Whether a copy uses a peer window. -/
def Core.toPeer (c : Core) (k : Copy) : Bool := k.beats.any fun b => match b.w with | some w => c.kindOf w == 3 | none => false

/-- The first window address of a copy. -/
def Copy.firstAddr (k : Copy) : Nat := (k.beats.findSome? fun b => b.w).getD 0

/-- The package of the peer window of an address. -/
def Core.peerOf (c : Core) (w : Nat) : Nat := (c.window (winOf w)).peer

/-- Whether another package can be reached: the package has its number (R453) and a rail group is up (R321). -/
def State.canReach (s : State) : Bool := s.pkgset && s.fabricUp

/-- The packets with which an outbound word leaves its core: kind and receiving logical core. -/
def State.packetsOf (s : State) (c : Core) (kr : Kernel) (k : Copy) : List (PacketKind × Nat) :=
  match k.op with
  | .snd dest t wide v => [(.send c.lcore t wide v, dest)]
  | .remoteArv dest a n => [(.arrive a n, dest)]
  | .icinv scope g =>
    let ls := if scope == 1 then (s.group g).locals.filter fun l => l < kr.n else upto kr.n
    ls.map fun l => (.icinv, l)
  | .clBase .. | .clFire _ => [(.trigger, 0)]
  | .pkSnd d gen wide v =>
    let g := s.group (pkGroup d)
    match findRank (pkRank d) (s.groupLists g) with
    | some (p, place) =>
      if p == s.pkgnum.toNat then [(.pk (pkAddr d) wide v (pkBar d) (pkGroup d) gen, g.locals.getD place 0)] else []
    | none => []
  | _ => []

/-- The packets with which a copy or a `pk.snd` enters the fabric, a request or a beat of payload each (R318, R319). -/
def State.enterFabric (s : State) (n : Nat) (k : Copy) : State :=
  match k.op with
  | .pkSnd d gen wide v =>
    let p : PkPacket := { desc := d, gen := gen, wide := wide, data := v.bits }
    s.sendOut (some (beatNumber n k.id 0)) ((digits 512 (if wide then 4 else 1) v.bits.toNat).map (BitVec.ofNat 512))
      [.pkSend ((s.pkPackage d).getD 0) p]
  | _ =>
    (upto k.beats.length).foldl (fun s j => match k.beats[j]? with
      | some b => s.sendOut (some (beatNumber n k.id j)) (b.data.toList.map BeatData.bits) []
      | none => s) s

/-- The payload of a packet that crosses the die-to-die link (R318). -/
def PacketKind.beats : PacketKind → List Beat512
  | .send _ _ wide v | .pk _ wide v .. => (digits 512 (if wide then 4 else 1) v.bits.toNat).map (BitVec.ofNat 512)
  | _ => []

/-- Whether a `pk.snd` is for another package. -/
def State.pkAway (s : State) (k : Copy) : Bool :=
  match k.op with
  | .pkSnd d _ _ _ => s.pkPackage d != some s.pkgnum.toNat
  | _ => false

/-- Whether a word for the front-end, on die 0 (R9), can leave its core now: not over a link that is DOWN (R320, log 100). -/
def State.linkFor (s : State) (n : Nat) (k : Copy) : Bool :=
  match k.op with
  | .clBase .. | .clFire _ => dieOf n == 0 || s.groupUp 3
  | _ => true

/-- R257: a copy or an outbound word starts. -/
def State.startCopy (s : State) (n : Nat) (kr : Kernel) (k : Copy) : State :=
  let c := s.core n
  let away := s.pkAway k
  let peer := c.toPeer k || away
  if peer && !s.canReach then
    s.setCore n (c.failCopy k .windowPerm (match k.op with | .pkSnd d _ _ _ => pkAddr d | _ => k.firstAddr))
  else
    let s := s.setCore n (c.setCopy { k with state := .started })
    let s := if peer then s.enterFabric n k else s
    let ps := (s.packetsOf c kr k).map fun e =>
      ({ kind := e.1, src := some (c.lcore, k.id), dst := e.2, kernel := (kr.queue, kr.cid) } : Packet)
    let goal (p : Packet) : Nat := if p.kind == .trigger then 0 else kr.dies.getD p.dst 0
    let s := ps.foldl (fun s p => s.crossDie (dieOf n) (goal p) p.kind.beats) s
    { s with net := s.net ++ ps }

/-- Whether the operand beats of a write to a peer package have been read: they leave the core as it starts (R278, R319). -/
def Core.operandsHere (c : Core) (k : Copy) : Bool := !(k.isWrite && c.toPeer k) || k.beats.all fun b => b.data.isSome

/-- R257: a copy starts in the order of its queue, after its release and what its fences name (R284, R301); the reads of a
frozen core start after its resume (R396), and a write to a peer when its operand beats have been read. -/
def execCopyStart (n id : Nat) (s : State) : Res :=
  let c := s.core n
  match c.copy? id, s.kernelOf c with
  | some k, some kr =>
    eventIf s (c.canStart k && !(c.still && k.isRead) && c.operandsHere k && c.run != .idle && s.linkFor n k) (s.startCopy n kr k)
  | _, _ => notNow s

/-! ## Beats -/

/-- Whether the 64 bytes at two addresses touch a 64-byte block in common; those of a peer window may straddle two (R257, R264). -/
def blocksMeet (p q : Nat) : Bool := p / 64 ≤ (q + 63) / 64 && q / 64 ≤ (p + 63) / 64

/-- Whether two beats may touch the same 64-byte block: of the HBM, of the host, or of one peer package. A host address that is not
translated yet may be any block of host memory (R257, R267). -/
def Core.mayMeet (c : Core) (x b : Beat) : Bool :=
  match x.w, b.w with
  | some u, some v =>
    c.kindOf u == c.kindOf v && (c.kindOf u != 3 || c.peerOf u == c.peerOf v) && match x.pa, b.pa with
      | some p, some q => blocksMeet p q
      | _, _ => true
  | _, _ => false

/-- Whether no earlier copy of the queue has yet to take its effect at the block of a beat (R257). -/
def Core.blockClear (c : Core) (k : Copy) (b : Beat) : Bool :=
  c.copies.all fun h => k.id ≤ h.id || h.q != k.q || h.settled || h.beats.all fun x => x.state != .waiting || !c.mayMeet x b

/-- An untimed beat reaches the scratchpad at the core's LT, or later under R244 and R361 (R262). -/
def Core.landUntimed (c : Core) (k : Copy) (j : Nat) (b : Beat) (d : BeatData) : Core :=
  let x := c.a.lt
  let y := c.landingLt x b.sp
  if x < y then
    let item : Item := { lt := y, issue := k.issue, pipe := k.pipe, word := k.word, dst := none, ready := true,
                         act := .timedBeat k.id j }
    let c := c.setCopy (k.setBeat j { b with state := .coming d })
    { c with a := { c.a with inflight := c.a.inflight ++ [item] } }
  else (c.landBeat b.sp d).finishBeat k.id j

/-- 64 bytes of host memory as a beat. -/
def State.hostBeat (s : State) (pa : Nat) : BeatData := { bits := bytesBeat (readBytes s.hostMem pa 64), bad := false }

/-- A read beat of a copy is here: with its data. -/
def State.readBeat (s : State) (c : Core) (k : Copy) (b : Beat) (peer : BeatData) : Option BeatData :=
  match b.state with
  | .coming d => some d
  | .waiting => match b.w, b.pa with
    | some w, some pa =>
      if c.kindOf w == 2 && c.blockClear k b then some (s.hostBeat pa)
      else if c.kindOf w == 3 && c.blockClear k b && s.hears then some peer
      else none
    | none, _ => match k.op with
      | .scrub => if k.beats.all fun x => x.w.isNone || x.state == .finished then b.data else none
      | _ => none
    | _, _ => none
  | _ => none

/-- The bytes that beat j of a write carries: the last beat of an `mx.epi` may be half a beat (R232). -/
def Copy.beatLength (k : Copy) (j : Nat) : Nat := match k.op with | .epi n => Nat.min 64 (n - 64 * j) | _ => 64

/-- The operation beat j asks of a peer package (R324). -/
def Copy.peerOp (k : Copy) (j : Nat) (d : Beat512) : PeerOp :=
  match k.op with
  | .amo op t => .amo op t d
  | .get | .gath => .read
  | _ => .write d (k.beatLength j < 64)

/-- What beat j of a copy asks of a peer package, with its address there (R268); nothing where its window is no peer window. -/
def Core.peerAsk (c : Core) (k : Copy) (j : Nat) (b : Beat) : List Output :=
  match b.w, b.pa with
  | some w, some pa =>
    if c.kindOf w == 3 && b.state == .waiting then
      [.peerRequest (c.peerOf w) pa (k.peerOp j (match b.data with | some d => d.bits | none => 0))]
    else []
  | _, _ => []

/-- A write beat is acknowledged: by its HBM controller after acceptance, by the host, or by a peer package. -/
def State.writeBeat (s : State) (n : Nat) (k : Copy) (j : Nat) (b : Beat) : Option State :=
  let c := s.core n
  match b.state with
  | .sent => some (s.setCore n (c.finishBeat k.id j))
  | .waiting => match b.w, b.pa, b.data with
    | some w, some pa, some d =>
      if c.kindOf w == 2 && c.blockClear k b then
        some { s.setCore n (c.finishBeat k.id j) with
          hostMem := writeBytes s.hostMem pa ((beatBytes d.bits).take (k.beatLength j)) }
      else if c.kindOf w == 3 && c.blockClear k b && s.hears then
        let s := (s.setCore n (c.finishBeat k.id j)).dropSent (beatNumber n k.id j)
        some { s with outs := s.outs ++ c.peerAsk k j b }
      else none
    | _, _, _ => none
  | _ => none

/-- R258: a beat is delivered to scratchpad or acknowledged; `data` is what a peer package answers, marked where it read
an uncorrectable block (R278). No answer of a peer comes while every rail group is DOWN (R320). -/
def execCopyBeatDone (n id beat : Nat) (data : BeatData) (s : State) : Res :=
  let c := s.core n
  match c.copy? id with
  | some k => match k.beats[beat]? with
    | some b =>
      if k.state != .started then notNow s
      else if k.isRead && !(k.op == .scrub && b.w.isSome) then
        if k.timed.isSome || c.still || c.beatDue id beat then notNow s
        else match s.readBeat c k b data with
          | some d => .next { s.setCore n (c.landUntimed k beat b d) with outs := s.outs ++ c.peerAsk k beat b }
          | none => notNow s
      else match k.op with
        | .pkSnd .. =>
          eventIf s (s.pkAway k && s.hears) ((s.setCore n (c.finishBeat id beat)).dropSent (beatNumber n id 0))
        | _ => match s.writeBeat n k beat b with
          | some s => .next s
          | none => notNow s
    | none => notNow s
  | none => notNow s

/-- R260, R263: a beat of a timed copy reaches the landing buffer, or is refused and read again. -/
def execTimedBeatArrival (n id beat : Nat) (s : State) : Res :=
  let c := s.core n
  match c.copy? id with
  | some k => match k.timed, k.beats[beat]? with
    | some t, some b =>
      let d? : Option BeatData := match b.state with
        | .coming d => some d
        | .waiting => if b.w.isNone && k.state == .started then some { bits := 0, bad := false } else none
        | _ => none
      match d? with
      | some d =>
        if k.settled || c.still then notNow s
        else
          let taken := s.setCore n (c.setCopy (k.setBeat beat { b with state := .sent }))
          match taken.land n { land := t, kind := .beat id beat d } with
          | some s => .next s
          | none => .next (s.setCore n (c.setCopy (k.setBeat beat { b with state := .waiting })))
      | none => notNow s
    | _, _ => notNow s
  | none => notNow s

/-- R268: a peer package refuses an access, and the copy fails; no refusal comes while every rail group is DOWN (R320). -/
def execPeerAccessRefusal (n id beat : Nat) (s : State) : Res :=
  let c := s.core n
  match c.copy? id with
  | some k => match k.beats[beat]? with
    | some b =>
      let w := b.w.getD 0
      eventIf s (s.hears && k.state == .started && b.state == .waiting && b.w.isSome && c.kindOf w == 3 && c.blockClear k b)
        { (s.setCore n (c.refuseBeats k (· == b) .windowPerm)).dropSent (beatNumber n id beat) with outs := s.outs ++ c.peerAsk k beat b }
    | none => notNow s
  | none => notNow s

/-- R300: the flushing read after the acceptance of a write to a host window; the write is complete at `.sys`. -/
def execFlushingReadComplete (n id : Nat) (s : State) : Res :=
  let c := s.core n
  match c.copy? id with
  | some k =>
    eventIf s (k.state == .complete && c.toHost k && !k.flushed)
      (s.setCore n (c.setCopy { k with flushed := true }))
  | none => notNow s

/-! ## Translation (R267, R269, R391) -/

/-- The granule that a core's fetch waits for (R391). -/
def State.fetchWaits (s : State) (n : Nat) : Option (Nat × Nat) :=
  let c := s.core n
  let due := (match c.dueLt with | some x => x ≤ c.a.next | none => false) || (s.stopLt c).isSome
  let runs := match c.run with | .running | .debug true => true | _ => false
  if !runs || due then none
  else match s.fetchNeed c 12 c.a.pc with
    | some (.inr x) => if x == linkAwaited then none else some x
    | some (.inl _) => none
    | none => match s.fetchBundle c with
      | .error (.inr x, _) => if x == linkAwaited then none else some x
      | _ => none

/-- Whether the bundle at the program counter may need a granule: one of its two lines lies in it (R392). A translation that the
fetch waits for and that is of no such granule is of a line ahead or behind it (log 74). -/
def Core.ownGranule (c : Core) (w g : Nat) : Bool :=
  let line := lineOf c.a.pc
  [line, lineOf (nextWord (line + 60))].any fun a => winOf a == w && (c.window w).granule (offOf a) == g

/-- The window address of the first byte of a granule (R391, R392). -/
def Core.granuleAddr (c : Core) (w g : Nat) : Nat := w <<< 42 + (g * 2 ^ 19 + 2 ^ 64 - (c.window w).base) % 2 ^ 64 % 2 ^ 42

/-- Every copy that waits for a granule fails (R267). -/
def Core.failGranule (c : Core) (w g : Nat) (code : TrapCode) : Core :=
  c.copies.foldl (fun c k => if k.translates then c.refuseBeats k (fun b => c.awaits b w g) code else c) c

/-- What an answer of the host makes of a granule of a critical window (R271): nothing yet (`none`), the two equal answers of a
pair, or the second pair that disagrees (`some none`). -/
def Core.pairAnswer (c : Core) (w g : Nat) (v : AtsVerdict) : Core × Option (Option AtsVerdict) :=
  let rest := c.pairs.filter fun p => !(p.w == w && p.granule == g)
  let keep (first : Option AtsVerdict) (again : Bool) : Core :=
    { c with pairs := rest ++ [{ w := w, granule := g, first := first, again := again }] }
  let done_ : Core := { c with pairs := rest }
  match c.pairs.find? fun p => p.w == w && p.granule == g with
  | none => (keep (some v) false, none)
  | some p => match p.first with
    | none => (keep (some v) p.again, none)
    | some u =>
      if u == v then (done_, some (some v))
      else if p.again then (done_, some none)
      else (keep none true, none)

/-- A granule is not translated: the copies that wait for it fail with one code; a fetch that waits for it faults with another, and
for a line ahead of the bundle goes on without it (R267, R391). -/
def State.refuseGranule (s : State) (n w g : Nat) (copy fetch : TrapCode) : State :=
  let c := s.core n
  let waits := s.fetchWaits n == some (w, g)
  let ahead := c.ahead == some (w, g) || (waits && !c.ownGranule w g)
  let d := c.failGranule w g copy
  let d := { d with ahead := if d.ahead == some (w, g) then none else d.ahead
                    absent := if ahead then (w, g) :: d.absent else d.absent }
  if waits && c.ownGranule w g then takeTrap n (Trap.at_ fetch (c.granuleAddr w g)) (s.setCore n d) else s.setCore n d

/-- A granule of a core's window has its answer (R267, R271, R391); `none` for a critical window whose pairs disagree twice. -/
def State.settleGranule (s : State) (n w g : Nat) : Option AtsVerdict → State
  | some (.translated pa r wr x) =>
    let t : Translation := { w := w, granule := g, pa := pa, read := r, write := wr, exec := x }
    s.modCore n fun c => { (c.cacheTranslation t).applyTranslation t with ahead := if c.ahead == some (w, g) then none else c.ahead }
  | some .tooSmall => s.refuseGranule n w g .windowPerm .fetchPerm
  | some .notPresent => s.refuseGranule n w g .page .fetchPage
  | none => s.refuseGranule n w g .uncorrectable .uncorrectable

/-- Whether a core waits for the translation of a granule: its fetch, a line ahead of its bundle, or a copy (R267, R391). -/
def State.wantsGranule (s : State) (n w g : Nat) : Bool :=
  let c := s.core n
  s.fetchWaits n == some (w, g) || c.ahead == some (w, g) || c.copies.any fun k => k.translates && k.beats.any fun b => c.awaits b w g

/-- R267, R391: the host answers for a granule: the copies that wait get their addresses or fail, and a fetch that waits goes on
or faults; a critical window takes two equal answers (R271). -/
def execAtsCompletion (n w granule : Nat) (v : AtsVerdict) (s : State) : Res :=
  let c := s.core n
  if !s.wantsGranule n w granule then notNow s
  else if (c.window w).crit then
    match c.pairAnswer w granule v with
    | (c, none) => .next (s.setCore n c)
    | (c, some v) => .next ((s.setCore n c).settleGranule n w granule v)
  else .next (s.settleGranule n w granule (some v))

/-- Whether a copy still has requests to make through a granule (R269). -/
def Core.usesGranule (c : Core) (k : Copy) (g : Nat) : Bool :=
  !k.settled && k.beats.any fun b => b.state != .finished && b.pa.isSome && match b.w with
    | some a => c.kindOf a == 2 && (c.window (winOf a)).granule (offOf a) == g
    | none => false

/-- R269: the host invalidates a granule, once every copy that uses an entry has finished its requests through it. -/
def execAtsInvalidation (granule : Nat) (s : State) : Res :=
  eventIf s (s.cores.all fun (_, c) => c.copies.all fun k => !c.usesGranule k granule)
    { s with cores := s.cores.foldl (fun m e =>
        SMap.set .reset m e.1 { e.2 with tlb := e.2.tlb.filter fun t => t.granule != granule }) s.cores }

/-! ## The HBM controllers (R272-R277) -/

def State.channel (s : State) (ch : Nat) : Channel := SMap.get .reset s.channels ch

def State.setChannel (s : State) (ch : Nat) (x : Channel) : State := { s with channels := SMap.set .reset s.channels ch x }

/-- Room in a channel's write queue (R275). -/
def State.writeRoom (s : State) (pa : Nat) : Bool := doorbellBase ≤ pa || (s.channel (channelOf pa)).wq.length < 64

/-- A write joins its channel's queue (R275). -/
def State.enqueue (s : State) (pa : Nat) : State :=
  if doorbellBase ≤ pa then s
  else
    let ch := channelOf pa
    let x := s.channel ch
    s.setChannel ch { x with wq := x.wq ++ [pa / 64] }

/-- The row of a physical address (R266). -/
def rowOf (pa : Nat) : Nat := bitsOf pa 18 20

/-- The rotation of a channel's calendar that a physical cycle lies in, 333 core cycles each (R273, log 11). -/
def rotationOf (t : Nat) : Nat := t / 333

/-- Whether beats of a copy other than beat j are still to be accepted on a channel. -/
def Copy.moreOn (k : Copy) (j ch : Nat) : Bool :=
  (upto k.beats.length).any fun i => i != j && match k.beats[i]? with
    | some b => b.state == .waiting && match b.pa with | some q => channelOf q == ch | none => false
    | none => false

/-- The rows of a channel once it has served a beat of copy k of core n in a row at physical cycle t (R276): a STREAM copy holds
its rows until its last beat on the channel, a LASTUSE copy closes its row after that beat, and a row that no copy holds stays
open to the end of the rotation of its last use. -/
def Channel.serve (x : Channel) (n : Nat) (k : Copy) (row t : Nat) (more : Bool) : Channel :=
  let freed := x.rows.map fun r => if r.hold == some (n, k.id) && !more then { r with hold := none } else r
  let others := freed.filter fun r => (r.hold.isSome || rotationOf r.used == rotationOf t) && !(r.row == row && (r.hold.isNone || r.hold == some (n, k.id)))
  let here : OpenRow := { row := row, hold := if k.stream && more then some (n, k.id) else none, used := t }
  { x with rows := if k.lastuse && !more then others else others ++ [here] }

/-- What the hints do to the row of beat j of a copy (R276). -/
def State.hintRow (s : State) (n : Nat) (k : Copy) (j pa : Nat) : State :=
  let ch := channelOf pa
  s.setChannel ch ((s.channel ch).serve n k (rowOf pa) s.phys (k.moreOn j ch))

/-- Whether a channel holds a row open for the beats of a copy (R276, R277). -/
def State.rowHeld (s : State) (x : Channel) : Bool :=
  x.rows.any fun r => match r.hold with
    | some (n, id) => match (s.core n).copy? id with | some k => !k.settled | none => false
    | none => false

/-- A write to the doorbell page rings for its queue (R417): a packet for the front-end, on die 0, which the access that brought it has
taken over the die-to-die link where its core is on die 1 (R318). -/
def State.ring (s : State) (c : Core) (pa : Nat) (d : Beat512) : State :=
  let q := (pa - doorbellBase) / 64
  if doorbellBase ≤ pa && q < 32 then
    { s with net := s.net ++ [{ kind := .doorbell q (d.setWidth 64) (s.ctxOf c) c.die, src := none, dst := 0,
                                kernel := c.kernel.getD (0, 0) }] }
  else s

/-- The elements of a block after a reduction (R282). -/
def reduceBlock (op : BitVec 3) (t : BitVec 4) (old v : Nat) : Nat :=
  let w := widthOf t.toNat
  ofDigits w ((upto (512 / w)).map fun i => (atomElem op t.toNat 0 (elem old w i) (elem v w i)).1)

/-- A reduction at memory under a key (R282): an uncorrectable block stays so and is logged. -/
def State.reduce (s : State) (key : Option (Nat × Nat)) (pa : Nat) (op : BitVec 3) (t : BitVec 4) (v : Beat512) : State :=
  if s.hbmBad.contains (pa / 64) then { s with hbmLog := s.hbmLog ++ [pa / 64] }
  else
    let (bs, s) := s.hbmRead key pa 64
    s.hbmWrite key pa (toBytes 64 (reduceBlock op t (ofBytes bs) v.toNat))

/-- Set bit j in beat r of a scrub's record (R283). -/
def Copy.markRecord (k : Copy) (r j : Nat) : Copy :=
  let at_ := k.beats.length - 2 + r
  match k.beats[at_]? with
  | some b =>
    let d := b.data.getD { bits := 0, bad := false }
    k.setBeat at_ { b with data := some { d with bits := d.bits ||| BitVec.ofNat 512 (1 <<< j) } }
  | none => k

/-- A controller accepts beat j of a copy at an HBM address (R274, R282, R283). -/
def State.acceptBeat (s : State) (n : Nat) (k : Copy) (j : Nat) (b : Beat) (pa : Nat) : Option State :=
  let c := s.core n
  let key := s.keyOfCore c
  let put (s : State) (st : BeatState) : State := s.setCore n (c.setCopy (k.setBeat j { b with state := st }))
  match k.op with
  | .get | .gath =>
    let (bs, s) := s.hbmRead key pa 64
    some (put s (.coming { bits := bytesBeat bs, bad := s.hbmBad.contains (pa / 64) }))
  | .scrub =>
    let blk := pa / 64
    let k1 := if s.hbmBad.contains blk then k.markRecord 1 j else if s.hbmWeak.contains blk then k.markRecord 0 j else k
    let s := if s.hbmBad.contains blk then s else { s with hbmWeak := s.hbmWeak.filter fun x => x != blk }
    some (s.setCore n (c.setCopy (k1.setBeat j { b with state := .sent })))
  | .amo op t => b.data.bind fun d =>
    if s.writeRoom pa then some ((put (s.reduce key pa op t d.bits) .sent).enqueue pa) else none
  | .put | .epi _ | .fill _ => b.data.bind fun d =>
    let bs := (beatBytes d.bits).take (k.beatLength j)
    let rings (s : State) : State := if bs.length == 64 then s.ring c pa d.bits else s
    if s.writeRoom pa then some ((put (rings (s.hbmWrite key pa bs)) .sent).enqueue pa) else none
  | _ => none

/-- The beat of an access to the other die's HBM on the die-to-die link: operand data to the controller and its answer, or a request
and the data read back (R266, R318). -/
def State.crossBeat (s : State) (n : Nat) (k : Copy) (j pa : Nat) : State :=
  match ((s.core n).copy? k.id).bind fun k => k.beats[j]? with
  | some b => match b.state with
    | .coming d => s.crossAccess (dieOf n) (dieOfPa pa) [d.bits] true
    | _ => s.crossAccess (dieOf n) (dieOfPa pa) (b.data.toList.map BeatData.bits) false
  | none => s

/-- R274: a controller accepts one beat of a copy in its block's order; the write queue may hold it back (R275). -/
def execHbmAccessAccept (n id beat : Nat) (s : State) : Res :=
  let c := s.core n
  match c.copy? id with
  | some k => match k.beats[beat]? with
    | some b => match b.w, b.pa with
      | some w, some pa =>
        if k.state != .started || b.state != .waiting || c.kindOf w != 1 || !c.blockClear k b || (c.still && k.isRead) ||
            !s.reaches (dieOf n) pa 64 then
          notNow s
        else match s.acceptBeat n k beat b pa with
          | some s => .next ((s.crossBeat n k beat pa).hintRow n k beat pa)
          | none => notNow s
      | _, _ => notNow s
    | none => notNow s
  | none => notNow s

/-- What the next drain slot of a channel serves (R275): above 48 beats writes, below 16 a refresh first, between them in turn. -/
def Channel.drain (x : Channel) : Option Channel :=
  let n := x.wq.length
  let write : Channel := { x with wq := x.wq.drop 1, refreshNext := true }
  let refresh : Channel := { x with postponed := x.postponed - 1, refreshNext := false }
  if 48 < n then some write
  else if n == 0 && x.postponed == 0 then none
  else if n == 0 || (x.postponed != 0 && (n < 16 || x.refreshNext)) then some refresh
  else some write

/-- R275: a drain slot of a channel. -/
def execHbmWriteDrain (ch : Nat) (s : State) : Res :=
  match (s.channel ch).drain with
  | some x => if ch < 256 then .next (s.setChannel ch x) else notNow s
  | none => notNow s

/-- R277: a refresh interval falls due: served where a slot is free and no row is held open, else postponed, up to eight. -/
def execHbmRefresh (ch : Nat) (s : State) : Res :=
  let x := s.channel ch
  if 256 ≤ ch || 8 ≤ x.postponed then notNow s
  else if x.wq.length ≤ 48 && !s.rowHeld x then .next s
  else .next (s.setChannel ch { x with postponed := x.postponed + 1 })

/-- R277: at the limit the controller closes an open row at a beat boundary, refreshes and opens it again. -/
def execRefreshForce (ch : Nat) (s : State) : Res :=
  let x := s.channel ch
  eventIf s (ch < 256 && x.postponed == 8) (s.setChannel ch { x with postponed := x.postponed - 1 })

/-! ## Peer accesses (R323, R324) -/

/-- Whether an export entry lets an access of a peer through (R324). -/
def ExportEntry.allows (e : ExportEntry) (r : PeerReq) : Bool :=
  let base := fld e.w1 38 0
  let perm := match r.op with | .read => e.w0.getLsbD 62 | .write .. => e.w0.getLsbD 61 | .amo .. => e.w0.getLsbD 60
  let len := match r.op with | .write _ true => 32 | _ => 64
  e.w0.getLsbD 63 && perm && base ≤ r.addr && r.addr + len ≤ base + fld e.w0 38 0 &&
  fld e.w0 59 50 ≤ r.package && r.package ≤ fld e.w0 49 40

/-- R324: a peer access is accepted in its block's order under the context of the entry's owner (R440), or refused; a package
without a number accepts none (R453), and one in recovery answers none (R438). None arrives while every rail group is DOWN (R320). -/
def execPeerAccess (r : PeerReq) (s : State) : Res :=
  if !s.hears then notNow s
  else match if s.pkgset then (s.exports.map Prod.snd).find? fun e => e.allows r else none with
  | none => .next (s.sendOut none [] [.peer false none])
  | some e =>
    let key := s.keyOf (e.owner.getD 0)
    match r.op with
    | .read =>
      let bad := s.uncorrectable r.addr 64
      let (bs, s) := s.contextRead key r.addr 64
      .next (s.sendOut none [bytesBeat bs] [.peer true (some { bits := bytesBeat bs, bad := bad })])
    | .write d half =>
      if s.writeRoom r.addr then
        .next (((s.hbmWrite key r.addr ((beatBytes d).take (if half then 32 else 64))).enqueue r.addr).sendOut none [] [.peer true none])
      else notNow s
    | .amo op t d =>
      if s.writeRoom r.addr then
        .next (((s.reduce key r.addr op t d).enqueue r.addr).sendOut none [] [.peer true none])
      else notNow s

end Sys2Proof.Machine
end

