-- ==== Sys2Proof/Machine/Tenant.lean ====
section
/-! DEFINITION. What contexts and resets share: the end of a firing (R332, R337), wipes (R447), entry to ERROR (R443), the state
after a reset (R452), and how the TDI state treats MMIO (R442). -/
namespace Sys2Proof.Machine

/-! ## Plans that end a firing -/

def State.setPlan (s : State) (h : Nat) (p : Plan) : State := { s with plans := SMap.set none s.plans h (some p) }

def State.erasePlan (s : State) (h : Nat) : State := { s with plans := SMap.erase s.plans h }

/-- Change the core of the `cl.fire` that waits for a firing, placed or in a saved context (R345, R397), as the front-end's answer
reaches it from die 0 (R9, R318). -/
def State.modOrigin (s : State) (o : Option ((Nat × Nat) × Nat × Nat)) (f : Core → Nat → Core) : State :=
  match o with
  | some (kr, l, id) => match s.kernel? kr with
    | some k => (s.crossDie 0 (k.dies.getD l 0) []).modMember k l fun c => f c id
    | none => s
  | none => s

/-- A `cl.fire` whose trigger came to nothing fails with PLAN (R335, R345); FAULTADDR holds its word (R387). -/
def Core.failFire (c : Core) (id : Nat) : Core :=
  match c.copy? id with
  | some k => c.failCopy k .plan k.word
  | none => c

/-- A `cl.fire` completes with its firing, or fails (R335, R345). The answer to a core on die 1 waits while the die-to-die link is DOWN
(R320). -/
def State.answerOrigin (s : State) (o : Option ((Nat × Nat) × Nat × Nat)) (ok : Bool) : State :=
  match o with
  | some r =>
    if s.dieOfMember r.1 r.2.1 == 0 || s.groupUp 3 then s.modOrigin o (if ok then Core.endCopy else Core.failFire)
    else { s with fireAnswers := s.fireAnswers ++ [(r, ok)] }
  | none => s

/-- The answers that wait for the die-to-die link go out once it is up (R319, R320). -/
def State.sendAnswers (s : State) : State :=
  if s.groupUp 3 then s.fireAnswers.foldl (fun s a => s.answerOrigin (some a.1) a.2) { s with fireAnswers := [] } else s

/-- What waits for a firing ends with it: its FIRE command finishes with a status, the `cl.fire` completes or fails (R345, R420). -/
def State.endTrigger (s : State) (cmd : Option (Nat × Nat)) (origin : Option ((Nat × Nat) × Nat × Nat)) (status : Nat) : State :=
  let s := match cmd with
    | some (q, i) => s.finishStatus q i status
    | none => s
  s.answerOrigin origin (status == 0)

/-- A firing ends with a status (R332, R337): what waits for it ends; the interrupt of a trigger follows (R334). -/
def State.endFiring (s : State) (p : Plan) (f : Firing) (status : Nat) : State :=
  let s := s.endTrigger f.cmd f.origin status
  if f.irq then { s with outs := s.outs ++ [.msix (s.queue p.queue).vec] } else s

/-- A plan becomes FAILED (R337). -/
def State.failPlan (s : State) (h : Nat) : State :=
  match s.plan h with
  | none => s
  | some p =>
    let s := s.setPlan h { p with state := .failed, firing := none }
    match p.firing with
    | some f => s.endFiring p f 3
    | none => s

/-- Every plan that meets a test becomes FAILED. -/
def State.failPlans (s : State) (t : Plan → Bool) : State :=
  (s.plans.filterMap fun e => e.2.bind fun p => if t p && p.state != .failed && p.state != .freed then some e.1 else none).foldl
    State.failPlan s

/-! ## What packages and switches tell each other (R329, R330) -/

/-- Tell another package something of a plan. -/
def State.tellPackage (s : State) (m : PlanMessage) (q : Nat) : State := s.sendOut none [] [.plan (.package q) m]

/-- Tell the other listed packages. -/
def State.tellPackages (s : State) (p : Plan) (m : PlanMessage) : State :=
  (p.packages.filter fun q => q != s.pkgnum.toNat).foldl (fun s q => s.tellPackage m q) s

/-- Tell the other listed packages and the switches of a plan: the outcome of a set-up, which on a refusal or a time-out releases what
has been reserved, or PLAN_FREE. -/
def State.tellAll (s : State) (p : Plan) (m : PlanMessage) : State :=
  p.switches.foldl (fun s w => s.sendSwitch w.2.2.1 [] (.plan (.switch_ w.2.2.2.2) m)) (s.tellPackages p m)

/-- The set-ups of plans that meet a test fail: the commands that asked for them finish with STATUS 3, and the other packages and switches
release what they have reserved (R330). -/
def State.failSetups (s : State) (t : Plan → Bool) : State :=
  s.plans.foldl (fun s e => match e.2 with
    | some p => match p.setup with
      | some (q, i) => if t p && !p.live && p.state != .freed then (s.tellAll p (.outcome e.1 false)).finishStatus q i 3 else s
      | none => s
    | none => s) s

/-! ## Wipes (R447) -/

/-- The pairs that a kernel of a tenant context has held since the last wipe (R447). -/
def State.tenantUsed (s : State) : List Nat :=
  (s.kernels.filter fun k => k.ctx != 0).foldl (fun ps k => ps ++ k.used.filter fun p => !ps.contains p) s.tenantPairs

/-- Whether a kernel of context 0 holds a pair now: a wipe leaves it alone (R443); what a tenant left there went when the kernel's
cores were loaded (R25, log 89). -/
def State.hostHolds (s : State) (p : Nat) : Bool := s.kernels.any fun k => k.ctx == 0 && k.place.any fun n => pairOf n == p

/-- Whether a group entry is a tenant's: its owner is a command of a queue that was a tenant context's as the entry was assigned (R26,
R447). -/
def Group.tenant (g : Group) : Bool := g.assigned && g.ctx != 0

/-- The tenant scope of a wipe (R447): the SRAMs of tenant-used pairs, the front-end's tenant state (group and export entries, the
receive contexts and bases of plans, plans in set-up), the tenant keys. The pairs stay out of the placement pool until
SRAM_CLEAR_COMPLETE. -/
def State.wipeTenants (s : State) : State :=
  let pairs := s.tenantUsed.filter fun p => !s.hostHolds p
  let wiped (n : Nat) : Bool := pairs.contains (pairOf n)
  let bare (p : Plan) : Plan := if p.ctx == 0 then p else { p with contexts := [], bases := [] }
  { s with
    cores := s.cores.filter fun e => !wiped e.1
    clearing := s.clearing ++ pairs.filter fun p => !s.clearing.contains p
    tenantPairs := s.tenantUsed.filter s.hostHolds
    groups := s.groups.map fun e =>
      (e.1, if e.2.tenant then { e.2 with assigned := false, owner := 0, ctx := 0, members := 0, ext := [] } else e.2)
    plans := (s.plans.filter fun e => match e.2 with | some p => p.ctx == 0 || p.live || p.state == .freed | none => true).map
      fun (e : Nat × Option Plan) => (e.1, e.2.map bare)
    exports := s.exports.filter fun e => match e.2.owner with | some c => c == 0 | none => true
    wiping := true
    genT := s.genT + 1 }

/-- Whether a FIRE in a queue is for a plan of a tenant context (R335, R336). -/
def State.tenantFire (s : State) (f : QueuedFire) : Bool := (s.plan (fld f.trigger 15 0)).any fun p => p.ctx != 0

/-- The FIRE commands that wait for firings of the tenants' plans, or for FIREs of theirs in the bound queues (R336). -/
def State.tenantFires (s : State) : List (Nat × Nat) :=
  (s.plans.filterMap fun e => e.2.bind fun p => if p.ctx != 0 then p.firing.bind Firing.cmd else none) ++
    (upto 32).flatMap fun n => ((s.queue n).fires.filter s.tenantFire).filterMap QueuedFire.cmd

/-- A queue as the tenants' stop leaves it (R443): what it started or still owes a record to under a tenant context is gone, and it is
stopped where its CTX is nonzero; what it owes to context 0 stays, whatever its CTX is now (R415). -/
def Queue.stopTenant (q : Queue) (tenantFire : QueuedFire → Bool) : Queue :=
  let x := if q.ctx != 0 then q.stop else q
  { x with
    started := q.started.filter fun c => c.ctx == 0, pending := q.pending.filter fun p => p.ctx == 0
    fires := q.fires.filter fun f => !tenantFire f, pred := if q.ctx != 0 then none else q.pred }

/-- The effects on tenant contexts of entry to ERROR and of STOP_INTERFACE (R443): kernels end without record, queues stop, plans
fail, the tenant wipe. A command of context 0 that waits for a firing or a set-up of a tenant's plan finishes with STATUS 3, as where that
plan fails for any other reason (R337, R420); commands of the tenants get no record. -/
def State.stopTenants (s : State) : State :=
  let gone := s.kernels.filter fun k => k.ctx != 0
  let s := gone.foldl (fun s k => (s.touchGroups k.groups).logRewinds k) s
  let fires := s.tenantFires
  let failed (p : Plan) : Plan := if p.ctx != 0 && p.live then { p with state := .failed, firing := none } else p
  let pairs := s.tenantUsed
  let theirs := s.tenantFire
  let s := { s with
    kernels := s.kernels.filter fun k => k.ctx == 0
    tenantPairs := pairs
    plans := s.plans.map fun (e : Nat × Option Plan) => (e.1, e.2.map failed)
    net := s.net.filter fun p => !gone.any fun k => p.kernel == (k.queue, k.cid)
    reports := s.reports.filter fun r => !pairs.contains (pairOf r.core) || s.hostHolds (pairOf r.core) }
  let s := (upto 32).foldl (fun s n => s.setQueue n ((s.queue n).stopTenant theirs)) s
  ((fires.foldl (fun s c => s.finishStatus c.1 c.2 3) s).failSetups fun p => p.ctx != 0).wipeTenants

/-- Entry to ERROR (R443). -/
def State.enterError (s : State) : State := { s.stopTenants with tdi := .error }

/-! ## Resets (R452) -/

/-- Whether a device of this lifecycle state comes up to serve a host (R445): a blank one serves the factory test alone, and the
boot ROM of a scrapped one stops. -/
def Lifecycle.serves (l : Lifecycle) : Bool := l != .blank && l != .scrapped

/-- The firmware image that runs (R435). -/
def State.running (s : State) : Nat := if s.runsB then s.slotB.image else s.slotA.image

/-- What every reset leaves (R452): every kernel gone, the TDI unlocked, the full wipe begun, registers at their reset values;
lifecycle, retired pairs and firmware slots stay. A scrapped device does not come up (R445), one in recovery stays there (R438). -/
def State.afterReset (s : State) : State :=
  { State.reset with
    phys := s.phys, agenda := s.agenda, cur := s.cur, fresh := s.fresh, hostMem := s.hostMem, outs := s.outs
    hbm := s.hbm, hbmKey := s.hbmKey, hbmBad := s.hbmBad, hbmWeak := s.hbmWeak
    slotA := s.slotA, slotB := s.slotB, runsB := s.runsB, retired := s.retired, lifecycle := s.lifecycle, identity := s.identity, certificate := s.certificate
    phobos := .loaded s.running s.phobos.sound, deimos := .loaded s.running s.deimos.sound
    standby := s.deimos.sound, profiles := s.profiles, peerPlans := s.peerPlans
    gen0 := s.gen0 + 1, genT := s.genT + 1, zeroFill := true, freq := s.freq, thermal := s.thermal, beatAt := s.phys, scanSince := s.phys
    recovery := s.recovery, ready := !s.recovery && Lifecycle.serves s.lifecycle }

/-! ## MMIO and the TDI (R442) -/

/-- Whether BAR 0 and BAR 2 serve a request (R442). -/
def Tdi.serves (t : Tdi) (tee : Bool) : Bool :=
  match t with
  | .configUnlocked => !tee
  | .run => tee
  | _ => false

/-- A write of BAR 0 or BAR 2 (R442): served, refused, dropped, or in RUN without the T bit an entry to ERROR; nothing answers the
host in recovery (R438). -/
def State.mmioWrite (s : State) (tee : Bool) (f : State → State) : Res :=
  if s.recovery || !s.ready then notNow s
  else if s.tdi.serves tee then .next (f s)
  else if s.tdi == .run then .next s.enterError
  else if s.tdi == .configUnlocked then .next { s with outs := s.outs ++ [.answer false] }
  else .next s

end Sys2Proof.Machine
end

