-- ==== Sys2Proof/Machine/Plans.lean ====
section
/-! DEFINITION. Collective plans (R329-R331, R334-R336): chunk operations, the canonical tree, the plan descriptor and its checks,
set-up, triggers. -/
namespace Sys2Proof.Machine

/-! ## Chunk operations (R331) -/

/-- Field [hi : lo] of a chunk operation. -/
def opFld (o : BitVec 256) (hi lo : Nat) : Nat := bitsOf o.toNat lo (hi + 1 - lo)

def opKind (o : BitVec 256) : Nat := opFld o 3 0
def opType (o : BitVec 256) : Nat := opFld o 7 4
def opOp (o : BitVec 256) : Nat := opFld o 9 8
def opTag (o : BitVec 256) : Nat := opFld o 63 54
def opNode (o : BitVec 256) : Nat × Nat := (opFld o 15 11, opFld o 35 16)
def opSite (o : BitVec 256) : Bool := opFld o 10 10 == 1
def opLevel (o : BitVec 256) : Nat := opFld o 15 11
def opIndex (o : BitVec 256) : Nat := opFld o 35 16
def opPeer (o : BitVec 256) : Nat := opFld o 53 36
def opSbase (o : BitVec 256) : Nat := opFld o 66 64
def opDbase (o : BitVec 256) : Nat := opFld o 70 68
def opSoff (o : BitVec 256) : Nat := opFld o 103 72
def opDoff (o : BitVec 256) : Nat := opFld o 135 104
def opLen (o : BitVec 256) : Nat := opFld o 167 136
def opDep (o : BitVec 256) : Nat := opFld o 183 168
def opSucc0 (o : BitVec 256) : Nat := opFld o 199 184
def opNsucc (o : BitVec 256) : Nat := opFld o 207 200

/-- The nodes of a level of the canonical tree over R ranks (R338): ⌈R / 2^l⌉. -/
def treeNodes (r l : Nat) : Nat := ceilDiv r (2 ^ l)

/-- Whether (l, i) is a node with two children (R338). -/
def treeJoins (r l i : Nat) : Bool := 0 < l && i < treeNodes r l && 2 * i + 1 < treeNodes r (l - 1)

/-- The node whose value a node has (R338): itself, or the node that is carried up to it where it has no right child. -/
def carried (r : Nat) : Nat → Nat → Nat × Nat
  | 0, i => (0, i)
  | l + 1, i => if 2 * i + 1 < treeNodes r l then (l + 1, i) else carried r l (2 * i)

/-- Whether a range of a base lies in its extent (R331). -/
def inExtent (extents : List Nat) (base off len : Nat) : Bool := off + len ≤ extents.getD base 0

/-- The checks of one chunk operation (R331): reserved bits, values, ranges, and its node of the canonical tree over R ranks;
SOFF is read by SEND, REDUCE and COPY, DOFF by RECV, REDUCE and COPY. -/
def opOk (extents : List Nat) (ranks nsa : Nat) (nodes : List (Nat × Nat)) (o : BitVec 256) : Bool :=
  let kind := opKind o
  opFld o 255 208 == 0 && opFld o 71 71 == 0 && opFld o 67 67 == 0 && kind ≤ 3 && opOp o ≤ 2 &&
  (opType o == 3 || opType o == 7 || opType o == 8 || opType o == 9 || opType o == 10) && opLevel o ≤ 18 &&
  opLen o % 64 == 0 && opSoff o % 64 == 0 && opDoff o % 64 == 0 && opSucc0 o + opNsucc o ≤ nsa &&
  (kind == 1 || inExtent extents (opSbase o) (opSoff o) (opLen o)) &&
  (kind == 0 || inExtent extents (opDbase o) (opDoff o) (opLen o)) &&
  (2 ≤ kind || (if opSite o then nodes.contains (opLevel o, opIndex o) else opPeer o < ranks)) &&
  (kind != 2 || (treeJoins ranks (opLevel o) (opIndex o) && !opSite o))

/-- Successors of operation i (R331). -/
def opSuccs (succ : List Nat) (o : BitVec 256) : List Nat := (succ.drop (opSucc0 o)).take (opNsucc o)

/-- Peel off, `fuel` times, the vertices of a graph that no remaining one precedes; `next` gives those that follow one. -/
def peel [BEq α] (next : α → List α) : Nat → List α → List α
  | 0, left => left
  | fuel + 1, left =>
    let follows := left.flatMap next
    let rest := left.filter fun i => follows.contains i
    if rest.length == left.length then left else peel next fuel rest

/-- Whether a graph has no cycle. -/
def acyclic [BEq α] (next : α → List α) (all : List α) : Bool := (peel next (all.length + 1) all).isEmpty

/-! ## The plan descriptor (R330) -/

/-- A little-endian number of HBM under a key. -/
def State.hbmNat (s : State) (key : Option (Nat × Nat)) (a n : Nat) : Nat := ofBytes (s.hbmBytes key a n)

/-- Read entry j of the package table, its chunk operations and its successor array (R330); reserved fields are ignored (R8). -/
def State.planPackage (s : State) (key : Option (Nat × Nat)) (desc table j : Nat) : PlanPackage :=
  let a := desc + table + 32 * j
  let nat (o n : Nat) : Nat := s.hbmNat key (a + o) n
  let nops := nat 4 2
  let nsa := nat 6 2
  let ops := (upto nops).map fun i => BitVec.ofNat 256 (s.hbmNat key (desc + nat 8 8 + 32 * i) 32)
  let succ := (upto nsa).map fun i => s.hbmNat key (desc + nat 0x10 8 + 2 * i) 2
  { package := nat 0 2 % 1024, queue := nat 2 1, ops := ops, succ := succ
    ok := nat 2 1 < 32 && 1 ≤ nops && nops ≤ 4096 && nsa ≤ 16384 && nat 8 8 % 32 == 0 && succ.all (· < nops) }

/-! ## The canonical tree (R331, R338) -/

/-- A range that an operation reads or writes: base, offset and length. -/
structure Span where
  base : Nat
  off : Nat
  len : Nat
  deriving DecidableEq, Repr

def opSource (o : BitVec 256) : Span := { base := opSbase o, off := opSoff o, len := opLen o }

def opDest (o : BitVec 256) : Span := { base := opDbase o, off := opDoff o, len := opLen o }

/-- Whether two ranges have a byte in common. -/
def Span.meets (a b : Span) : Bool := a.base == b.base && Nat.max a.off b.off < Nat.min (a.off + a.len) (b.off + b.len)

/-- How many dependencies of operation i complete in a firing (R332): one for each place of a successor list that names it, and for a
RECV its packet. -/
def PlanPackage.feeds (p : PlanPackage) (i : Nat) : Nat :=
  p.ops.foldl (fun n o => n + ((opSuccs p.succ o).filter fun k => k == i).length)
    (match p.ops[i]? with | some o => if opKind o == 1 then 1 else 0 | none => 0)

/-- Whether operation i starts, and whether it waits for every operation that names it: its DEP (R332). -/
def PlanPackage.starts (p : PlanPackage) (i : Nat) : Bool := match p.ops[i]? with | some o => opDep o ≤ p.feeds i | none => false
def PlanPackage.waits (p : PlanPackage) (i : Nat) : Bool := match p.ops[i]? with | some o => opDep o == p.feeds i | none => false

/-- The operations that are complete before any of some can start, `fuel` steps back, with those (R332). -/
def PlanPackage.before (p : PlanPackage) : Nat → List Nat → List Nat
  | 0, is => is
  | fuel + 1, is =>
    let more := (upto p.ops.length).filter fun j => !is.contains j && match p.ops[j]? with
      | some o => (opSuccs p.succ o).any fun k => is.contains k && p.waits k
      | none => false
    if more.isEmpty then is else p.before fuel (is ++ more)

/-- The operations that are complete before operation i can start. -/
def PlanPackage.past (p : PlanPackage) (i : Nat) : List Nat := (p.before p.ops.length [i]).erase i

/-- The operations but i that write into a range. -/
def PlanPackage.writers (p : PlanPackage) (i : Nat) (r : Span) : List Nat :=
  (upto p.ops.length).filter fun j => j != i && match p.ops[j]? with
    | some o => opKind o != 0 && (opDest o).meets r
    | none => false

/-- The 64-byte blocks of a range at which what writes it can change: its first, and those where a writer's range begins or ends
(R331: offsets and lengths are multiples of 64). -/
def PlanPackage.cuts (p : PlanPackage) (ws : List Nat) (r : Span) : List Span :=
  let edges := ws.flatMap fun j => match p.ops[j]? with
    | some o => [opDoff o, opDoff o + opLen o]
    | none => []
  (r.off :: edges.filter fun x => r.off < x && x < r.off + r.len).eraseDups.map fun x => { r with off := x, len := 64 }

/-- The operations that write a block last before operation i reads it. -/
def PlanPackage.lastWriters (p : PlanPackage) (i : Nat) (b : Span) : List Nat :=
  let past := p.past i
  let early := (p.writers i b).filter fun j => past.contains j
  early.filter fun j => !early.any fun k => (p.past k).contains j

/-- Whether a range holds the value of a node when operation i reads it (R331, R338): the operation starts, every other one that
writes there is complete before it or starts after it, and in each block the latest before it produce or carry that node, or none
writes and the node is the element of a rank of the package (log 90). -/
def PlanPackage.holds (p : PlanPackage) (lists : List (Nat × Nat)) (ranks i : Nat) (r : Span) (node : Nat × Nat) : Bool :=
  let n := carried ranks node.1 node.2
  let past := p.past i
  let ws := p.writers i r
  node.2 < treeNodes ranks node.1 && (i :: past).all p.starts && (ws.all fun j => past.contains j || (p.past j).contains i) &&
  (p.cuts ws r).all fun b =>
    let last := p.lastWriters i b
    if last.isEmpty then n.1 == 0 && (findRank n.2 lists).map Prod.fst == some p.package
    else last.all fun j => match p.ops[j]? with | some o => carried ranks (opNode o).1 (opNode o).2 == n | none => false

/-- The children of a node. -/
def leftChild (n : Nat × Nat) : Nat × Nat := (n.1 - 1, 2 * n.2)
def rightChild (n : Nat × Nat) : Nat × Nat := (n.1 - 1, 2 * n.2 + 1)

/-- The SENDs of a list of packages to a switch node with a tag (R331): package and operation. -/
def switchSends (ps : List PlanPackage) (node : Nat × Nat) (tag : Nat) : List (PlanPackage × Nat) :=
  ps.flatMap fun p => ((upto p.ops.length).filter fun i => match p.ops[i]? with
    | some o => opKind o == 0 && opSite o && opNode o == node && opTag o == tag
    | none => false).map fun i => (p, i)

/-- Whether a switch gets exactly the two children of its node for a tag, and computes them alike (R331, R341). -/
def switchFed (lists : List (Nat × Nat)) (ranks : Nat) (ps : List PlanPackage) (node : Nat × Nat) (tag : Nat) : Bool :=
  match switchSends ps node tag with
  | [(p, i), (q, j)] =>
    match p.ops[i]?, q.ops[j]? with
    | some a, some b =>
      let gives (p : PlanPackage) (i : Nat) (o : BitVec 256) (n : Nat × Nat) : Bool := p.holds lists ranks i (opSource o) n
      opLen a == opLen b && opType a == opType b && opOp a == opOp b &&
      ((gives p i a (leftChild node) && gives q j b (rightChild node)) || (gives p i a (rightChild node) && gives q j b (leftChild node)))
    | _, _ => false
  | _ => false

/-- Whether a switch gives a RECV its whole result: as many bytes as the two SENDs bring it (R331). -/
def switchGives (lists : List (Nat × Nat)) (ranks : Nat) (ps : List PlanPackage) (o : BitVec 256) : Bool :=
  switchFed lists ranks ps (opNode o) (opTag o) &&
  (switchSends ps (opNode o) (opTag o)).all fun e => match e.1.ops[e.2]? with | some x => opLen x == opLen o | none => false

/-- Whether some operation feeds a switch node (R331): one that gets no child computes nothing. -/
def nodeFed (ps : List PlanPackage) (node : Nat × Nat) : Bool :=
  ps.any fun p => p.ops.any fun o => opKind o == 0 && opSite o && opNode o == node

/-- Whether the packet of SEND o of package p reaches RECV x of package q (R331): through the switch of their node, or from rank to
rank. -/
def sendMeets (lists : List (Nat × Nat)) (p : PlanPackage) (o : BitVec 256) (q : PlanPackage) (x : BitVec 256) : Bool :=
  let packageOf (r : Nat) : Option Nat := (findRank r lists).map Prod.fst
  opKind o == 0 && opKind x == 1 && opTag o == opTag x && opSite o == opSite x &&
  if opSite o then opNode o == opNode x else packageOf (opPeer o) == some q.package && packageOf (opPeer x) == some p.package

/-- Whether a RECV that a rank sends to gets one packet, that carries its node, and is the one RECV the packet is for (R331). -/
def recvFed (lists : List (Nat × Nat)) (ranks : Nat) (ps : List PlanPackage) (p : PlanPackage) (o : BitVec 256) : Bool :=
  let sends := ps.flatMap fun q => (q.ops.filter fun x => sendMeets lists q x p o).map fun x => (q, x)
  match sends with
  | [(q, x)] =>
    opLen x == opLen o && carried ranks (opNode x).1 (opNode x).2 == carried ranks (opNode o).1 (opNode o).2 &&
    (p.ops.filter fun y => sendMeets lists q x p y).length == 1
  | _ => false

/-- Whether operation i of a package carries or computes the node it names (R331): a RECV what its SEND of the same tag carries, a
REDUCE the node of its two children, a SEND to a switch a child of the switch's node. -/
def nodeOk (lists : List (Nat × Nat)) (ranks : Nat) (ps : List PlanPackage) (p : PlanPackage) (i : Nat) (o : BitVec 256) : Bool :=
  let node := opNode o
  match opKind o with
  | 0 => if opSite o then switchFed lists ranks ps node (opTag o) else p.holds lists ranks i (opSource o) node
  | 1 => if opSite o then switchGives lists ranks ps o else recvFed lists ranks ps p o
  | 2 => p.holds lists ranks i (opSource o) (leftChild node) && p.holds lists ranks i (opDest o) (rightChild node)
  | _ => p.holds lists ranks i (opSource o) node

/-! ### What the nodes are made of (R331, R338) -/

/-- What a block of a node is made of: the TYPE and OP that made it, none for the element of one rank, and per rank under the node the
block that holds its element: package, base and offset. -/
structure Makeup where
  made : Option (Nat × Nat)
  leaves : List (Nat × Nat × Nat × Nat)
  deriving DecidableEq, Repr

/-- A node of a TYPE and OP over its children, which that TYPE and OP have made (R338, R339). -/
def Makeup.join (how : Nat × Nat) (l r : Option Makeup) : Option Makeup :=
  match l, r with
  | some l, some r =>
    let fits (m : Makeup) : Bool := m.made == none || m.made == some how
    if fits l && fits r then some { made := some how, leaves := l.leaves ++ r.leaves } else none
  | _, _ => none

/-- What operation j of a package makes of a block of its destination, a node, where `read` gives what an operation of a package reads
of a block and node: what a RECV's SEND sends or its switch computes of its two children, the two children of a REDUCE, what a COPY
copies (R331, R341). -/
def PlanPackage.writes (lists : List (Nat × Nat)) (ps : List PlanPackage) (read : PlanPackage → Nat → Span → Nat × Nat → Option Makeup)
    (p : PlanPackage) (j : Nat) (b : Span) (n : Nat × Nat) : Option Makeup :=
  (p.ops[j]?).bind fun o =>
    let part (r : Span) : Span := { r with off := r.off + (b.off - opDoff o), len := 64 }
    let sent (e : PlanPackage × Nat) (m : Nat × Nat) : Option Makeup := (e.1.ops[e.2]?).bind fun x => read e.1 e.2 (part (opSource x)) m
    let how (e : PlanPackage × Nat) : Nat × Nat := ((e.1.ops[e.2]?).map fun x => (opType x, opOp x)).getD (0, 0)
    match opKind o, opSite o with
    | 1, true => match switchSends ps (opNode o) (opTag o) with
      | [c, d] => match Makeup.join (how c) (sent c (leftChild n)) (sent d (rightChild n)) with
        | some v => some v
        | none => Makeup.join (how c) (sent d (leftChild n)) (sent c (rightChild n))
      | _ => none
    | 1, false =>
      (ps.findSome? fun q => ((upto q.ops.length).find? fun k => match q.ops[k]? with
        | some x => sendMeets lists q x p o
        | none => false).map fun k => (q, k)).bind fun e => sent e n
    | 2, _ => Makeup.join (opType o, opOp o) (read p j (part (opSource o)) (leftChild n)) (read p j (part (opDest o)) (rightChild n))
    | 3, _ => read p j (part (opSource o)) n
    | _, _ => none

/-- The makeup of the block of a node that operation i of a package reads, followed through the operations that write it last, `fuel` of
them in a row, to the elements of its ranks; `none` where the graph does not compute the node (R331, R338). -/
def makeup (lists : List (Nat × Nat)) (ranks : Nat) (ps : List PlanPackage) :
    Nat → PlanPackage → Nat → Span → Nat × Nat → Option Makeup
  | 0, _, _, _, _ => none
  | fuel + 1, p, i, b, node =>
    let n := carried ranks node.1 node.2
    match p.lastWriters i b with
    | [] =>
      if n.1 == 0 && (findRank n.2 lists).map Prod.fst == some p.package then
        some { made := none, leaves := [(n.2, p.package, b.base, b.off)] }
      else none
    | j :: js => (p.writes lists ps (makeup lists ranks ps fuel) j b n).bind fun m =>
      if js.all fun k => p.writes lists ps (makeup lists ranks ps fuel) k b n == some m then some m else none

/-- The makeup of each block that an operation sends a rank, or makes. -/
def PlanPackage.makeups (lists : List (Nat × Nat)) (ranks : Nat) (ps : List PlanPackage) (fuel : Nat) (p : PlanPackage) (i : Nat)
    (o : BitVec 256) : List (Option Makeup) :=
  let node := carried ranks (opNode o).1 (opNode o).2
  (upto (opLen o / 64)).filterMap fun k =>
    let part (r : Span) : Span := { r with off := r.off + 64 * k, len := 64 }
    if opKind o == 0 then if opSite o then none else some (makeup lists ranks ps fuel p i (part (opSource o)) node)
    else some (p.writes lists ps (makeup lists ranks ps fuel) i (part (opDest o)) node)

/-- Whether two makeups that share a rank's block agree on the blocks of every rank: an element of a rank goes with one element of each
other rank (R338). -/
def Makeup.agrees (a b : Makeup) : Bool :=
  !(a.leaves.any fun x => b.leaves.any fun y => x.2 == y.2) ||
  a.leaves.all fun x => b.leaves.all fun y => (x.1 == y.1) == (x.2 == y.2)

/-- Whether every node of a plan is made of nodes of its TYPE and OP at one place of the element range (R331, R338, log 90). -/
def placesOk (lists : List (Nat × Nat)) (ranks : Nat) (ps : List PlanPackage) : Bool :=
  let fuel := (ps.foldl (fun n p => n + p.ops.length) 0) + 1
  let ms := ps.flatMap fun p => (upto p.ops.length).flatMap fun i => match p.ops[i]? with
    | some o => p.makeups lists ranks ps fuel i o
    | none => []
  ms.all Option.isSome && (ms.filterMap id).all fun a => (ms.filterMap id).all a.agrees

/-- What follows an operation of any package of a plan: its successors, and the RECVs of its packet. -/
def planNext (lists : List (Nat × Nat)) (ps : List PlanPackage) (v : Nat × Nat) : List (Nat × Nat) :=
  match ps[v.1]? with
  | none => []
  | some p => match p.ops[v.2]? with
    | none => []
    | some o =>
      (opSuccs p.succ o).map (fun k => (v.1, k)) ++ (upto ps.length).flatMap fun j => match ps[j]? with
        | some q => ((upto q.ops.length).filter fun k => match q.ops[k]? with
            | some x => sendMeets lists p o q x
            | none => false).map fun k => (j, k)
        | none => []

/-- Whether the graphs of a plan compute the canonical tree (R331): no node is named twice or gets nothing, the graphs have no cycle, not through
packets either, and every operation carries or computes its node, of one TYPE and OP and at one place of the element range. -/
def treeOk (lists : List (Nat × Nat)) (ranks : Nat) (ps : List PlanPackage) (nodes : List (Nat × Nat)) : Bool :=
  let all := (upto ps.length).flatMap fun j => match ps[j]? with
    | some p => (upto p.ops.length).map fun i => (j, i)
    | none => []
  nodes.eraseDups.length == nodes.length && nodes.all (nodeFed ps) && acyclic (planNext lists ps) all &&
  (ps.all fun p => (upto p.ops.length).all fun i => match p.ops[i]? with | some o => nodeOk lists ranks ps p i o | none => true) &&
  placesOk lists ranks ps

/-- What the switch nodes of a plan compute, by node and tag (R331, R342). -/
def switchChunks (ps : List PlanPackage) : List SwitchChunk :=
  let ops := ps.flatMap fun p => p.ops.map fun o => (p.package, o)
  let sends := ops.filter fun e => opKind e.2 == 0 && opSite e.2
  (sends.map fun (_, o) =>
    let dests := (ops.filter fun e => opKind e.2 == 1 && opSite e.2 && opNode e.2 == opNode o && opTag e.2 == opTag o).map Prod.fst
    { level := opLevel o, index := opIndex o, tag := opTag o, type := opType o, op := opOp o, dests := dests.eraseDups : SwitchChunk }).eraseDups

/-- Read and check a plan descriptor (R330, R331); `none` where it is refused. Reserved fields of its tables are ignored (R8). -/
def State.readPlan (s : State) (key : Option (Nat × Nat)) (desc : Nat) : Option PlanDesc :=
  let nat (o n : Nat) : Nat := s.hbmNat key (desc + o) n
  let npkg := nat 4 2
  let g := s.group (nat 6 1)
  let nsw := nat 8 4
  let extents := (upto 8).map fun i => nat (0x10 + 8 * i) 8
  let head := nat 0 4 == 0xC3A10001 && 1 ≤ npkg && npkg ≤ 1024 && npkg == g.ext.length && g.assigned &&
    g.gen.toNat == nat 7 1 && nsw ≤ 4095 && extents.all fun e => e % 64 == 0
  if !head then none
  else
    let packages := (upto npkg).map fun j => s.planPackage key desc (nat 0x50 8) j
    let sw (j o n : Nat) : Nat := s.hbmNat key (desc + nat 0x58 8 + 16 * j + o) n
    let switches := (upto nsw).map fun j => (sw j 0 4 % 32, bitsOf (sw j 0 4) 5 20, sw j 4 1, sw j 6 2 % 1024, sw j 8 8)
    let ranks := s.groupSize g
    let nodes := switches.map fun w => (w.1, w.2.1)
    let swOk := (upto nsw).all fun j =>
      sw j 4 1 < 3 && treeJoins ranks (sw j 0 4 % 32) (bitsOf (sw j 0 4) 5 20)
    let pkOk := packages.all fun p => p.ok && p.ops.all (opOk extents ranks p.succ.length nodes)
    if packages.map PlanPackage.package == g.ext.map Prod.fst && swOk && pkOk && treeOk g.ext ranks packages nodes then
      some { group := nat 6 1, gen := BitVec.ofNat 8 (nat 7 1), extents := extents, packages := packages, switches := switches }
    else none

/-- The ranges of HBM that a plan descriptor takes: its header, its tables, and each package's operations and successor array (R330). -/
def State.planRanges (s : State) (key : Option (Nat × Nat)) (desc : Nat) : List (Nat × Nat) :=
  let nat (o n : Nat) : Nat := s.hbmNat key (desc + o) n
  let npkg := nat 4 2 % 1025
  [(desc, 0x80), (desc + nat 0x50 8, 32 * npkg), (desc + nat 0x58 8, 16 * (nat 8 4 % 4096))] ++
  (upto npkg).flatMap fun j =>
    let e := nat 0x50 8 + 32 * j
    [(desc + nat (e + 8) 8, 32 * (nat (e + 4) 2 % 4097)), (desc + nat (e + 0x10) 8, 2 * (nat (e + 6) 2 % 16385))]

/-- Whether a handle is free on this package (R330). -/
def State.handleFree (s : State) (h : Nat) : Bool := match s.plan h with | none => true | some p => p.state == .freed

/-- The lowest handle that is free on every package of a list, this one among them (R330). -/
def State.freeHandle (s : State) (packages : List Nat) : Option Nat :=
  (upto 4096).find? fun h => s.handleFree h && packages.all fun p => !(SMap.get [] s.peerPlans p).contains h

/-- Whether every switch of a descriptor advertises the reduction profile (R341). -/
def State.advertised (s : State) (d : PlanDesc) : Bool := d.switches.all fun w => s.profiles.contains w.2.2.2.2

/-- The plan of a descriptor on this package (R330): its own entry, and who must confirm; switch j is 1024 + j. The last accepted and
the last completed SEQ of a plan that has not fired are 0: the model's choice (log 125). -/
def State.newPlan (s : State) (d : PlanDesc) (setup : Option (Nat × Nat)) : Option Plan :=
  (d.packages.find? fun p => p.package == s.pkgnum.toNat).map fun me =>
    let others := (d.packages.map PlanPackage.package).filter fun p => p != s.pkgnum.toNat
    let await := others ++ (upto d.switches.length).map fun j => 1024 + j
    { ctx := (s.queue me.queue).ctx, group := d.group, gen := d.gen, queue := me.queue, ops := me.ops, succ := me.succ,
      packages := d.packages.map PlanPackage.package, ranks := (s.group d.group).ext, switches := d.switches
      chunks := switchChunks d.packages, extents := d.extents, state := .idle,
      awaiting := await, live := await.isEmpty, accepted := 0, completed := 0, stale := 0, fallbacks := 0, bases := [],
      firing := none, contexts := [], past := none, news := [], since := s.phys, setup := setup }

/-- The record of a set-up that succeeded, with its handle (R424). -/
def handleRecord (cid h : Nat) : Record := { plainRecord cid 0 with w1 := BitVec.ofNat 64 h }

/-! ## Set-up (R330) -/

/-- Ask every other listed package for the plan, and every switch of it for a reduction slot. -/
def State.askAll (s : State) (h : Nat) (p : Plan) (d : PlanDesc) : State :=
  p.switches.foldl (fun s w => s.sendSwitch w.2.2.1 [] (.plan (.switch_ w.2.2.2.2) (.reserve h w.1 w.2.1))) (s.tellPackages p (.ask h d))

/-- Whether what a listed package, or switch j as 1024 + j, sends reaches this one now: a switch's over its own rail group (R320,
R330). -/
def State.hearsOf (s : State) (p : Plan) (who : Nat) : Bool :=
  if who < 1024 then s.hears else match p.switches[who - 1024]? with | some w => s.groupUp w.2.2.1 | none => false

/-- R330: a listed package or a switch confirms its reservation, or refuses it, and the set-up fails; the others learn the
outcome. -/
def execPlanSetupConfirm (h who : Nat) (ok : Bool) (s : State) : Res :=
  match s.plan h with
  | none => notNow s
  | some p => match p.setup with
    | none => notNow s
    | some (q, i) =>
      if !(p.awaiting.contains who && s.hearsOf p who) then notNow s
      else if !ok then .next (((s.tellAll p (.outcome h false)).erasePlan h).finishStatus q i 3)
      else
        let left := p.awaiting.erase who
        let s := s.setPlan h { p with awaiting := left, live := left.isEmpty }
        .next (if left.isEmpty then (s.tellAll p (.outcome h true)).finish q i (handleRecord (cidOf q i) h) else s)

/-- R330: 100 ms without every confirmation. -/
def execPlanSetupTimeout (h : Nat) (s : State) : Res :=
  match s.plan h with
  | none => notNow s
  | some p => match p.setup with
    | none => notNow s
    | some (q, i) =>
      eventIf s (!p.awaiting.isEmpty && s.ms 100 ≤ s.phys - p.since)
        (((s.tellAll p (.outcome h false)).erasePlan h).finishStatus q i 3)

/-! ## Plans that other packages set up here (R329, R330) -/

/-- R330: package q asks for a plan under a handle; it is reserved here, for the context of its bound queue, or refused. -/
def State.peerSetup (s : State) (q h : Nat) (d : PlanDesc) : Res :=
  let g := s.group d.group
  let reply (s : State) (ok : Bool) : Res := .next (s.tellPackage (.answer h ok) q)
  if !(s.serving && s.hears) then notNow s
  else match if s.pkgset && h < 4096 && s.handleFree h && g.assigned && g.gen == d.gen then s.newPlan d none else none with
    | some p => reply (s.setPlan h { p with awaiting := [], live := false }) true
    | none => reply s false

/-- R330: the set-up of another package is complete, and its plan live, or has failed. -/
def State.peerSetupDone (s : State) (h : Nat) (ok : Bool) : Res :=
  match s.plan h with
  | some p =>
    eventIf s (s.hears && p.setup.isNone && !p.live && p.state == .idle)
      (if ok then s.setPlan h { p with live := true } else s.erasePlan h)
  | none => notNow s

/-! ## Triggers (R334-R336) -/

/-- What becomes of a trigger (R335). -/
inductive TriggerVerdict where
  | accepted | duplicate | refused
  deriving DecidableEq, Repr

/-- R335 for a trigger word. -/
def State.judge (s : State) (v : W64) : TriggerVerdict :=
  match s.plan (fld v 15 0) with
  | none => .refused
  | some p =>
    if !p.live || p.state == .freed then .refused
    else if fld v 63 32 == p.accepted then .duplicate
    else if p.state == .failed || 15 < fld v 23 16 || fld v 31 25 != 0 then .refused
    else if fld v 63 32 == (p.accepted + 1) % 2 ^ 32 then .accepted
    else .refused

/-- A trigger is accepted: its SEQ, and a FIRE at the tail of the plan's bound queue (R336), for which a FIRE command of another queue
or a `cl.fire` may wait. -/
def State.queueFire (s : State) (v : W64) (cmd : Option (Nat × Nat)) (origin : Option ((Nat × Nat) × Nat × Nat)) : State :=
  match s.plan (fld v 15 0) with
  | none => s
  | some p =>
    let q := s.queue p.queue
    let s := s.setPlan (fld v 15 0) { p with accepted := fld v 63 32 }
    s.setQueue p.queue { q with fires := q.fires ++ [{ tail := q.tail, trigger := v, cmd := cmd, origin := origin }] }

/-- R334, R335: an 8-byte host write at the start of a plan's page of BAR 2; other writes are ignored, a refused trigger is
reported. -/
def execHostTrigger (off width : Nat) (v : W64) (tee : Bool) (s : State) : Res :=
  s.mmioWrite tee fun s =>
    if off % 4096 != 0 || width != 8 || 4096 ≤ off / 4096 then s
    else
      let h := off / 4096
      let refused : State := { s with outs := s.outs ++ [.triggerRefused h] }
      match s.judge v with
      | .accepted => if fld v 15 0 == h then s.queueFire v none none else refused
      | .duplicate => s
      | .refused => refused

/-- R344, R345: a base write or a trigger from a core reaches the front-end: accepted, dropped as a duplicate, or refused. One from die 1
is on its way while the die-to-die link is DOWN (R320). -/
def execCoreTriggerArrival (k : Nat) (s : State) : Res :=
  match s.net[k]? with
  | none => notNow s
  | some p =>
    match p.kind, s.sender p, s.kernel? p.kernel with
    | .trigger, some (n, id), some kr =>
      if !s.packetPasses p then notNow s else
      let s := s.dropPacket k
      let c := s.core n
      match c.copy? id with
      | none => .next s
      | some cp =>
        let fail : State := (s.sendBack p).setCore n (c.failCopy cp .plan cp.word)
        match cp.op with
        | .clBase h set ext addr => match s.plan h with
          | some pl =>
            if pl.liveFor kr.ctx then
              .next ((s.setPlan h { pl with bases := SMap.set 0 pl.bases (8 * set + ext) addr.toNat }).acknowledge p)
            else .next fail
          | none => .next fail
        | .clFire v => match s.plan (fld v 15 0) with
          | some pl =>
            if pl.queue == kr.queue then .next fail
            else match s.judge v with
              | .accepted =>
                .next (if pl.ctx == kr.ctx then s.queueFire v none (some ((kr.queue, kr.cid), c.lcore, id)) else fail)
              | .duplicate => .next (s.acknowledge p)
              | .refused => .next fail
          | none => .next fail
        | _ => .next s
    | _, _, _ => notNow s

end Sys2Proof.Machine
end

