-- ==== Sys2Proof/Machine/Firings.lean ====
section
/-! DEFINITION. Firings (R332, R333, R337-R342): chunk operations, packets, switch nodes and their fallback, reductions; and the
rails whose loss they meet (R320-R322). -/
namespace Sys2Proof.Machine

/-! ## Firings (R332, R333) -/

/-- The operation that a packet is for (R331): the RECV of its tag, from the package of its PEER or of the node in a switch. -/
def Plan.recvOf (p : Plan) (k : CollPacket) : Option Nat :=
  (upto p.ops.length).find? fun i => match p.ops[i]? with
    | some o => opKind o == 1 && opTag o == k.tag && opSite o == k.site &&
      if k.site then k.result && opNode o == (k.level, k.index) else k.from_ == (findRank (opPeer o) p.ranks).map Prod.fst
    | none => false

/-- The packet held for a RECV of a firing (R332). -/
def Plan.packetFor (p : Plan) (seq i : Nat) : Option CollPacket := p.contexts.find? fun k => k.seq == seq && p.recvOf k == some i

/-- The counters after the packets for some operations have arrived (R332). -/
def countArrivals (counts : List Nat) (is : List Nat) : List Nat := is.foldl (fun cs i => cs.set i (cs.getD i 0 - 1)) counts

/-- The entry of the switch-node table of a node (R330). -/
def Plan.switch? (p : Plan) (node : Nat × Nat) : Option (Nat × Nat × Nat × Nat × Nat) := p.switches.find? fun w => (w.1, w.2.1) == node

/-- The switch nodes of a plan that a rail of this package has lost (R342). -/
def State.lostNodes (s : State) (p : Plan) : List (Nat × Nat) :=
  (p.switches.filter fun w => !(s.railsDown w.2.2.1).isEmpty).map fun w => (w.1, w.2.1)

/-- The nodes that fall back from the start of a firing: a rail of their switch's group is down here (R342), another package has
reported so, or has sent a child here already. -/
def State.fallenAt (s : State) (p : Plan) (seq : Nat) : List (Nat × Nat) :=
  (p.switches.map fun w => (w.1, w.2.1)).filter fun node => (s.lostNodes p).contains node ||
    (p.news.any fun x => x.seq == seq && x.fell && (x.level, x.index) == node) ||
    p.contexts.any fun k => k.seq == seq && k.site && !k.result && (k.level, k.index) == node

/-- What a package reports of a switch node in a firing (R342, log 99). -/
def State.newsOf (s : State) (seq : Nat) (node : Nat × Nat) (fell : Bool) : PlanNews :=
  { package := s.pkgnum.toNat, seq := seq, level := node.1, index := node.2, fell := fell }

/-- Tell the other listed packages of a switch node. -/
def State.tellNews (s : State) (h : Nat) (p : Plan) (seq : Nat) (node : Nat × Nat) (fell : Bool) : State :=
  s.tellPackages p (.news h (s.newsOf seq node fell))

/-- What a switch has sent for nodes that have fallen back is discarded (R342): its RECVs wait again. -/
def Plan.dropResults (p : Plan) (seq : Nat) (fallen : List (Nat × Nat)) : Plan :=
  let drops (k : CollPacket) : Bool := k.seq == seq && k.result && k.from_.isNone && fallen.contains (k.level, k.index)
  let again := (p.contexts.filter drops).filterMap p.recvOf
  { p with
    contexts := p.contexts.filter fun k => !drops k
    firing := p.firing.map fun f =>
      if f.seq == seq then { f with counts := again.foldl (fun cs i => cs.set i (cs.getD i 0 + 1)) f.counts } else f }

/-- Start a firing (R332, R333, R342): the bases are captured, every counter is set to its DEP, and packets that came early
count. A plan whose packages cannot be reached becomes FAILED (R321, R337). A base that no `cl.base` has written is 0: the model's
choice (log 125). -/
def State.startFiring (s : State) (h : Nat) (p : Plan) (v : W64) (cmd : Option (Nat × Nat)) (irq : Bool)
    (origin : Option ((Nat × Nat) × Nat × Nat)) : State :=
  let seq := fld v 63 32
  let fallen := s.fallenAt p seq
  let p := p.dropResults seq fallen
  let f : Firing :=
    { seq := seq, irq := irq, bases := (upto 8).map fun b => SMap.get 0 p.bases (8 * fld v 23 16 + b)
      counts := countArrivals (p.ops.map opDep) ((p.contexts.filter fun k => k.seq == seq).filterMap p.recvOf), done_ := [], cmd := cmd
      origin := origin, fallen := fallen, sent := [] }
  let s := s.setPlan h { p with state := .running, firing := some f, fallbacks := p.fallbacks + fallen.length, since := s.phys }
  if 1 < p.packages.length && !s.fabricUp then s.failPlan h
  else (s.lostNodes p).foldl (fun s node => s.tellNews h p seq node true) s

/-- Whether an operation may complete: its counter is zero, and a RECV has its packet (R332). -/
def Plan.opReady (p : Plan) (f : Firing) (i : Nat) : Bool :=
  match p.ops[i]? with
  | some o => f.counts.getD i 1 == 0 && !f.done_.contains i && (opKind o != 1 || (p.packetFor f.seq i).isSome)
  | none => false

/-- One node of the canonical tree, element by element (R339): RNE, no flag. -/
def reduceElem (t op a b : Nat) : Nat :=
  match op with
  | 0 => if isInt t then (a + b) % 2 ^ widthOf t else (addCode t 0 a b).1
  | 1 => elemMinMax false t a b
  | _ => elemMinMax true t a b

/-- Left and right child, element by element. -/
def reduceBytes (t op : Nat) (l r : List Byte) : List Byte :=
  let w := widthOf t
  let n := 8 * l.length / w
  toBytes l.length (ofDigits w ((upto n).map fun i => reduceElem t op (elem (ofBytes l) w i) (elem (ofBytes r) w i)))

/-- A node of the tree over the beats of its two children (R339, R340): the function is the same with the children exchanged. -/
def reduceBeats (t op : Nat) (l r : List Beat512) : List Beat512 := byteBeats (reduceBytes t op (l.flatMap beatBytes) (r.flatMap beatBytes))

/-! ### Packets (R327, R331, R332, R342) -/

/-- A packet reaches its RECV: it waits in the receive contexts, and counts for a firing in progress (R332). -/
def State.takePacket (s : State) (h : Nat) (p : Plan) (k : CollPacket) (i : Nat) : State :=
  let p := { p with contexts := p.contexts ++ [k] }
  match p.firing with
  | some f =>
    if f.seq == k.seq then s.setPlan h { p with firing := some { f with counts := countArrivals f.counts [i] }, since := s.phys }
    else s.setPlan h p
  | none => s.setPlan h p

/-- A packet whose RECV of its firing has its packet already, or has completed, is dropped; any other is taken. -/
def State.receivePacket (s : State) (h : Nat) (p : Plan) (k : CollPacket) (i : Nat) : State :=
  let spent := p.completed == k.seq || (p.packetFor k.seq i).isSome ||
    match p.firing with | some f => f.seq == k.seq && f.done_.contains i | none => false
  if spent then s else s.takePacket h p k i

/-- A packet leaves for a listed package, this one among them (R331). -/
def State.sendPacket (s : State) (h q : Nat) (k : CollPacket) : State :=
  if q == s.pkgnum.toNat then
    match s.plan h with
    | some p => match p.recvOf k with | some i => s.receivePacket h p k i | none => s
    | none => s
  else
    s.sendOut none k.data [.coll (.package q) k]

/-- A child of a switch node that this package computes arrives (R342): with the other one it gives the node's value, which goes to
the node's RECVs. -/
def State.takeChild (s : State) (h : Nat) (p : Plan) (k : CollPacket) : State :=
  let same (x : CollPacket) : Bool := x.seq == k.seq && x.site && !x.result && x.tag == k.tag && x.level == k.level && x.index == k.index
  match p.contexts.find? same, p.chunks.find? fun c => c.level == k.level && c.index == k.index && c.tag == k.tag with
  | some x, some c =>
    let s := s.setPlan h { p with contexts := p.contexts.erase x, since := s.phys }
    let r := { k with from_ := some s.pkgnum.toNat, result := true, data := reduceBeats c.type c.op x.data k.data }
    c.dests.foldl (fun s q => s.sendPacket h q r) s
  | _, _ => s.setPlan h { p with contexts := p.contexts ++ [k] }

/-- A child of a switch node goes to the node's fallback package (R342). -/
def State.sendChild (s : State) (h fb : Nat) (k : CollPacket) : State :=
  if fb == s.pkgnum.toNat then
    match s.plan h with
    | some p => s.takeChild h p k
    | none => s
  else
    s.sendOut none k.data [.coll (.package fb) k]

/-- The packet of a SEND (R331). -/
def State.packetOf (s : State) (h : Nat) (p : Plan) (seq : Nat) (o : BitVec 256) (data : List Beat512) : CollPacket :=
  { handle := h, seq := seq, group := p.group, gen := p.gen, from_ := some s.pkgnum.toNat, tag := opTag o, level := opLevel o
    index := opIndex o, site := opSite o, result := false, data := data }

/-- Whether every RECV of a switch node on this package has its result in a firing (R342). -/
def Plan.gotHere (p : Plan) (seq : Nat) (node : Nat × Nat) : Bool :=
  let spent := match p.firing with | some f => if f.seq == seq then f.done_ else [] | none => []
  (upto p.ops.length).all fun i => match p.ops[i]? with
    | some o => !(opKind o == 1 && opSite o && opNode o == node) || spent.contains i || (p.packetFor seq i).isSome
    | none => true

/-- The packages with RECVs of a switch node. -/
def Plan.nodeDests (p : Plan) (node : Nat × Nat) : List Nat :=
  (p.chunks.filter fun c => (c.level, c.index) == node).flatMap SwitchChunk.dests

/-- Whether the result of a switch node has been received in a firing (R342): here, and as they report on the other packages with
RECVs of it (log 99). -/
def Plan.hasResult (p : Plan) (me seq : Nat) (node : Nat × Nat) : Bool :=
  !(p.nodeDests node).isEmpty && (p.nodeDests node).all fun q =>
    if q == me then p.gotHere seq node
    else p.news.any fun x => x.package == q && x.seq == seq && !x.fell && (x.level, x.index) == node

/-- What a firing has sent to the switch for a node goes to its fallback package (R342). -/
def State.sendChildren (s : State) (h : Nat) (p : Plan) (f : Firing) (node : Nat × Nat) : State :=
  match p.switch? node with
  | none => s
  | some w => f.sent.foldl (fun s e => match p.ops[e.1]? with
    | some o => if opNode o == node then s.sendChild h w.2.2.2.1 (s.packetOf h p f.seq o e.2) else s
    | none => s) s

/-- A switch node falls back for the firing in progress, once (R342): where a rail here is lost before its result is received, which
the other packages learn, or where another package is known to have fallen back (`told`). -/
def State.fallNode (s : State) (h : Nat) (told : Bool) (node : Nat × Nat) : State :=
  match s.plan h with
  | none => s
  | some p => match p.firing with
    | none => s
    | some f =>
      if f.fallen.contains node || (!told && p.hasResult s.pkgnum.toNat f.seq node) then s
      else
        let s := s.setPlan h ({ p with
          fallbacks := p.fallbacks + 1, firing := some { f with fallen := f.fallen ++ [node] } }.dropResults f.seq [node])
        let s := if told then s else s.tellNews h p f.seq node true
        s.sendChildren h p f node

/-- Another package reports of a switch node (R342): it falls back in the firing in progress, what a complete firing has sent goes to
the fallback package, or the report waits for its firing. -/
def State.peerNews (s : State) (h : Nat) (x : PlanNews) : Res :=
  match s.plan h with
  | none => notNow s
  | some p =>
    let node := (x.level, x.index)
    let at_ (f : Option Firing) : Option Firing := f.bind fun f => if f.seq == x.seq then some f else none
    if !(p.live && s.hears) then notNow s
    else match x.fell, at_ p.firing, at_ p.past with
      | true, some _, _ => .next (s.fallNode h true node)
      | true, none, some f => eventIf s (!f.fallen.contains node) ((s.setPlan h { p with
          fallbacks := p.fallbacks + 1, past := some { f with fallen := f.fallen ++ [node] } }).sendChildren h p f node)
      | _, _, _ => .next (s.setPlan h { p with news := p.news ++ [x] })

/-- A SEND (R331): to the package of its rank, to its switch on the four data rails of the switch's group (R341), or to the
fallback package of a node that has fallen back (R342). -/
def State.performSend (s : State) (h : Nat) (p : Plan) (f : Firing) (i : Nat) (o : BitVec 256) (data : List Beat512) : State :=
  let k := s.packetOf h p f.seq o data
  if !opSite o then
    match findRank (opPeer o) p.ranks with
    | some (q, _) => s.sendPacket h q k
    | none => s
  else match p.switch? (opNode o) with
    | none => s
    | some w =>
      let s := s.setPlan h { p with firing := some { f with sent := f.sent ++ [(i, data)] } }
      if f.fallen.contains (opNode o) then s.sendChild h w.2.2.2.1 k
      else s.sendSwitch w.2.2.1 data (.coll (.switch_ w.2.2.2.2) k)

/-- The effect of an operation on memory and on the links (R331). -/
def State.performOp (s : State) (h : Nat) (p : Plan) (f : Firing) (i : Nat) (o : BitVec 256) : State :=
  let key := s.keyOf p.ctx
  let src := f.bases.getD (opSbase o) 0 + opSoff o
  let dst := f.bases.getD (opDbase o) 0 + opDoff o
  let n := opLen o
  match opKind o with
  | 0 =>
    let (bs, s) := s.frontRead key src n
    s.performSend h p f i o (byteBeats bs)
  | 1 =>
    match p.packetFor f.seq i with
    | some k => s.frontWrite key dst ((k.data.flatMap beatBytes).take n)
    | none => s
  | 2 =>
    let (l, s) := s.frontRead key src n
    let (r, s) := s.frontRead key dst n
    s.frontWrite key dst (reduceBytes (opType o) (opOp o) l r)
  | _ =>
    let (bs, s) := s.frontRead key src n
    s.frontWrite key dst bs

/-- Whether the front-end reaches what an operation reads and writes (R320, log 100). -/
def State.opReaches (s : State) (f : Firing) (o : BitVec 256) : Bool :=
  (opKind o == 1 || s.reaches 0 (f.bases.getD (opSbase o) 0 + opSoff o) (opLen o)) &&
  (opKind o == 0 || s.reaches 0 (f.bases.getD (opDbase o) 0 + opDoff o) (opLen o))

/-- An operation is complete (R332): its packet is spent, its successors' counters fall, and with the last one the firing is
complete. -/
def State.endOp (s : State) (h op : Nat) (o : BitVec 256) : State :=
  match s.plan h with
  | none => s
  | some p => match p.firing with
    | none => s
    | some f =>
      let f := { f with counts := countArrivals f.counts (opSuccs p.succ o), done_ := f.done_ ++ [op] }
      let p := { p with contexts := p.contexts.filter fun k => !(k.seq == f.seq && p.recvOf k == some op), since := s.phys }
      if f.done_.length == p.ops.length then
        (s.setPlan h { p with
          state := .idle, completed := f.seq, firing := none, past := some f
          news := p.news.filter fun x => x.seq != f.seq }).endFiring p f 0
      else s.setPlan h { p with firing := some f }

/-- R332: an operation completes. -/
def execChunkOpComplete (h op : Nat) (s : State) : Res :=
  match s.plan h with
  | none => notNow s
  | some p =>
    match p.firing, p.ops[op]? with
    | some f, some o => eventIf s (p.opReady f op && s.opReaches f o) ((s.performOp h p f op o).endOp h op o)
    | _, _ => notNow s

/-- What a switch makes of the two children that this package has sent it for a node and tag, where it has sent both (R340, R341). -/
def Plan.switchValue (p : Plan) (f : Firing) (k : CollPacket) : Option (List Beat512) :=
  let mine := f.sent.filter fun e => match p.ops[e.1]? with
    | some o => opNode o == (k.level, k.index) && opTag o == k.tag
    | none => false
  match mine, p.chunks.find? fun c => c.level == k.level && c.index == k.index && c.tag == k.tag with
  | [a, b], some c => some (reduceBeats c.type c.op a.2 b.2)
  | _, _ => none

/-- The firing in progress that a packet belongs to. -/
def Plan.firingOf (p : Plan) (k : CollPacket) : Option Firing :=
  match p.firing with
  | some f => if f.seq == k.seq then some f else none
  | none => none

/-- A package that has received a switch's result on all its RECVs of the node tells the others (R342, log 99). -/
def State.tellResult (s : State) (k : CollPacket) : State :=
  match s.plan k.handle with
  | some p => if k.from_.isNone && p.gotHere k.seq (k.level, k.index) then s.tellNews k.handle p k.seq (k.level, k.index) false else s
  | none => s

/-- Whether a collective packet reaches this package now: a switch's over the rail group of its node, any other over one that carries
traffic (R320, R330). -/
def State.hearsPacket (s : State) (p : Plan) (k : CollPacket) : Bool :=
  match k.from_, p.switch? (k.level, k.index) with
  | none, some w => s.groupUp w.2.2.1
  | _, _ => s.hears

/-- R327, R332, R342: a packet arrives for a RECV, or a child for a switch node that falls back here: dropped as stale, held for its
firing, or counted; one whose handle has no plan here is dropped. What a switch sends for a node that has fallen back is discarded; a
switch computes R339 of the two children (R341). -/
def execCollectivePacketArrival (k : CollPacket) (s : State) : Res :=
  match s.plan k.handle with
  | none => .next s
  | some p =>
    let g := s.group k.group
    if !s.hearsPacket p k then notNow s
    else if !(g.assigned && g.gen == k.gen && p.group == k.group && p.gen == k.gen) then
      .next (s.setPlan k.handle { p with stale := p.stale + 1 })
    else if !p.live then notNow s
    else if k.site && !k.result then
      match p.switch? (k.level, k.index) with
      | none => notNow s
      | some w =>
        if w.2.2.2.1 != s.pkgnum.toNat then notNow s
        else
          let s := if (p.firingOf k).isSome then s.fallNode k.handle true (k.level, k.index) else s
          match s.plan k.handle with
          | some p => .next (s.takeChild k.handle p k)
          | none => notNow s
    else match p.recvOf k with
      | none => notNow s
      | some i =>
        let fell := k.from_.isNone && match p.firingOf k with | some f => f.fallen.contains (k.level, k.index) | none => false
        let wrong := k.from_.isNone && match (p.firingOf k).bind fun f => p.switchValue f k with | some v => v != k.data | none => false
        if fell then .next s
        else if wrong then notNow s
        else .next ((s.receivePacket k.handle p k i).tellResult k)

/-- R337: 100 ms without progress. -/
def execPlanProgressTimeout (h : Nat) (s : State) : Res :=
  match s.plan h with
  | none => notNow s
  | some p => eventIf s (p.firing.isSome && s.ms 100 ≤ s.phys - p.since) (s.failPlan h)

/-! ## Rails (R320-R322, R342) -/

/-- A rail of a group is lost: switch nodes on it fall back in every firing that awaits them (R342). -/
def State.fallBack (s : State) (g : Nat) : State :=
  s.plans.foldl (fun s e => match e.2 with
    | some p => (p.switches.filter fun w => w.2.2.1 == g).foldl (fun s w => s.fallNode e.1 false (w.1, w.2.1)) s
    | none => s) s

/-- Copies of a core on die `die` that still have beats for the HBM beside the other die. -/
def Core.cutCopies (c : Core) (die : Nat) : Core :=
  let cut (k : Copy) : Bool := k.beats.any fun b => b.state == .waiting && match b.w, b.pa with
    | some w, some pa => c.kindOf w == 1 && dieOfPa pa != die
    | _, _ => false
  { c with copies := c.copies.map fun k => if k.state == .started && cut k then { k with state := .cancelled } else k }

/-- Loss of two die-to-die rails (R322): kernels with cores on both dies are aborted, and what their copies still had for the other
die, which nothing carries any more, is cancelled (log 100). -/
def State.loseD2d (s : State) : State :=
  let across (k : Kernel) : Bool := k.dies.contains 0 && k.dies.contains 1 && !k.place.isEmpty
  let cut := (s.kernels.filter across).flatMap fun k => k.place.take k.n
  let s := cut.foldl (fun s n => s.modCore n fun c => c.cutCopies (dieOf n)) s
  { s with d2dLost := true }.abortAll across (KernelEnd.plain 2 (TrapCode.num .feAbort) 1)

/-- The started copies and `pk.snd`s of a core that need another package fail (R270, R321). -/
def Core.losePeers (c : Core) (away : Copy → Bool) : Core :=
  c.copies.foldl (fun c k =>
    if k.state != .started then c
    else match k.op with
      | .pkSnd d .. => if away k then c.failCopy k .windowPerm (pkAddr d) else c
      | _ => c.refuseBeats k (fun b => b.state != .finished && match b.w with | some w => c.kindOf w == 3 | none => false) .windowPerm) c

/-- No rail group reaches another package any longer (R321): what has started towards one fails, of saved contexts too, and the
plans whose firings need one become FAILED. -/
def State.loseFabric (s : State) : State :=
  let cut (c : Core) : Core := c.losePeers s.pkAway
  let s := { s with
    cores := s.cores.map fun (e : Nat × Core) => (e.1, cut e.2)
    kernels := s.kernels.map fun (k : Kernel) => { k with context := k.context.map fun (e : Nat × Option Core) => (e.1, e.2.map cut) } }
  s.failPlans fun p => p.firing.isSome && 1 < p.packages.length

/-- R320-R322: a rail goes down or comes back; rails 0-14 are the UALink ports, 15-19 those between the dies. -/
def execRailStateChange (rail : Nat) (up : Bool) (s : State) : Res :=
  let change (l : List Nat) (r : Nat) : List Nat := if up then l.filter fun x => x != r else l ++ [r]
  if rail < 15 then
    if s.portsDown.contains rail != up then notNow s
    else
      let first := (s.railsDown (rail / 5)).isEmpty
      let s := { s with portsDown := change s.portsDown rail, outs := s.outs ++ [.railReport rail up] }
      let s := if !up && first then s.fallBack (rail / 5) else s
      .next (if s.fabricUp then s else s.loseFabric)
  else if rail < 20 then
    if s.d2dDown.contains (rail - 15) != up then notNow s
    else
      let s := { s with d2dDown := change s.d2dDown (rail - 15), outs := s.outs ++ [Output.railReport rail up] }
      let s := if 2 ≤ s.d2dDown.length && !s.d2dLost then s.loseD2d else s
      .next s.sendAnswers
  else notNow s

end Sys2Proof.Machine
end

