-- ==== Sys2Proof/Machine/Image.lean ====
section
/-! DEFINITION. What a LAUNCH and a RESUME need: the kernel image (R428), the base array and the window table (R264, R427),
placement (R24), the load of a core (R25, R103, R199, R235, R371). -/
namespace Sys2Proof.Machine

/-! ## The kernel image (R428) -/

/-- A kernel image as its header and tables give it: entry addresses, dies, scratchpad images as HBM address and length, window
templates, groups with their members, format entries, FMTSEL. -/
structure Image where
  n : Nat
  entries : List Nat
  dies : List Nat
  spads : List (Nat × Nat)
  windows : List W64
  groups : List (Nat × BitVec 192)
  fmts : List (BitVec 32)
  fmtsel : BitVec 4
  deriving DecidableEq, Repr

/-- Whether a table of an image lies in HBM. -/
def tableOk (image off size : Nat) : Bool := image + off + size ≤ hbmSize

/-- Read a kernel image under a key; `none` where its header breaks R428 (log 17 for what the layout leaves open). -/
def State.readImage (s : State) (key : Option (Nat × Nat)) (image : Nat) : Option Image :=
  let nat (o n : Nat) : Nat := s.hbmNat key (image + o) n
  let n := nat 4 2
  let ct := nat 8 8
  let wt := nat 0x10 8
  let gl := nat 0x18 8
  let head := nat 0 4 == 0x46583830 && 1 ≤ n && n ≤ 190 && tableOk image ct (32 * n) && tableOk image wt 512 && tableOk image gl 8 &&
    nat gl 8 ≤ 256 && tableOk image gl (8 + 32 * nat gl 8)
  if !head then none
  else
    let spads := (upto n).map fun i => (nat (ct + 32 * i + 16) 8, nat (ct + 32 * i + 24) 8)
    let groups := (upto (nat gl 8)).map fun j => (nat (gl + 8 + 32 * j) 8, BitVec.ofNat 192 (nat (gl + 16 + 32 * j) 24))
    let entries := (upto n).map fun i => nat (ct + 32 * i) 8
    let ok := (spads.all fun e => e.2 ≤ spadSize && tableOk image e.1 e.2) && entries.all (· < 2 ^ 48) &&
      groups.all fun e => e.1 < 256 && e.2.toNat < 2 ^ n
    if !ok then none
    else
      some { n := n, entries := entries, dies := (upto n).map fun i => nat (ct + 32 * i + 8) 1 % 2
             spads := spads.map fun e => (image + e.1, e.2)
             windows := (upto 64).map fun w => BitVec.ofNat 64 (nat (wt + 8 * w) 8)
             groups := groups, fmts := (upto 16).map fun i => BitVec.ofNat 32 (nat (0x20 + 4 * i) 4)
             fmtsel := BitVec.ofNat 4 (nat 0x60 1) }

/-- The ranges of HBM that hold the header and the tables of an image (R428); the scratchpad images go to their cores. -/
def State.imageRanges (s : State) (key : Option (Nat × Nat)) (image : Nat) : List (Nat × Nat) :=
  let nat (o n : Nat) : Nat := s.hbmNat key (image + o) n
  [(image, 0x80), (image + nat 8 8, 32 * (nat 4 2 % 256)), (image + nat 0x10 8, 512),
   (image + nat 0x18 8, 8 + 32 * (nat (nat 0x18 8) 8 % 257))]

/-! ## The window table (R264, R427) -/

/-- The two words of window N, of whatever KIND: the template, with BASE and PEER from the base array (R427); the reserved bits of a
template are ignored and read as zero (R8). -/
def windowWords (t : W64) (base peer : Nat) : W64 × W64 :=
  let bare := t.toNat - (fld t 57 52) <<< 52 - (fld t 51 42) <<< 42
  (BitVec.ofNat 64 (bare + (peer % 1024) <<< 42), BitVec.ofNat 64 base)

/-- The window table of a launch. -/
def State.launchWindows (s : State) (key : Option (Nat × Nat)) (img : Image) (bases : Nat) : List (W64 × W64) :=
  (upto 64).map fun w =>
    windowWords (img.windows.getD w 0) (s.hbmNat key (bases + 16 * w) 8) (s.hbmNat key (bases + 16 * w + 8) 2)

/-- Whether a window entry keeps the layout of R264. -/
def windowOk (e : W64 × W64) : Bool :=
  let w := Window.ofWords e.1 e.2
  w.bound % 64 == 0 &&
  match w.kind with
  | 1 => w.base % 64 == 0 && w.base + w.bound ≤ hbmSize
  | 2 => w.base % 2 ^ 19 == 0
  | _ => true

/-- Whether a window covers the doorbell of a queue of another context (R427). That the doorbell page of a queue is its 64-byte slot of
R417's page, and that a window of KIND 1 alone covers it, is the model's choice (log 142). -/
def State.windowRings (s : State) (ctx : Nat) (e : W64 × W64) : Bool :=
  let w := Window.ofWords e.1 e.2
  w.kind == 1 && (upto 32).any fun q =>
    (s.queue q).ctx != ctx && w.base < doorbellBase + 64 * q + 64 && doorbellBase + 64 * q < w.base + w.bound

/-! ## Groups of a launch (R427) -/

/-- The group entries whose OWNER is a CID, ascending. -/
def State.ownedGroups (s : State) (cid : Nat) : List (Nat × Group) :=
  s.groups.filter fun e => e.2.assigned && e.2.owner == cid

/-- Whether the image's groups are those of the LAUNCH, no core lies in more than four, and R23 holds (R427). -/
def State.groupsOk (s : State) (cid : Nat) (img : Image) : Bool :=
  let own := (s.ownedGroups cid).map fun e => (e.1, e.2.members)
  let count (d : Nat) : Nat := (img.dies.filter fun x => x == d).length
  img.groups.all own.contains && own.all img.groups.contains &&
  ((upto img.n).all fun l => (own.filter fun e => e.2.getLsbD l).length ≤ 4) &&
  count 0 ≤ 96 && count 1 ≤ 96 && (upto (img.n / 2)).all fun m => img.dies.getD (2 * m) 0 == img.dies.getD (2 * m + 1) 0

/-! ## Placement (R24, R427) -/

/-- Whether a physical pair is placeable: not retired, not under scan, not held by a kernel, not being cleared (R24, R427, R447). -/
def State.pairFree (s : State) (p : Nat) : Bool :=
  !s.retired.contains p && s.scanning != some p && !s.clearing.contains p &&
  !s.kernels.any fun k => k.place.any fun n => pairOf n == p

/-- The lowest free pair of each die that a list of logical pairs asks for, in order. -/
def choosePairs : List Nat → List Nat → Option (List Nat)
  | _, [] => some []
  | free, d :: ds => match free.find? fun p => dieOf (2 * p) == d with
    | some p => (choosePairs (free.erase p) ds).map fun ps => p :: ps
    | none => none

/-- The dies of the logical pairs. -/
def pairDies (dies : List Nat) : List Nat := (upto (ceilDiv dies.length 2)).map fun m => dies.getD (2 * m) 0

/-- The physical cores of each logical core, the idle odd core of the last pair with them (R24); none across a lost
die-to-die link (R322). -/
def State.placement (s : State) (dies : List Nat) : Option (List Nat) :=
  if s.d2dLost && dies.contains 0 && dies.contains 1 then none
  else (choosePairs ((upto 96).filter s.pairFree) (pairDies dies)).map fun ps => ps.flatMap fun p => [2 * p, 2 * p + 1]

/-! ## The verdict on a LAUNCH (R426-R428) -/

/-- What a LAUNCH at the head comes to. -/
inductive LaunchVerdict where
  | refused
  | depends (cid : Nat)
  | waits
  | starts (img : Image) (windows : List (W64 × W64)) (place : List Nat)
  deriving DecidableEq, Repr

/-- Field wN [hi:lo] of a command (R421). -/
def cmdFld (ws : List W64) (n hi lo : Nat) : Nat := fld (ws.getD n 0) hi lo

/-- The verdict on a well-formed LAUNCH of queue n with its predecessor check done. -/
def State.launchVerdict (s : State) (n : Nat) (pred : Option Nat) (ws : List W64) : LaunchVerdict :=
  match pred with
  | some cid => .depends cid
  | none =>
    let q := s.queue n
    let key := s.keyOf q.ctx
    match s.readImage key (cmdFld ws 1 38 0) with
    | none => .refused
    | some img =>
      let wins := s.launchWindows key img (cmdFld ws 6 38 0)
      if !(s.groupsOk (cmdFld ws 0 63 32) img && wins.all windowOk) || wins.any (s.windowRings q.ctx) then .refused
      else match s.placement img.dies with
        | some place => .starts img wins place
        | none => if q.pwait then .waits else .refused

/-- Whether each core of a kernel that would start reaches its scratchpad image (R320, log 100). -/
def State.imagesReach (s : State) (v : LaunchVerdict) : Bool :=
  match v with
  | .starts img _ place => (upto img.n).all fun l =>
    let e := img.spads.getD l (0, 0)
    s.reaches (dieOf (place.getD l 0)) e.1 e.2
  | _ => true

/-! ## Loading a core (R25) -/

/-- A table of the entries of a list that differ from a default. -/
def tableOf [DecidableEq α] (d : α) (vs : List α) : SMap α :=
  (upto vs.length).foldl (fun m i => match vs[i]? with | some v => SMap.set d m i v | none => m) []

/-- GSLOT0-3 of a logical core: its groups in ascending group number (R405, R427). -/
def State.slotsOf (s : State) (cid l : Nat) : SMap (BitVec 17) :=
  tableOf 0 (((s.ownedGroups cid).filter fun e => e.2.members.getLsbD l).map fun e =>
    BitVec.ofNat 17 (1 <<< 16 + e.2.gen.toNat <<< 8 + e.1))

/-- What belongs to a physical core whatever it holds: the model's counter of copies and the physical disturbances. -/
def Core.physical (c d : Core) : Core :=
  { d with nextId := c.nextId, corrupt := c.corrupt, slow := c.slow, soft := c.soft, disagree := c.disagree }

/-- The state of a core at LT 0 of a kernel: what R25 loads, zero elsewhere (R103, R199, R235, R371). -/
def State.loadCore (s : State) (k : Kernel) (img : Image) (wins : List (W64 × W64)) (ws : List W64) (l n : Nat) : State :=
  let (at_, len) := img.spads.getD l (0, 0)
  let bytes := s.hbmBytes (s.keyOf k.ctx) at_ len
  let s := s.crossRange (dieOf n) at_ bytes true
  let budget := cmdFld ws 5 47 0
  let sys : SysRegs := { SysRegs.reset with fmt := tableOf 0 img.fmts, fmtsel := img.fmtsel }
  let a : Arch := { Arch.reset with pc := img.entries.getD l 0, sys := sys, before := (0, sys) }
  s.modCore n fun c =>
    c.physical { Core.reset with
      run := .running
      kernel := some (k.queue, k.cid)
      lcore := l
      die := dieOf n
      a := a
      ck := a
      entryPc := img.entries.getD l 0
      win0 := tableOf 0 (wins.map Prod.fst)
      win1 := tableOf 0 (wins.map Prod.snd)
      gslot := s.slotsOf k.cid l
      calendar := cmdFld ws 2 3 3 == 1
      budget := budget
      launchBudget := budget
      dbgctl := BitVec.ofNat 3 (cmdFld ws 2 2 0)
      passno := BitVec.ofNat 32 (SMap.get 0 s.passes (pairOf n))
      spad := writeBytes [] 0 bytes }

/-- The kernel of a LAUNCH that starts (R427). -/
def State.newKernel (s : State) (n index : Nat) (img : Image) (place : List Nat) (ws : List W64) : Kernel :=
  let cid := cmdFld ws 0 63 32
  { queue := n, cid := cid, index := index, ctx := (s.queue n).ctx, state := .running, n := img.n, place := place, dies := img.dies
    used := (place.map pairOf).eraseDups, halts := cmdFld ws 7 38 0, irq := cmdFld ws 0 8 8 == 1
    groups := (s.ownedGroups cid).map fun e => (e.1, e.2.gen), end_ := none, rdvDone := [], steps := 0, codes := [], session := false
    modified := false, held := [], context := [], since := s.phys }

/-- Pairs that a tenant's kernel comes to hold (R447), and lent slots that come back to their cores (R430). -/
def State.takePairs (s : State) (ctx : Nat) (place : List Nat) : State :=
  let ps := (place.map pairOf).eraseDups
  { s with
    lent := s.lent.filter fun n => !place.contains n
    tenantPairs := if ctx == 0 then s.tenantPairs else s.tenantPairs ++ ps.filter fun p => !s.tenantPairs.contains p }

/-- Steps 4-6 of R427: place, load and start. -/
def State.startKernel (s : State) (n index : Nat) (img : Image) (wins : List (W64 × W64)) (place : List Nat) (ws : List W64) : State :=
  let k := s.newKernel n index img place ws
  let s := { s.takePairs k.ctx place with kernels := s.kernels ++ [k] }
  let s := (upto img.n).foldl (fun s l => s.loadCore k img wins ws l (place.getD l 0)) s
  let spare := place.drop img.n
  let s := spare.foldl (fun s m => s.modCore m fun c => c.physical .reset) s
  { s with fresh := s.fresh + 1 }

end Sys2Proof.Machine
end

