-- ==== Sys2Proof/Machine/Schedule.lean ====
section
/-! DEFINITION. How the front-end reads and refuses queue commands (R419-R422) and which queue it serves next (R425). -/
namespace Sys2Proof.Machine

/-! ## The command at the head (R416, R419) -/

/-- The HBM address of command i of queue n (R416). -/
def Queue.ringAt (q : Queue) (i : Nat) : Nat := fld q.base 38 0 + 64 * (i % 2 ^ q.log2n)

/-- The eight words of command i of queue n, read under its context (R416, R440). -/
def State.command (s : State) (n i : Nat) : List W64 :=
  let q := s.queue n
  (digits 64 8 (ofBytes (s.hbmBytes (s.keyOf q.ctx) (q.ringAt i) 64))).map (BitVec.ofNat 64)

/-- The ranges of HBM that the front-end reads to start a command beside its ring entry (R421, R426, R428, R330). -/
def State.cmdReads (s : State) (n : Nat) (ws : List W64) : List (Nat × Nat) :=
  let key := s.keyOf (s.queue n).ctx
  let f := cmdFld ws
  match f 0 7 0 with
  | 0x01 => s.imageRanges key (f 1 38 0) ++ [(f 6 38 0, 1024)]
  | 0x02 => if f 1 1 0 == 1 then [(f 2 63 0, 8)] else []
  | 0x06 => s.planRanges key (f 1 38 0)
  | 0x0B => if f 1 9 9 == 1 && f 1 8 8 == 0 then [(f 5 38 0, 8 + 4 * (s.hbmNat key (f 5 38 0) 2 % 1025))] else []
  | _ => []

/-- The bits that each word of a command may set (R419, R421). -/
def cmdMasks (opc : Nat) : Option (List Nat) :=
  let a := 2 ^ 39 - 1
  let w := 2 ^ 64 - 1
  (match opc with
   | 0x01 => some [a, 0x7F, w, w, 2 ^ 48 - 1, a, a]
   | 0x02 => some [3, w, w, 0, 0, 0, 0]
   | 0x03 => some [2, w, w, 0, 0, 0, 0]
   | 0x04 => some [0, 0, 0, 0, 0, 0, 0]
   | 0x05 => some [w - 0xFE000000, 0, 0, 0, 0, 0, 0]
   | 0x06 => some [a, 0, 0, 0, 0, 0, 0]
   | 0x07 => some [0xFFFF, 0, 0, 0, 0, 0, 0]
   | 0x08 => some [w, w, 2 ^ 32 - 1, 3, 0, 0, 0]
   | 0x09 => some [a, 2 ^ 32 - 1, w, 2, 0, 0, 0]
   | 0x0A => some [1, w, w, w, 0, 0, 0]
   | 0x0B => some [w - 0xFFFFFC00, w, w, 2 ^ 62 - 1, a, 0, 0]
   | 0x0C => some [2 ^ 32 - 1, a, 0, 0, 0, 0, 0]
   | 0x0D => some [2 ^ 32 - 1, a, 0, 0, 0, 0, 0]
   | 0x0E => some [0, 0, 0, 0, 0, 0, 0]
   | 0x0F => some [0x3F, w, w, 0, 0, 0, 0]
   | _ => none).map fun ms => (w - 0xFFFFFE00) :: ms

/-- An address in HBM or host memory with its size and alignment (R421). That a range in HBM which runs past its end is outside the
limits is the model's choice (log 140). -/
def placeOk (host : Bool) (a size align : Nat) : Bool := a % align == 0 && (host || a + size ≤ hbmSize)

/-- The limits of the fields of R421; each address is a multiple of 64 unless the table says otherwise. -/
def limitsOk (ws : List W64) : Bool :=
  let f := cmdFld ws
  let flag (n b : Nat) : Bool := f n b b == 1
  match f 0 7 0 with
  | 0x01 => f 1 38 0 % 4096 == 0 && f 2 6 4 ≤ 4 && f 5 47 0 != 0 && placeOk false (f 6 38 0) 1024 64 && placeOk false (f 7 38 0) 512 64
  | 0x02 => if flag 1 0 then placeOk (flag 1 1) (f 2 63 0) 8 8 else f 2 63 32 == 0
  | 0x03 => placeOk (flag 1 1) (f 2 63 0) 8 8
  | 0x05 => f 1 23 16 ≤ 15
  | 0x06 => f 1 38 0 % 64 == 0
  | 0x07 => f 1 15 0 < 4096
  | 0x08 => f 3 31 0 != 0 && placeOk (flag 4 0) (f 1 63 0) (64 * f 3 31 0) 64 && placeOk (flag 4 1) (f 2 63 0) (64 * f 3 31 0) 64
  | 0x09 => f 2 31 0 != 0 && placeOk false (f 1 38 0) (64 * f 2 31 0) 64 && placeOk (flag 4 1) (f 3 63 0) (2 * ceilDiv (f 2 31 0) 8) 64
  | 0x0B => f 5 38 0 % 64 == 0
  | 0x0C => f 2 38 0 % 4096 == 0
  | 0x0D => f 2 38 0 % 4096 == 0
  | _ => true

/-- Whether command i of queue n keeps R419: its CID, a listed OPC, reserved bits zero, fields within limits. -/
def commandOk (n i : Nat) (ws : List W64) : Bool :=
  cmdFld ws 0 63 32 == cidOf n i && limitsOk ws &&
  match cmdMasks (cmdFld ws 0 7 0) with
  | some ms => (upto 8).all fun k => (ws.getD k 0).toNat &&& ms.getD k 0 == (ws.getD k 0).toNat
  | none => false

/-- What stands at the head of a queue: a FIRE that a trigger put there, or a command of the area (R336, R416). -/
inductive Head where
  | fire (f : QueuedFire)
  | command (ws : List W64)
  deriving DecidableEq, Repr

def State.head (s : State) (n : Nat) : Option Head :=
  let q := s.queue n
  match q.fires.find? fun f => f.tail ≤ q.head with
  | some f => some (.fire f)
  | none => if q.head < q.tail then some (.command (s.command n q.head)) else none

/-! ## Start conditions (R420) -/

/-- Whether a firing of the queue's plans runs, or one that a FIRE command of the queue asks for is not complete: commands behind a
FIRE wait (R336). -/
def State.firingOn (s : State) (n : Nat) : Bool :=
  ((s.queue n).started.any fun c => c.opc == 0x05 && !c.finished) ||
  s.plans.any fun e => match e.2 with | some p => p.queue == n && p.firing.isSome | none => false

/-- Whether every command of a queue that has started is finished. -/
def Queue.allDone (q : Queue) : Bool := q.started.all Cmd.finished

/-- A 64-bit word at an address of HBM, under a queue's context, or of host memory. -/
def State.wordAt (s : State) (n : Nat) (host : Bool) (a : Nat) : Nat :=
  if host then readNat s.hostMem a 8 else s.hbmNat (s.keyOf (s.queue n).ctx) a 8

/-- The condition of a WAIT (R421, R426). -/
def State.waitHolds (s : State) (n : Nat) (ws : List W64) : Bool :=
  let f := cmdFld ws
  if f 1 0 0 == 1 then f 3 63 0 ≤ s.wordAt n (f 1 1 1 == 1) (f 2 63 0) else s.cidFinished (f 2 31 0)

/-- A saved kernel that a RESUME names (R431). -/
def State.savedKernel (s : State) (n : Nat) (ws : List W64) : Option Kernel :=
  s.kernels.find? fun k => k.cid == cmdFld ws 1 31 0 && k.ctx == (s.queue n).ctx && k.state == .saved (cmdFld ws 2 38 0)

/-- Whether the cores of a kernel, or the cores that come back, reach their context areas from their dies (R320, log 100). -/
def State.areasReach (s : State) (k : Kernel) (area : Nat) : Bool :=
  (upto k.n).all fun l => s.reaches (k.dies.getD l 0) (area + 2 ^ 24 * l) (2 ^ 24)

/-- Whether a well-formed command may start at the head (R420, R447) and what it writes as it starts is reached (R320, log 100); its
refusal counts as a start (R422). -/
def State.mayStart (s : State) (n : Nat) (ws : List W64) : Bool :=
  let q := s.queue n
  match cmdFld ws 0 7 0 with
  | 0x01 =>
    let v := s.launchVerdict n (q.pred.getD none) ws
    !s.zeroFill && v != .waits && s.imagesReach v
  | 0x02 => s.waitHolds n ws
  | 0x03 => q.allDone && (cmdFld ws 1 1 1 == 1 || s.reaches 0 (cmdFld ws 2 63 0) 8)
  | 0x04 => q.allDone
  | 0x05 => q.allDone
  | 0x07 => match s.plan (cmdFld ws 1 15 0) with
    | some p => p.firing.isNone
    | none => true
  | 0x08 => !s.zeroFill
  | 0x09 => !s.zeroFill
  | 0x0D => match s.savedKernel n ws with
    | some k => (!q.pwait || (s.placement k.dies).isSome) && s.areasReach k (cmdFld ws 2 38 0)
    | none => true
  | _ => true

/-- Whether the front-end reaches what it reads to start a command (R320, log 100). -/
def State.cmdReaches (s : State) (n : Nat) (ws : List W64) : Bool :=
  ((((s.queue n).ringAt (s.queue n).head, 64) :: s.cmdReads n ws).all fun r => s.reaches 0 r.1 r.2)

/-- Whether the head of a queue can start (R420, R425): the queue runs, holds fewer than 4096 unfinished commands, no firing
holds it back, and what the command names can be read. -/
def State.canServe (s : State) (n : Nat) : Bool :=
  let q := s.queue n
  q.en && !q.err && (q.started.filter fun c => !c.finished).length < 4096 && !s.firingOn n &&
  match s.head n with
  | none => false
  | some (.fire _) => q.allDone
  | some (.command ws) => s.cmdReaches n ws && (!commandOk n q.head ws || s.mayStart n ws)

/-! ## The choice of a queue (R425) -/

/-- The candidates of a level in the order of service after the queue last served there. -/
def State.rotation (s : State) (prio : Nat) (cands : List Nat) : List Nat :=
  let at_ := cands.filter fun n => (s.queue n).prio == prio
  let last := SMap.get 0 s.served prio
  (at_.filter fun n => last ≤ n) ++ at_.filter fun n => n < last

/-- The queue that the front-end serves next (R425). -/
def State.nextQueue (s : State) : Option Nat :=
  let cands := (upto 32).filter s.canServe
  match cands.find? fun n => (s.queue n).starved with
  | some n => some n
  | none => ((upto 4).flatMap fun p => s.rotation p cands).head?

/-- Note since when each head could start (R425). -/
def State.noteReady (s : State) : State :=
  (upto 32).foldl (fun s n =>
    let q := s.queue n
    if s.canServe n then (if q.ready.isSome then s else s.setQueue n { q with ready := some s.phys })
    else if q.ready.isSome then s.setQueue n { q with ready := none, starved := false } else s) s

/-- A LAUNCH that reaches the head has its predecessors checked, once (R426). -/
def State.reachHead (s : State) (n : Nat) : State :=
  let q := s.queue n
  match s.head n with
  | some (.command ws) =>
    if q.en && q.pred.isNone && commandOk n q.head ws && cmdFld ws 0 7 0 == 1 then
      let preds := (upto (cmdFld ws 2 6 4)).map fun i => cmdFld ws (3 + i / 2) (32 * (i % 2) + 31) (32 * (i % 2))
      s.setQueue n { q with pred := some (preds.find? fun c => !s.cidFinished c) }
    else s
  | _ => s

/-- The queue whose head starts was chosen: it is the last served of its level (R425). -/
def State.serve (s : State) (n : Nat) : State :=
  let s := s.noteReady
  let q := s.queue n
  let s := s.setQueue n { q with ready := none, starved := false, pred := none }
  { s with served := SMap.set 0 s.served q.prio (n + 1) }

/-- The head command moves from the head of its queue as it starts (R420); what is read for it may cross the die-to-die link (R318). -/
def State.take (s : State) (n : Nat) (ws : List W64) : State :=
  let s := (s.serve n).frontReads (s.keyOf (s.queue n).ctx) (((s.queue n).ringAt (s.queue n).head, 64) :: s.cmdReads n ws)
  let q := s.queue n
  let c : Cmd := { index := q.head, cid := cidOf n q.head, ctx := q.ctx, words := ws, finished := false, progress := 0, found := [] }
  s.setQueue n { q with head := q.head + 1, started := q.started ++ [c] }

/-- The start of the head command of queue n as a row of the opcode table: enabled when the queue is the one to serve and the
head has that code; what stands behind it reaches the head. A malformed command is refused with STATUS 1 (R422); `f` starts a well-formed one from its words and
index. -/
def State.startHead (s : State) (code n : Nat) (f : List W64 → Nat → State → State) : Res :=
  match s.head n with
  | some (.command ws) =>
    let i := (s.queue n).head
    if !s.serving || s.nextQueue != some n then notNow s
    else if commandOk n i ws then
      if cmdFld ws 0 7 0 == code then .next ((f ws i (s.take n ws)).reachHead n) else notNow s
    else
      let listed := (cmdMasks (cmdFld ws 0 7 0)).isSome
      if cmdFld ws 0 7 0 == code || (!listed && code == 0x0E) then
        .next (((s.take n ws).finishStatus n i 1).reachHead n)
      else notNow s
  | _ => notNow s

end Sys2Proof.Machine
end

