-- ==== Sys2Proof/Machine/Commands.lean ====
section
/-! DEFINITION. The queue commands (R420-R431) but for pre-emption. -/
namespace Sys2Proof.Machine

/-! ## LAUNCH (R426-R428) -/

/-- The record of a LAUNCH ended by DEPENDENCE (R426, R465). -/
def dependenceRecord (cid pred : Nat) : Record :=
  { w0 := BitVec.ofNat 64 (cid % 2 ^ 32 + 2 <<< 32 + (TrapCode.num .dependence).toNat <<< 40), w1 := 0, w2 := BitVec.ofNat 64 pred, w3 := 0 }

/-- R427: the verdict is that of the state in which the head was chosen. -/
def execLaunch (q : Nat) (s : State) : Res :=
  let pred := (s.queue q).pred.getD none
  s.startHead 0x01 q fun ws i t =>
    match s.launchVerdict q pred ws with
    | .depends cid => t.finish q i (dependenceRecord (cidOf q i) cid)
    | .starts img wins place => t.startKernel q i img wins place ws
    | _ => t.finishStatus q i 1

/-! ## WAIT, SIGNAL, FENCE, NOPC -/

/-- R420, R430: finished at its start, which its condition allows. -/
def execWait (q : Nat) (s : State) : Res := s.startHead 0x02 q fun _ i t => t.finishStatus q i 0

/-- The word of a WAIT is read, and when each head could start is noted (R425, R430). -/
def State.rereadWait (s : State) (q : Nat) (ws : List W64) : State :=
  let t := (s.frontReads (s.keyOf (s.queue q).ctx) (s.cmdReads q ws)).noteReady
  { t with fresh := t.fresh + 1 }

/-- R430: the front-end reads the word of a WAIT of MODE 1 again, over the die-to-die link where it lies beside the other die (R318); the
WAIT starts where its condition holds and its queue is the one to serve. -/
def execWaitReread (q : Nat) (s : State) : Res :=
  match s.head q with
  | some (.command ws) =>
    if !(s.serving && (s.queue q).en && !(s.queue q).err && commandOk q (s.queue q).head ws && cmdFld ws 0 7 0 == 2 && cmdFld ws 1 0 0 == 1) then
      notNow s
    else if s.nextQueue == some q then s.startHead 0x02 q fun _ i t => t.finishStatus q i 0
    else if s.cmdReaches q ws then .next (s.rereadWait q ws) else notNow s
  | _ => notNow s

/-- Write bytes to HBM under a queue's context or to host memory. -/
def State.queueWrite (s : State) (n : Nat) (host : Bool) (a : Nat) (bs : List Byte) : State :=
  if host then { s with hostMem := writeBytes s.hostMem a bs } else s.frontWrite (s.keyOf (s.queue n).ctx) a bs

/-- R430: eight bytes as one access. -/
def execSignal (q : Nat) (s : State) : Res :=
  s.startHead 0x03 q fun ws i t =>
    (t.queueWrite q (cmdFld ws 1 1 1 == 1) (cmdFld ws 2 63 0) (toBytes 8 (cmdFld ws 3 63 0))).finishStatus q i 0

/-- R420 -/
def execFenceCommand (q : Nat) (s : State) : Res := s.startHead 0x04 q fun _ i t => t.finishStatus q i 0

/-- R420; the row that also refuses a command whose OPC is not listed (R419). -/
def execNopc (q : Nat) (s : State) : Res := s.startHead 0x0E q fun _ i t => t.finishStatus q i 0

/-! ## Plans -/

/-- A FIRE command (R335-R337): where its trigger is accepted, the firing starts if this is the plan's bound queue, and else stands at
the tail of the bound queue, and the command waits for it; a FAILED plan completes it with an error record. -/
def State.fireCommand (s : State) (n index : Nat) (v : W64) : State :=
  let h := fld v 15 0
  match s.plan h with
  | none => s.finishStatus n index 1
  | some p =>
    match s.judge v with
    | .accepted =>
      if p.queue == n then s.startFiring h { p with accepted := fld v 63 32 } v (some (n, index)) (v.getLsbD 24) none
      else s.queueFire v (some (n, index)) none
    | .duplicate => s.finishStatus n index 0
    | .refused => s.finishStatus n index (if p.state == .failed then 3 else 1)

/-- The start of a FIRE that a trigger put in a queue (R336). -/
def State.startQueued (s : State) (n : Nat) (f : QueuedFire) : State :=
  let s := s.serve n
  let q := s.queue n
  let s := s.setQueue n { q with fires := q.fires.erase f }
  let h := fld f.trigger 15 0
  let s := match s.plan h with
    | some p =>
      if p.state == PlanState.failed || p.state == PlanState.freed || p.queue != n then s.endTrigger f.cmd f.origin 3
      else s.startFiring h p f.trigger f.cmd (f.trigger.getLsbD 24) f.origin
    | none => s.endTrigger f.cmd f.origin 3
  s.reachHead n

/-- R336: the FIRE at the head of a queue starts once every command ahead of it is finished. -/
def execFire (q : Nat) (s : State) : Res :=
  match s.head q with
  | some (.fire f) => eventIf s (s.serving && s.nextQueue == some q) (s.startQueued q f)
  | _ => s.startHead 0x05 q fun ws i t => t.fireCommand q i (ws.getD 1 0)

/-- R329-R331, R341: the descriptor is checked and a handle chosen; with other packages or switches to confirm, the set-up goes on.
One that finds no handle, or a switch that does not advertise the profile, fails. -/
def execPlanSetup (q : Nat) (s : State) : Res :=
  s.startHead 0x06 q fun ws i t =>
    let key := s.keyOf (s.queue q).ctx
    match if s.pkgset then s.readPlan key (cmdFld ws 1 38 0) else none with
    | none => t.finishStatus q i 1
    | some d => match s.newPlan d (some (q, i)), if s.advertised d then s.freeHandle (d.packages.map PlanPackage.package) else none with
      | none, _ => t.finishStatus q i 1
      | some _, none => t.finishStatus q i 3
      | some p, some h =>
        let t := t.setPlan h p
        if p.live then t.finish q i (handleRecord (cidOf q i) h)
        else t.askAll h p d

/-- A plan is freed: its identity has its last use, FIREs of its triggers that have not started come to nothing, and what stood
behind them reaches the head of its queue (R328, R329, R426). -/
def State.freePlan (s : State) (h : Nat) (p : Plan) : State :=
  let q := s.queue p.queue
  let mine (f : QueuedFire) : Bool := fld f.trigger 15 0 == h
  let s := s.setQueue p.queue { q with fires := q.fires.filter fun f => !mine f }
  let s := (q.fires.filter mine).foldl (fun s f => s.endTrigger f.cmd f.origin 3) s
  ((s.setPlan h { p with state := .freed, live := false, firing := none, contexts := [], news := [], past := none, bases := [] }).touchGroups [(p.group, p.gen)]).reachHead p.queue

/-- A plan is freed on every listed package, and its reduction slots in the switches (R329, R330). -/
def State.freeEverywhere (s : State) (h : Nat) (p : Plan) : State := (s.freePlan h p).tellAll p (.free h)

/-- R330: another listed package has freed a plan, once no firing of it runs here (R337). -/
def State.peerFree (s : State) (h : Nat) : Res :=
  match s.plan h with
  | some p => eventIf s (s.hears && p.live && p.firing.isNone && 1 < p.packages.length) (s.freePlan h p)
  | none => notNow s

/-- R329, R330, R337: frees a plan of the queue's context that is not RUNNING. -/
def execPlanFree (q : Nat) (s : State) : Res :=
  s.startHead 0x07 q fun ws i t =>
    let h := cmdFld ws 1 15 0
    match t.plan h with
    | some p =>
      if p.live && p.ctx == (t.queue q).ctx then (t.freeEverywhere h p).finishStatus q i 0 else t.finishStatus q i 1
    | none => t.finishStatus q i 1

/-! ## COPY and SCRUB (R430) -/

/-- The data that a queue command reads from an address. -/
def State.queueRead (s : State) (n : Nat) (host : Bool) (a len : Nat) : List Byte × State :=
  if host then (readBytes s.hostMem a len, s) else s.frontRead (s.keyOf (s.queue n).ctx) a len

/-- Whether the front-end reaches both ends of the next beat of a COPY (R320, log 100). -/
def State.copyReaches (s : State) (c : Cmd) : Bool :=
  let reach (flag w : Nat) : Bool := cmdFld c.words 4 flag flag == 1 || s.reaches 0 (cmdFld c.words w 63 0 + 64 * c.progress) 64
  reach 0 1 && reach 1 2

/-- One beat of a started COPY; the last finishes it. -/
def State.copyBeat (s : State) (n : Nat) (c : Cmd) : State :=
  let ws := c.words
  let at_ (w : Nat) : Nat := cmdFld ws w 63 0 + 64 * c.progress
  let (bs, s) := s.queueRead n (cmdFld ws 4 0 0 == 1) (at_ 1) 64
  let s := (s.queueWrite n (cmdFld ws 4 1 1 == 1) (at_ 2) bs).setCmd n { c with progress := c.progress + 1 }
  if c.progress + 1 == cmdFld ws 3 31 0 then s.finishStatus n c.index 0 else s

/-- A started command of a queue with a code. -/
def State.startedCmd (s : State) (n index code : Nat) : Option Cmd :=
  match s.cmd? n index with
  | some c => if c.opc == code && !c.finished then some c else none
  | none => none

/-- R430: COPY starts, or moves its next beat. -/
def execCopy (q : Nat) (k : Option Nat) (s : State) : Res :=
  match k with
  | none => s.startHead 0x08 q fun _ _ t => t
  | some i => match s.startedCmd q i 0x08 with
    | some c => eventIf s (s.copyReaches c) (s.copyBeat q c)
    | none => notNow s

/-- The bitmaps of a SCRUB: correctable, then uncorrectable beats, in the bit order of R283. -/
def scrubMaps (len : Nat) (found : List (Nat × Bool)) : List Byte :=
  let map (u : Bool) : Nat := (found.filter fun e => e.2 == u).foldl (fun v e => v + 2 ^ e.1) 0
  let n := ceilDiv len 8
  toBytes n (map false) ++ toBytes n (map true)

/-- Whether the front-end reaches the next beat of a SCRUB, or where its bitmap goes (R320, log 100). -/
def State.scrubReaches (s : State) (c : Cmd) : Bool :=
  let f := cmdFld c.words
  let len := f 2 31 0
  if len ≤ c.progress then f 4 1 1 == 1 || s.reaches 0 (f 3 63 0) (2 * ceilDiv len 8)
  else s.reaches 0 (f 1 38 0 / 64 * 64 + 64 * c.progress) 64

/-- One beat of a started SCRUB, read, corrected and rewritten by its controller (R283, R318), or its bitmap. -/
def State.scrubBeat (s : State) (n : Nat) (c : Cmd) : State :=
  let ws := c.words
  let len := cmdFld ws 2 31 0
  if len ≤ c.progress then
    (s.queueWrite n (cmdFld ws 4 1 1 == 1) (cmdFld ws 3 63 0) (scrubMaps len c.found)).finishStatus n c.index 0
  else
    let blk := cmdFld ws 1 38 0 / 64 + c.progress
    let s := s.crossAccess 0 (dieOfPa (64 * blk)) [] false
    let found := if s.hbmBad.contains blk then [(c.progress, true)] else if s.hbmWeak.contains blk then [(c.progress, false)] else []
    let s := if s.hbmBad.contains blk then s else { s with hbmWeak := s.hbmWeak.filter fun b => b != blk }
    s.setCmd n { c with progress := c.progress + 1, found := c.found ++ found }

/-- R430: SCRUB starts, or does its next beat. -/
def execScrub (q : Nat) (k : Option Nat) (s : State) : Res :=
  match k with
  | none => s.startHead 0x09 q fun _ _ t => t
  | some i => match s.startedCmd q i 0x09 with
    | some c => eventIf s (s.scrubReaches c) (s.scrubBeat q c)
    | none => notNow s

/-- R430: the slots of physical cores that no kernel holds serve COPY and SCRUB, or return to write drain. -/
def execCal (q : Nat) (s : State) : Res :=
  s.startHead 0x0A q fun ws i t =>
    let held (n : Nat) : Bool := t.kernels.any fun k => k.place.contains n
    let named := (upto numCores).filter fun n => cmdFld ws (2 + n / 64) (n % 64) (n % 64) == 1 && !held n
    let rest := t.lent.filter fun n => !named.contains n
    ({ t with lent := if cmdFld ws 1 0 0 == 1 then rest ++ named else rest } : State).finishStatus q i 0

/-! ## GROUP (R325-R328, R429) -/

/-- A fabric extension (R326); `none` where GROUP is refused for it. -/
def State.readExt (s : State) (key : Option (Nat × Nat)) (a members : Nat) : Option (List (Nat × Nat)) :=
  let nat (o n : Nat) : Nat := s.hbmNat key (a + o) n
  let n := nat 0 2
  if !(1 ≤ n && n ≤ 1024 && nat 2 6 == 0 && a + 8 + 4 * n ≤ hbmSize) then none
  else
    let es := (upto n).map fun j => nat (8 + 4 * j) 4
    let list := es.map fun e => (e % 1024, bitsOf e 16 8)
    let names := list.map Prod.fst
    let ok := es.all fun e => bitsOf e 10 6 == 0 && bitsOf e 24 8 == 0 && 1 ≤ bitsOf e 16 8 && bitsOf e 16 8 ≤ 190
    let me := list.find? fun e => s.pkgset && e.1 == s.pkgnum.toNat
    if ok && names.eraseDups.length == names.length && me.map Prod.snd == some members then some list else none

/-- Whether a running kernel or a live plan names a group entry (R328, R429). -/
def State.groupNamed (s : State) (g : Nat) (gen : BitVec 8) : Bool :=
  (s.kernels.any fun k => k.groups.contains (g, gen)) ||
  s.plans.any fun e => match e.2 with | some p => p.group == g && p.gen == gen && p.state != .freed | none => false

/-- Assign or release a group entry; `none` where the command is refused (R328, R429). -/
def State.groupCommand (s : State) (n : Nat) (ws : List W64) : Option State :=
  let f := cmdFld ws
  let g := f 1 7 0
  let e := s.group g
  let members := BitVec.ofNat 192 (f 2 63 0 + (f 3 63 0) <<< 64 + (f 4 63 0) <<< 128)
  let count := ((upto 192).filter fun l => members.getLsbD l).length
  if e.assigned && s.groupNamed g e.gen then none
  else if f 1 8 8 == 1 then
    let e := { e with assigned := false, owner := 0, ctx := 0, members := 0, ext := [] }
    some { s with groups := SMap.set .reset s.groups g e }
  else
    let gen := e.gen + 1
    let last := SMap.get 0 e.lastUse gen.toNat
    if last != 0 && s.phys + 1 < last + s.ms 2 then none
    else
      let ext := if f 1 9 9 == 1 then s.readExt (s.keyOf (s.queue n).ctx) (f 5 38 0) count else some []
      ext.map fun x =>
        let e := { e with assigned := true, gen := gen, owner := f 1 63 32, ctx := (s.queue (f 1 63 59)).ctx, members := members, ext := x }
        { s with groups := SMap.set .reset s.groups g e, fresh := s.fresh + 1 }

/-- R429 -/
def execGroup (q : Nat) (s : State) : Res :=
  s.startHead 0x0B q fun ws i t =>
    match t.groupCommand q ws with
    | some t => t.finishStatus q i 0
    | none => t.finishStatus q i 1

/-! ## EXPORT (R323, R423) -/

/-- Whether the two words of an export entry keep the layout of R323. -/
def exportOk (w0 w1 : W64) : Bool :=
  fld w0 39 39 == 0 && fld w0 38 0 % 64 == 0 && fld w1 63 39 == 0 && fld w1 38 0 % 64 == 0 && fld w1 38 0 + fld w0 38 0 ≤ hbmSize

/-- Whether the ranges of two entries overlap: some byte lies in both. -/
def exportsMeet (w0 w1 : W64) (e : ExportEntry) : Bool :=
  Nat.max (fld w1 38 0) (fld e.w1 38 0) < Nat.min (fld w1 38 0 + fld w0 38 0) (fld e.w1 38 0 + fld e.w0 38 0)

/-- R423: writes an entry with its owner, or releases it. -/
def execExportEntry (q : Nat) (s : State) : Res :=
  s.startHead 0x0F q fun ws i t =>
    let ctx := (t.queue q).ctx
    let k := cmdFld ws 1 5 0
    let w0 := ws.getD 2 0
    let w1 := ws.getD 3 0
    let valid := w0.getLsbD 63
    let other (e : ExportEntry) : Bool := e.w0.getLsbD 63 && e.owner != some ctx
    let clash := t.exports.any fun e => other e.2 && exportsMeet w0 w1 e.2
    if other (SMap.get .reset t.exports k) || !exportOk w0 w1 || clash then t.finishStatus q i 1
    else
      let e : ExportEntry := { w0 := w0, w1 := w1, owner := if valid then some ctx else none }
      ({ t with exports := SMap.set .reset t.exports k e } : State).finishStatus q i 0

/-! ## Starvation (R425) -/

/-- R425: the head of a queue could start for 10 ms without being chosen; the queue is served at the next decision. -/
def execQueueStarvationTimeout (q : Nat) (s : State) : Res :=
  let x := s.queue q
  match x.ready with
  | some t => eventIf s (!x.starved && s.canServe q && s.ms 10 ≤ s.phys - t) (s.setQueue q { x with starved := true })
  | none => notNow s

end Sys2Proof.Machine
end

