-- ==== Sys2Proof/Machine/Conversion.lean ====
section
/-! DEFINITION. Conversion and quantisation instructions (R184-R195). -/
namespace Sys2Proof.Machine

/-- The part count P of two widths (R185). -/
def partCount (ws wd : Nat) : Nat := if ws ≤ wd then wd / ws else ws / wd

/-- Elements converted per instruction (R185). -/
def partLen (ws wd : Nat) : Nat := if ws ≤ wd then 2048 / wd else 2048 / ws

/-- The result of converting part p: `f j` converts source element j, with the source's poison joined by `k j` (R185). -/
def convertPart (ws wd p : Nat) (x : Val) (f : Nat → Nat → Nat × Flags) (k : Nat → Kind) : VecRes :=
  let n := partLen ws wd
  vecOf wd fun i =>
    if ws ≤ wd then (f (p * n + i) (x.elem ws (p * n + i)), (x.elemKind ws (p * n + i)).join (k (p * n + i)))
    else if p * n ≤ i && i < p * n + n then (f i (x.elem ws (i - p * n)), (x.elemKind ws (i - p * n)).join (k i))
    else ((0, 0), .clean)

/-- One conversion of a code that is not complex (R190). -/
def convCode (ts td rm x : Nat) : Nat × Flags :=
  if isInt ts && isInt td then satInt td (intVal ts x) else roundTo td rm (valOf ts x)

/-- One conversion (R190). -/
def convElem (ts td rm x : Nat) : Nat × Flags :=
  if isComplex ts then
    let ps := partOf ts
    let pd := partOf td
    let (re, f) := convCode ps pd rm (bitsOf x 0 (widthOf ps))
    let (im, g) := convCode ps pd rm (bitsOf x (widthOf ps) (widthOf ps))
    (re + im <<< widthOf pd, f ||| g)
  else convCode ts td rm x

/-- Read the data operand and a scalar part number, and convert (R185). -/
def Core.convertScalar (c : Core) (d : Port) (a b : Src) (f : Nat → Nat → Nat → Nat → Nat × Flags) : Except Trap Core := do
  let ts := fVtype c.fmt
  let td := fCtype c.fmt
  let rm := fRnd c.fmt
  let ws := widthOf ts
  let wd := widthOf td
  let (x, c) ← c.readV a
  let (p, c) ← c.readS b
  let _ ← c.need (p.toNat < partCount ws wd) .range
  let (r, g) := convertPart ws wd p.toNat x (fun _ => f ts td rm) fun _ => .clean
  .ok (c.deliverV d r g 4)

/-- R190 -/
def execVcvt (ch : Bool) (d : Port) (a b : Src) (s : State) : Res :=
  issue (.vcvt ch d a b) (fun _ c => c.convertScalar d a b convElem) s

/-- R191: the low bits of each code. -/
def execVpack (ch : Bool) (d : Port) (a b : Src) (s : State) : Res :=
  issue (.vpack ch d a b) (fun _ c => c.convertScalar d a b fun _ td _ x => (x % 2 ^ widthOf td, 0)) s

/-- R191: each code extended, by sign for the signed integer types. -/
def execVunpack (ch : Bool) (d : Port) (a b : Src) (s : State) : Res :=
  issue (.vunpack ch d a b) (fun _ c => c.convertScalar d a b fun ts td _ x =>
    (if isSigned ts then wrapInt (intVal ts x) (widthOf td) else x, 0)) s

/-! ## Scales (R187, R192-R194) -/

/-- BAND of a scale operand. -/
def Val.band (q : Val) : Nat := bitsOf q.bits.toNat 2032 16
/-- PART of a scale operand. -/
def Val.part (q : Val) : Nat := bitsOf q.bits.toNat 2016 4
/-- FINE of block k. -/
def Val.fine (q : Val) (k : Nat) : Nat := q.elem 8 k

/-- A poisoned word used as a scale adds scale poison, whatever its own kind (R188, R467): that a word with element poison adds no
element poison to the results it scales is the model's choice (log 103). -/
def scaleKind (k : Kind) : Kind := if k.poisoned then .scaled else .clean

/-- The scale poison of block k: its fine-scale word and the band's word. -/
def Val.scalePoison (q : Val) (k : Nat) : Kind := scaleKind ((q.elemKind 8 k).join (q.kind 63))

/-- The largest magnitude of a format that holds quantised data (R192). -/
def qmax (t : Nat) : Nat :=
  match t with
  | 13 => 7
  | 0 => 127
  | 1 => 255
  | 4 => 6
  | 5 => 448
  | _ => 57344

/-- The smallest E3M5 code whose value times `unit` is at least `amax` (R192). -/
def fineCode (unit amax : Ex) : Nat × Flags :=
  match findPos (fun c => !(mulEx (fineVal c) unit).magLt amax) (upto 256) with
  | some c => (c, 0)
  | none => (0xFF, Flags.saturate)

/-- The largest magnitude among the non-NaN elements of a block, zero where there is none (R192). -/
def blockMax (xs : List Num) : Num :=
  xs.foldl (fun m x =>
    let y := if x.neg then x.negate else x
    if ltNum false m y then y else m) .zero

/-- The fine scale of one block (R192). -/
def fineOf (band : Num) (qm : Nat) (xs : List Num) : Nat × Flags :=
  match blockMax xs, band with
  | .inf _, .fin _ => (0xFF, Flags.saturate)
  | .fin m, .fin b => if m.m == 0 then (0, 0) else fineCode (mulEx { b with neg := false } (.ofNat qm 0)) m
  | _, _ => (0, 0)

/-- A BAND that `vscale` can use: finite, nonzero and normal (R192). -/
def bandUsable (band : Nat) : Bool := let e := bitsOf band 7 8; e != 0 && e != 255

/-- R192 -/
def execVscale (ch : Bool) (d : Port) (a b : Src) (s : State) : Res :=
  issue (.vscale ch d a b) (fun _ c => do
    let ts := fVtype c.fmt
    let td := fCtype c.fmt
    let ws := widthOf ts
    let (x, c) ← c.readV a
    let (ctl, c) ← c.readS b
    let _ ← c.need (within ctl (ones 31 16 + ones 3 0)) .range
    let band := fld ctl 31 16
    let p := fld ctl 3 0
    let _ ← c.need (p < partCount ws (widthOf td)) .range
    let n := 2048 / ws
    let blocks := (upto (n / 8)).map fun j =>
      let k := Kind.joinAll ((rangeFrom (8 * j) 8).map (x.elemKind ws))
      let r := if bandUsable band then fineOf (FF.val .bf16 band) (qmax td) ((rangeFrom (8 * j) 8).map fun i => valOf ts (x.elem ws i))
        else (0, Flags.invalid)
      (r, ({ lo := 8 * (p * n / 8 + j), len := 8, v := r.1, k := k } : Field))
    let fs := { lo := 2032, len := 16, v := band, k := .clean } :: { lo := 2016, len := 4, v := p, k := .clean } ::
      blocks.map Prod.snd
    .ok (c.deliverV d (Val.ofFields fs) (Flags.union (blocks.map fun r => r.1.2)) 4)) s

/-- One quotient of `vquant` with the cases of R193. -/
def quantElem (td rm : Nat) (fine band : Nat) (x : Num) : Nat × Flags :=
  match (mulNum (.fin (fineVal fine)) (FF.val .bf16 band)).1 with
  | .fin s =>
    if s.m == 0 then (0, Flags.when (!x.isZero) .invalid)
    else match x with
      | .nan => roundTo td rm .nan
      | .inf n => roundTo td rm (.inf (n != s.neg))
      | .fin v => roundTo td rm (.fin (divEx v s))
  | _ =>
    let (r, _) := roundTo td rm .nan
    (r, Flags.invalid)

/-- R193 -/
def execVquant (ch : Bool) (d : Port) (a b : Src) (s : State) : Res :=
  issue (.vquant ch d a b) (fun _ c => do
    let ts := fVtype c.fmt
    let td := fCtype c.fmt
    let rm := fRnd c.fmt
    let (x, c) ← c.readV a
    let (q, c) ← c.readV b
    let _ ← c.noPoison (q.kind 63)
    let _ ← c.need (q.part < partCount (widthOf ts) (widthOf td)) .range
    let (r, g) := convertPart (widthOf ts) (widthOf td) q.part x
      (fun j v => quantElem td rm (q.fine (j / 8)) q.band (valOf ts v)) fun j => q.scalePoison (j / 8)
    .ok (c.deliverV d r g 6)) s

/-- One product of `vdequant` (R194): a band that is infinite or NaN gives NaN and invalid (R81), an infinite element with
nonzero scales keeps its own sign, also under a negative band, where the pseudocode's product would change it: the model's choice
(log 114). -/
def dequantElem (td rm : Nat) (fine band : Nat) (x : Num) : Nat × Flags :=
  match FF.val .bf16 band with
  | .fin b =>
    let s := mulEx (fineVal fine) b
    let (v, f) := match x with
      | .inf n => if s.isZero then (Num.nan, Flags.invalid) else (Num.inf n, 0)
      | _ => mulNum x (.fin s)
    let (r, g) := roundTo td rm v
    (r, f ||| g)
  | _ => ((roundTo td rm .nan).1, Flags.invalid)

/-- R194 -/
def execVdequant (ch : Bool) (d : Port) (a b : Src) (s : State) : Res :=
  issue (.vdequant ch d a b) (fun _ c => do
    let ts := fVtype c.fmt
    let td := fCtype c.fmt
    let rm := fRnd c.fmt
    let (x, c) ← c.readV a
    let (q, c) ← c.readV b
    let _ ← c.noPoison (q.kind 63)
    let _ ← c.need (q.part < partCount (widthOf ts) (widthOf td)) .range
    let (r, g) := convertPart (widthOf ts) (widthOf td) q.part x
      (fun j v => dequantElem td rm (q.fine (j / 8)) q.band (valOf ts v)) fun j => q.scalePoison (j / 8)
    .ok (c.deliverV d r g 4)) s

/-! ## Dithered rounding (R195) -/

/-- A dithered conversion: between the two neighbours by 4096 × f > d, otherwise `round` in RNE (R195). An infinity converted to
a format without infinity raises saturate alone, as R88 has it, and a NaN converted to FP4 raises invalid alone, as R90 has it: the
model's choice beside R195's inexact (log 81). -/
def ditherCode (td dither : Nat) (x : Num) : Nat × Flags :=
  let f := ffOf td
  match x with
  | .fin v =>
    if v.m == 0 then (f.signBit v.neg, 0)
    else
      let tiny := v.lead < f.emin
      let q := if tiny then f.emin else v.lead
      let g := q - (f.p - 1 : Nat)
      let (m0, _, exact) := cutAt v g
      let lo := (q - f.emin).toNat <<< (f.p - 1) + m0
      if exact && lo ≤ f.maxCode then (f.signBit v.neg + lo, 0)
      else if f.maxCode ≤ lo then f.roundEx 0 v
      else
        let d := (g - v.e).toNat
        let up := dither * 2 ^ d < 4096 * (v.m - m0 <<< d)
        (f.signBit v.neg + (if up then lo + 1 else lo), Flags.inexact ||| Flags.when tiny .underflow)
  | y => f.round 0 y

/-- R195 -/
def execVcvts (ch : Bool) (d : Port) (a b : Src) (s : State) : Res :=
  issue (.vcvts ch d a b) (fun _ c => do
    let ts := fVtype c.fmt
    let td := fCtype c.fmt
    let ws := widthOf ts
    let (x, c) ← c.readV a
    let (q, c) ← c.readV b
    let _ ← c.noPoison (q.kind 48)
    let p := bitsOf q.bits.toNat 1536 4
    let _ ← c.need (p < partCount ws (widthOf td)) .range
    let n := 2048 / ws
    let (r, g) := convertPart ws (widthOf td) p x
      (fun j v => ditherCode td (q.elem 12 (j - p * n)) (valOf ts v)) fun j => q.elemKind 12 (j - p * n)
    .ok (c.deliverV d r g 4)) s

end Sys2Proof.Machine
end

