-- ==== Sys2Proof/Machine/CopyOps.lean ====
section
/-! DEFINITION. Copy instructions (R278-R287). -/
namespace Sys2Proof.Machine

/-- The fields of a copy descriptor: LEN + 1 beats and SADDR (R278). -/
def descBeats (d : W64) : Nat := fld d 35 24 + 1
def descSpad (d : W64) : Nat := fld d 22 0

/-- The checks of a copy descriptor (R278): the bits its entry defines, SADDR and the scratchpad range of `len` bytes. -/
def Core.descOk (c : Core) (d : W64) (mask len : Nat) : Except Trap Unit :=
  c.need (within d mask && descSpad d % 64 == 0 && descSpad d + len ≤ spadSize) .range

/-- The bits of a descriptor without OP and TYPE. -/
def plainDesc : Nat := ones 35 24 + ones 22 0

/-- The landing LT of a timed copy, with the checks of R261; `none` for an untimed one (R260). -/
def Core.timedLanding (c : Core) (beats : List Beat) : Except Trap (Option Nat) :=
  match c.cx.ts with
  | none => .ok none
  | some _ => do
    let _ ← c.need (c.calendar && beats.length ≤ 64 && beats.all fun b => match b.w with | some w => c.kindOf w == 1 | none => true)
      .calendar
    let t ← c.targetLt c.now
    .ok (some t)

/-- Issue a get or gather (R279, R280). -/
def Core.issueGet (c : Core) (n : BitVec 3) (op : CopyOp) (beats : List Beat) : Except Trap Core := do
  let p := c.cPipe
  let timed ← c.timedLanding beats
  let id := c.nextId
  let c ← c.issueCopy p n.toNat op none beats timed
  let c := { c with a := c.a.reserveBeats c.kindOf c.now beats }
  .ok (match timed with | some t => c.timedBeats p id beats.length t | none => c)

/-- R279 -/
def execCpGet (ch : Bool) (n : BitVec 3) (a b : Src) (s : State) : Res :=
  issue (.cpGet ch n a b) (fun _ c => do
    let (wa, c) ← c.readS a
    let (d, c) ← c.readS b
    let k := descBeats d
    let _ ← c.descOk d plainDesc (64 * k)
    let w ← c.windowCheck wa (64 * k) fun w => w.rd
    let _ ← c.bufferCheck true [(descSpad d, 64 * k)]
    c.issueGet n .get (c.newBeats w (descSpad d) k)) s

/-- The groups of operand beats as guarded accesses: LT, address, length (R278). -/
def Core.operandAccs (c : Core) (sp n : Nat) : List (Nat × Nat × Nat) :=
  (upto (ceilDiv n 4)).map fun g => (c.now + 1 + g, sp + 256 * g, 64 * Nat.min 4 (n - 4 * g))

/-- Issue a held copy that reads its operand from scratchpad (R278, R279, R282). -/
def Core.issuePut (c : Core) (n : BitVec 3) (op : CopyOp) (w sp k : Nat) : Except Trap Core := do
  let p := c.cPipe
  let _ ← c.readGuard (c.operandAccs sp k)
  let id := c.nextId
  let c ← c.issueCopy p n.toNat op (some (64 * k)) (c.newBeats w sp k) none
  .ok (c.operandReads p id k)

/-- R279 -/
def execCpPut (ch : Bool) (n : BitVec 3) (a b : Src) (s : State) : Res :=
  issue (.cpPut ch n a b) (fun _ c => do
    let (wa, c) ← c.readS a
    let (d, c) ← c.readS b
    let k := descBeats d
    let _ ← c.descOk d plainDesc (64 * k)
    let w ← c.windowCheck wa (64 * k) fun w => w.wr
    c.issuePut n .put w (descSpad d) k) s

/-- The rows of `cp.gath` from lane i on (R280). -/
def Core.gatherBeats (c : Core) (v : Val) (rlen dest : Nat) : Nat → Nat → Except Trap (List Beat)
  | 0, _ => .ok []
  | n + 1, i => do
    let l := v.elem 64 i
    let sp := dest + 64 * rlen * i
    let row ← if bit l 63 then
        .ok ((upto rlen).map fun j =>
          ({ w := none, sp := sp + 64 * j, data := none, pa := none, state := .coming { bits := 0, bad := false } } : Beat))
      else do
        let w ← c.windowCheck (BitVec.ofNat 64 l) (64 * rlen) fun w => w.rd
        .ok (c.newBeats w sp rlen)
    let rest ← c.gatherBeats v rlen dest n (i + 1)
    .ok (row ++ rest)

/-- The poison `cp.gath` reads in a 64-bit lane: bits [62:0] of an OFF lane are ignored, its high word is not (R280, R467). -/
def gatherLaneKind (v : Val) (i : Nat) : Kind :=
  if bit (v.elem 64 i) 63 then v.kind (2 * i + 1) else (v.kind (2 * i)).join (v.kind (2 * i + 1))

/-- R280 -/
def execCpGath (ch : Bool) (n : BitVec 3) (a b : Src) (s : State) : Res :=
  issue (.cpGath ch n a b) (fun _ c => do
    let (v, c) ← c.readV a
    let (ctl, c) ← c.readS b
    let rlen := fld ctl 35 30 + 1
    let rows := fld ctl 28 24 + 1
    let dest := fld ctl 22 0
    let _ ← c.need (within ctl (ones 35 30 + ones 28 24 + ones 22 0) && dest % 64 == 0 && dest + 64 * rlen * rows ≤ spadSize) .range
    let _ ← c.noPoison (Kind.joinAll ((upto rows).map (gatherLaneKind v)))
    let beats ← c.gatherBeats v rlen dest rows 0
    let _ ← c.bufferCheck true [(dest, 64 * rlen * rows)]
    c.issueGet n .gath beats) s

/-- R281: one 64-byte entry of the commit buffer. -/
def execCpFill (ch : Bool) (n : BitVec 3) (a b : Src) (s : State) : Res :=
  issue (.cpFill ch n a b) (fun _ c => do
    let (wa, c) ← c.readS a
    let (ctl, c) ← c.readS b
    let k := fld ctl 15 0 + 1
    let pat := BitVec.ofNat 32 (fld ctl 63 32)
    let _ ← c.need (within ctl (ones 63 32 + ones 15 0)) .range
    let w ← c.windowCheck wa (64 * k) fun w => w.wr
    let line : BeatData := BeatData.ofWords (List.replicate 16 (PWord.ofNat pat.toNat))
    c.issueCopy c.cPipe n.toNat (.fill pat) (some 64) ((upto k).map fun j => c.newBeat (w + 64 * j) 0 (some line)) none) s

/-- R283: the memory beats, then the two beats of the record. SADDR is checked for the record's 128 bytes, not for the 64 (LEN + 1)
of the descriptor's table (R278): the model's choice (log 109). -/
def execCpScrub (ch : Bool) (n : BitVec 3) (a b : Src) (s : State) : Res :=
  issue (.cpScrub ch n a b) (fun _ c => do
    let (wa, c) ← c.readS a
    let (d, c) ← c.readS b
    let k := descBeats d
    let _ ← c.descOk d plainDesc 128
    let _ ← c.need (k ≤ 512) .range
    let w ← c.windowCheck wa (64 * k) fun w => w.rd && w.wr && w.kind == 1
    let _ ← c.bufferCheck true [(descSpad d, 128)]
    let empty : BeatData := { bits := 0, bad := false }
    let record := (upto 2).map fun j =>
      ({ w := none, sp := descSpad d + 64 * j, data := some empty, pa := none, state := .waiting } : Beat)
    let beats := c.newBeats w 0 k
    let c ← c.issueCopy c.cPipe n.toNat .scrub none (beats ++ record) none
    .ok { c with a := c.a.reserveBeats c.kindOf c.now beats }) s

/-- The types `cp.amo` takes (R282): INT32, BF16, FP32, FP64. -/
def amoType (t : Nat) : Bool := t == 3 || t == 8 || t == 9 || t == 10

/-- R282: a held reduction; the window is an HBM or a peer window with AMO = 1. RANGE for a LEN above 1023 is the model's choice
(log 121). -/
def execCpAmo (ch : Bool) (n : BitVec 3) (a b : Src) (s : State) : Res :=
  issue (.cpAmo ch n a b) (fun _ c => do
    let (wa, c) ← c.readS a
    let (d, c) ← c.readS b
    let k := descBeats d
    let op := fld d 42 40
    let t := fld d 39 36
    let _ ← c.descOk d (plainDesc + ones 42 36) (64 * k)
    let _ ← c.need (k ≤ 1024 && op ≤ 5 && amoType t) .range
    let w ← c.windowCheck wa (64 * k) fun w => w.amo && w.kind != 2
    c.issuePut n (.amo (BitVec.ofNat 3 op) (BitVec.ofNat 4 t)) w (descSpad d) k) s

/-- R284: at most four outstanding fences in a queue; a fifth stops the core before its bundle. A copy of an earlier word of the same
bundle counts as issued before it, the model's choice (log 120). -/
def execCpFence (ch : Bool) (m : BitVec 8) (s : State) : Res :=
  issue (.cpFence ch m) (fun _ c => do
    let _ ← c.need (!c.stuckIn m) .range
    let live := c.a.fences.filter c.fenceOpen
    if m == 0 then .ok c
    else if (upto 8).any fun q => m.getLsbD q && 4 ≤ (live.filter fun f => f.mask.getLsbD q).length then
      .ok { c with cx := { c.cx with held := true } }
    else .ok { c with a := { c.a with fences := live ++ [{ mask := m, pos := c.nextId }] } }) s

/-- R284: stop until the copies of the named queues are settled; then the fault of the earliest failed one, with its first
failing address (R270). A copy of an earlier word of the same bundle counts as issued before it, the model's choice (log 120). -/
def execCpWait (ch : Bool) (m : BitVec 8) (s : State) : Res :=
  issue (.cpWait ch m) (fun _ c => do
    let _ ← c.need (!c.stuckIn m) .range
    let mine := c.copies.filter fun k => inMask m k.q
    if mine.all Copy.waited then
      match mine.findSome? fun k => match k.state with | .failed code addr => some (code, addr) | _ => none with
      | some (code, addr) => .error (Trap.at_ code addr.toNat)
      | none => .ok c
    else .ok { c with cx := { c.cx with held := true } }) s

/-- R285: QWPn as it physically stands. -/
def execCpWp (ch : Bool) (d : Port) (n : BitVec 8) (s : State) : Res :=
  issue (.cpWp ch d n) (fun _ c =>
    .ok (c.deliver c.cPipe (some c.cPipe.latch) d (Val.ofNat (SMap.get 0 c.qwp n.toNat)) 1)) s

/-- R286: bind or unbind a queue from issue LT + 1. -/
def execCpBind (ch : Bool) (n : BitVec 3) (a : Src) (s : State) : Res :=
  issue (.cpBind ch n a) (fun _ c => do
    let (ctl, c) ← c.readS a
    let _ ← c.need (within ctl (ones 63 63 + ones 22 4)) .range
    let b := if fld ctl 63 63 == 1 then none else some (16 * fld ctl 22 4)
    .ok ((c.later c.cPipe (c.now + 1) none (.bind n.toNat b)).retireAt c.now)) s

/-- R287 -/
def execCpInv (ch : Bool) (l : Bool) (w : BitVec 6) (s : State) : Res :=
  issue (.cpInv ch l w) (fun _ c => .ok { c with tlb := c.tlb.filter fun t => !l && t.w != w.toNat }) s

end Sys2Proof.Machine
end

