-- ==== Sys2Proof/Machine/Preempt.lean ====
section
/-! DEFINITION. Pre-emption and resume (R394-R398, R431), and what a scan move shares with them (R432). -/
namespace Sys2Proof.Machine

/-! ## Freezing and saving -/

/-- A PREEMPT that is not finished and names a kernel. -/
def State.preempts (s : State) (k : Kernel) : Bool :=
  (upto 32).any fun n => (s.queue n).started.any fun c => c.opc == 0x0C && !c.finished && cmdFld c.words 1 31 0 == k.cid

/-- Every core of a kernel stops before its next bundle (R394). -/
def State.freezeAll (s : State) (k : Kernel) : State :=
  (s.freezeKernel k .frozen).setKernel { k with state := .frozen }

/-- R431: freezes a kernel that runs, of the queue's context; a kernel frozen for a scan move counts as running. -/
def execPreempt (q : Nat) (s : State) : Res :=
  s.startHead 0x0C q fun ws i t =>
    let mine (k : Kernel) : Bool := k.cid == cmdFld ws 1 31 0 && k.ctx == (t.queue q).ctx
    match s.kernels.find? mine with
    | some k =>
      let runs := k.state == .running || (k.state == .frozen && !s.preempts k)
      if runs && cmdFld ws 2 38 0 + k.n * 2 ^ 24 ≤ hbmSize then t.freezeAll k else t.finishStatus q i 1
    | none => t.finishStatus q i 1

/-- Whether a copy lets its frozen kernel be saved or moved (R395, R396): reads stop at a beat; what is released runs to its end, but for
a firing still to complete, a payload that waits in the front-end, a word for the front-end that has not left, and what cannot go on
before the core resumes: a write that waits for a read or for its operands, and the beats of one that do (log 122). -/
def Kernel.copyRests (k : Kernel) (c : Core) (h : Copy) : Bool :=
  h.settled || h.isRead || (h.state == .held && !(c.canStart h && c.operandsHere h)) ||
  match h.op with
  | .clFire _ => true
  | .clBase .. => h.state == .held
  | .pkSnd .. => k.held.any fun p => p.src == some (c.lcore, h.id)
  | _ => h.isWrite && h.state == .started && h.beats.all fun b =>
      b.state == .finished || (b.state == .waiting && (b.data.isNone || !c.blockClear h b))

/-- Whether a frozen kernel has come to rest (R395, R396): no trap waits for the front-end, its writes have ended, no packet of
its is on the network but what has been rung at the doorbell. -/
def State.atRest (s : State) (k : Kernel) : Bool :=
  k.state == .frozen &&
  ((s.placed k).all fun c =>
    (match c.run with | .frozen | .debug _ | .halting _ | .halted _ => true | _ => false) && c.copies.all (k.copyRests c)) &&
  s.net.all fun p => p.outlives k

/-- What an unplaced core keeps. -/
def Core.vacate (c : Core) : Core := c.physical .reset

/-- The bytes of a context area: free values, since the spec gives no layout (R397). -/
def contextBytes (fresh : Nat) : List Byte := (upto (2 ^ 24)).map fun i => Config.contextByte (fresh * 2 ^ 24 + i)

/-- Save the contexts of a kernel at an area under its context and free its pairs (R397, R431). -/
def State.saveKernel (s : State) (k : Kernel) (area : Nat) : State :=
  let mine := k.place.take k.n
  let context := (upto k.n).foldl (fun m l => match mine[l]? with
    | some n => SMap.set none m l (some (s.core n))
    | none => m) []
  let s := (upto k.n).foldl (fun s l =>
    let bs := contextBytes s.fresh
    let s := (s.crossRange (k.dies.getD l 0) (area + 2 ^ 24 * l) bs false).hbmWrite (s.keyOf k.ctx) (area + 2 ^ 24 * l) bs
    { s with fresh := s.fresh + 1 }) s
  let s := k.place.foldl (fun s n => s.modCore n Core.vacate) s
  s.setKernel { k with state := .saved area, place := [], context := context }

/-- R397: every core has saved its context, and the PREEMPT of the queue finishes; a context area behind a link that is DOWN waits
(R320, log 100). -/
def execContextSaveComplete (q : Nat) (s : State) : Res :=
  let named (c : Cmd) : Option Kernel :=
    if c.opc == 0x0C && !c.finished then s.kernels.find? fun k => k.cid == cmdFld c.words 1 31 0 && s.atRest k else none
  match (s.queue q).started.findSome? fun c => (named c).map fun k => (c, k) with
  | some (c, k) =>
    eventIf s (s.areasReach k (cmdFld c.words 2 38 0)) ((s.saveKernel k (cmdFld c.words 2 38 0)).finishStatus q c.index 0)
  | none => notNow s

/-! ## Resume (R398) -/

/-- A core restarts at its freeze LT; its instruction and translation caches are empty (R393, R397). -/
def Core.thaw (c : Core) : Core :=
  { c with run := if c.run == .frozen then .running else c.run, freezes := false, icache := [], refetch := [], tlb := []
           pairs := [], ahead := none, absent := [] }

/-- A payload that was held is written at its core, or is on its way again where its landing is deferred (R361, R396). -/
def State.landHeld (s : State) (p : Packet) (n a : Nat) (wide : Bool) (v : Val) (bar : Option Nat) : State :=
  let c := s.core n
  if c.a.lt < c.pkLandingLt a wide then
    let s := s.setCore n (match bar with
      | some b => { c with held := c.held.erase { src := .remote, a := b, u := .arrive 1 } }
      | none => c)
    { s with net := s.net ++ [p] }
  else s.deliverPk p n a wide v bar true

/-- Traffic that waited for cores that no longer stand still is applied, payloads first (R396). -/
def State.applyTraffic (s : State) (k : Kernel) : State :=
  let stands (l : Nat) : Bool := match k.phys? l with | some n => (s.core n).still | none => true
  let due := k.held.filter fun p => !stands p.dst
  let s := s.setKernel { k with held := k.held.filter fun p => stands p.dst }
  let s := due.foldl (fun s p => match p.kind, k.phys? p.dst with
    | .pk a wide v bar _ _, some n => s.landHeld p n a wide v bar
    | _, _ => s) s
  (k.place.take k.n).foldl (fun s n => s.modCore n fun c => if c.still then c else c.applyHeld) s

/-- The cores of a kernel restart. -/
def State.thawKernel (s : State) (k : Kernel) : State :=
  let k := { k with state := .running }
  let s := (s.setKernel k)
  let s := (k.place.take k.n).foldl (fun s n => s.modCore n Core.thaw) s
  s.applyTraffic k

/-- A core comes to a physical core of its die. -/
def State.settle (s : State) (n : Nat) (c : Core) : State :=
  let d := (s.core n).physical { c with die := dieOf n, passno := BitVec.ofNat 32 (SMap.get 0 s.passes (pairOf n)) }
  s.setCore n { d with nextId := c.nextId }

/-- The cores of a saved kernel read their context areas, of those beside the other die over the link (R318, R398). -/
def State.readAreas (s : State) (k : Kernel) (area : Nat) : State :=
  (upto k.n).foldl (fun s l =>
    let a := area + 2 ^ 24 * l
    let die := k.dies.getD l 0
    if farFrom die a (2 ^ 24) then s.crossRange die a (s.hbmBytes (s.keyOf k.ctx) a (2 ^ 24)) true else s) s

/-- Restore the contexts of a saved kernel on some cores and restart it (R398). -/
def State.resumeKernel (s : State) (k : Kernel) (area : Nat) (place : List Nat) : State :=
  let s := (s.readAreas k area).takePairs k.ctx place
  let s := (upto k.n).foldl (fun s l => match SMap.get none k.context l, place[l]? with
    | some c, some n => s.settle n c
    | _, _ => s) s
  let pairs := (place.map pairOf).eraseDups
  s.thawKernel { k with place := place, context := [], since := s.phys, used := k.used ++ pairs.filter fun p => !k.used.contains p }

/-- R398, R431: a kernel saved at the same area comes back on free pairs of its dies, and the RESUME finishes. -/
def execResume (q : Nat) (s : State) : Res :=
  s.startHead 0x0D q fun ws i t =>
    match s.savedKernel q ws with
    | none => t.finishStatus q i 1
    | some k => match s.placement k.dies with
      | some place => (t.resumeKernel k (cmdFld ws 2 38 0) place).finishStatus q i 0
      | none => t.finishStatus q i 1

end Sys2Proof.Machine
end

