-- ==== Sys2Proof/Machine/Registers.lean ====
section
/-! DEFINITION. The registers of BAR 0 (R413-R418, R434, R441, R453), the doorbell (R417) and BAR 4 (R418). -/
namespace Sys2Proof.Machine

/-! ## QCFG (R414, R415, R441) -/

/-- The fields of QCFG other than EN. -/
def Queue.configure (q : Queue) (v : W64) : Queue :=
  { q with
    vec := BitVec.ofNat 8 (fld v 47 40), ctx := fld v 31 16, log2n := fld v 12 8, pwait := v.getLsbD 5, hold := v.getLsbD 4
    confirm := v.getLsbD 3, prio := fld v 2 1 }

/-- Whether a write of EN = 1 to queue n takes effect (R415, R441): everything it has started is finished, the firings of its
plans among it (R336). -/
def State.mayEnable (s : State) (n : Nat) (q : Queue) : Bool :=
  fld q.base 38 0 % 4096 == 0 && q.comp.toNat % 4096 == 0 && 4 ≤ q.log2n && q.log2n ≤ 20 && q.allDone && !s.firingOn n &&
  (q.ctx == 0 || (s.tdi == .run && !s.stopping))

/-- EN changes from 0 to 1: the count of commands, QHEAD and QFINAL start again at zero (R415). -/
def Queue.enable (q : Queue) : Queue :=
  { q with
    en := true, tail := 0, head := 0, err := false, stopped := none, started := [], pred := none, ready := none, starved := false
    pending := q.pending.map fun p => { p with past := true }
    fires := q.fires.map fun f => { f with tail := 0 } }

/-- R415: a write of QCFG with EN = 1. -/
def execQueueEnable (q : Nat) (v : W64) (tee : Bool) (s : State) : Res :=
  if 32 ≤ q || !v.getLsbD 0 then notNow s
  else s.mmioWrite tee fun s =>
    let x := s.queue q
    if x.en then s
    else
      let x := x.configure v
      (s.setQueue q (if s.mayEnable q x then x.enable else x)).noteReady

/-- R415: a write of QCFG with EN = 0: the queue starts nothing more; a queue that is not enabled takes the other fields. -/
def execQueueDisable (q : Nat) (v : W64) (tee : Bool) (s : State) : Res :=
  if 32 ≤ q || v.getLsbD 0 then notNow s
  else s.mmioWrite tee fun s =>
    let x := s.queue q
    s.setQueue q (if x.en then x.stop else x.configure v)

/-! ## QTAIL and the doorbell (R416, R417) -/

/-- A trigger of queue n (R416): a new tail, or ERR; ignored while the queue is not enabled or has stopped. Bits [63:32] are
ignored (R8). -/
def State.writeTail (s : State) (n : Nat) (v : W64) : State :=
  let q := s.queue n
  if !q.en || q.err then s
  else if fld v 31 0 < q.tail || q.final_ + 2 ^ q.log2n < fld v 31 0 then s.setQueue n { q with err := true }
  else ((s.setQueue n { q with tail := fld v 31 0 }).reachHead n).noteReady

/-- R416: only an 8-byte write is accepted. -/
def execQtailWrite (q width : Nat) (v : W64) (tee : Bool) (s : State) : Res :=
  if 32 ≤ q then notNow s
  else s.mmioWrite tee fun s => if width == 8 then s.writeTail q v else s

/-- R417: a 64-byte write of a kernel in the doorbell page rings for a queue of its context; others are discarded. One of a core on die 1
waits while the die-to-die link is DOWN (R320). -/
def execDoorbellWrite (k : Nat) (s : State) : Res :=
  match s.net[k]? with
  | some p => match p.kind with
    | .doorbell q v ctx _ =>
      let t := s.dropPacket k
      eventIf s (s.packetPasses p) (if ctx == (t.queue q).ctx then t.writeTail q v else t)
    | _ => notNow s
  | none => notNow s

/-! ## BAR 4 (R418, R442, R447) -/

/-- AP4BASE as the device uses it: bits below the BAR size are zero (R418). -/
def State.aperture (s : State) : Nat := fld s.ap4base 38 0 / 2 ^ s.bar4 * 2 ^ s.bar4

/-- R418: a write that is no multiple of the BAR size is ignored. -/
def execAp4baseWrite (v : W64) (tee : Bool) (s : State) : Res :=
  s.mmioWrite tee fun s =>
    if fld v 38 0 % 2 ^ s.bar4 == 0 then { s with ap4base := BitVec.ofNat 64 (fld v 38 0) } else s

/-- An access of 1, 2, 4 or 8 bytes in its place. -/
def accessOk (off width : Nat) : Bool := (width == 1 || width == 2 || width == 4 || width == 8) && off % width == 0

/-- R418: a host access reaches HBM under context 0: beyond 2^39 and until a zero-fill completes it is dropped and reads zero, in
ERROR it is dropped and reads all ones. -/
def execBar4Access (off width : Nat) (wr : Option W64) (s : State) : Res :=
  let a := s.aperture + off
  let gone := hbmSize < a + width || s.zeroFill
  let answer (s : State) (v : W64) : Res := .next { s with outs := s.outs ++ [.data v] }
  if !s.serving || !accessOk off width || 2 ^ s.bar4 ≤ off then notNow s
  else if s.tdi == .error then
    match wr with
    | none => answer s (BitVec.ofNat 64 (2 ^ (8 * width) - 1))
    | some _ => .next s
  else match wr with
    | none =>
      if gone then answer s 0
      else
        let (bs, s) := s.contextRead none a width
        answer s (BitVec.ofNat 64 (ofBytes bs))
    | some v =>
      if gone then .next s
      else if s.writeRoom a then .next ((s.hbmWrite none a (toBytes width v.toNat)).enqueue a)
      else notNow s

/-- What a configuration write that R442 guards does: applied, an entry to ERROR, or dropped. -/
def State.guardedConfig (s : State) (f : State → State) : State :=
  match s.tdi with
  | .configUnlocked => f s
  | .error => s
  | _ => s.enterError

/-- R418: the size of BAR 4, a power of two from 1 GiB to 512 GiB. -/
def execBarResize (log2 : Nat) (s : State) : Res :=
  if !s.serving then notNow s
  else .next (s.guardedConfig fun s => if 30 ≤ log2 && log2 ≤ 39 then { s with bar4 := log2 } else s)

/-! ## PKGNUM (R453) -/

/-- A write of the package number's bits; `none` where it is ignored. -/
def State.setPackage (s : State) (v : Nat) : Option State :=
  if bitsOf v 10 1 == 0 then none
  else if !s.pkgset then some { s with pkgset := true, pkgnum := BitVec.ofNat 10 v }
  else if s.pkgnum.toNat == v % 1024 then some s
  else none

/-- R453: by the host. -/
def execPkgnumWrite (v : W64) (tee : Bool) (s : State) : Res :=
  s.mmioWrite tee fun s => (s.setPackage v.toNat).getD s

/-- R453: by the side band, with its completion; in recovery nothing but updates and tokens is accepted (R438), and a scrapped device
answers nothing (R445). -/
def execSetPkgnum (payload : BitVec 16) (s : State) : Res :=
  if s.lifecycle == .scrapped then notNow s
  else match if s.recovery then none else s.setPackage payload.toNat with
  | some s => .next { s with outs := s.outs ++ [.answer true] }
  | none => .next { s with outs := s.outs ++ [.answer false] }

/-! ## The other registers (R413, R414, R436) -/

/-- A 64-bit register after a write of `width` bytes at byte `at_` of it. -/
def mergeBytes (old v : W64) (at_ width : Nat) : W64 :=
  BitVec.ofNat 64 (ofBytes ((toBytes 8 old.toNat).take at_ ++ toBytes width v.toNat ++ (toBytes 8 old.toNat).drop (at_ + width)))

/-- Offsets of BAR 0 whose writes have rows of their own: QCFG, QTAIL, PKGNUM, AP4BASE, DBGCMD. -/
def ownRow (off : Nat) : Bool :=
  let r := off - off % 8
  (r < 0x2000 && (r % 256 == 0 || r % 256 == 0x18)) || r == 0x2008 || r == 0x2010 || r == 0x10000

/-- R413: a write to a register without a row of its own: QBASE and QCOMP of a queue that is not enabled, DBGSEL and the debug
page's data buffer; every other is ignored. -/
def execRegisterWrite (off width : Nat) (v : W64) (tee : Bool) (s : State) : Res :=
  if !accessOk off width || ownRow off then notNow s
  else s.mmioWrite tee fun s =>
    let put (old : W64) : W64 := mergeBytes old v (off % 8) width
    if off < 0x2000 then
      let n := off / 256
      let q := s.queue n
      if q.en then s
      else if off % 256 / 8 == 1 then s.setQueue n { q with base := BitVec.ofNat 64 (fld (put q.base) 38 0) }
      else if off % 256 / 8 == 2 then s.setQueue n { q with comp := put q.comp }
      else s
    else if off / 8 == 0x10008 / 8 then { s with dbgsel := put s.dbgsel }
    else if 0x10100 ≤ off && off < 0x10200 then { s with dbgbuf := writeBytes s.dbgbuf (off - 0x10100) (toBytes width v.toNat) }
    else s

/-! ## What a read returns (R413, R414, R416, R434, R442) -/

/-- QCFG. -/
def Queue.config (q : Queue) : W64 :=
  let flag (b : Bool) (n : Nat) : Nat := if b then 1 <<< n else 0
  BitVec.ofNat 64 (flag q.en 0 + q.prio <<< 1 + flag q.confirm 3 + flag q.hold 4 + flag q.pwait 5 + q.log2n <<< 8 + q.ctx <<< 16 +
    q.vec.toNat <<< 40)

/-- QHEAD.DONE and QFINAL as they are read: of a stopped queue, those it stopped with (R415, R416). -/
def Queue.progress (q : Queue) : Nat × Nat := q.stopped.getD (q.done_, q.final_)

/-- QHEAD (R416). -/
def Queue.headWord (q : Queue) : W64 :=
  BitVec.ofNat 64 ((if q.err then 1 <<< 63 else 0) + (q.progress.1 % 2 ^ 31) <<< 32 + q.head % 2 ^ 32)

/-- FESTAT (R434, R452). -/
def State.festat (s : State) : W64 :=
  let flag (b : Bool) (n : Nat) : Nat := if b then 1 <<< n else 0
  BitVec.ofNat 64 (flag s.deimosActive 0 + flag s.standby 2 + flag s.ready 3)

/-- DBGSTAT (R436): a STEP runs until its bundle issues; result code; a session is open. -/
def State.debugStatus (s : State) : W64 :=
  let runs := s.cores.any fun e => e.2.run == .debug true
  BitVec.ofNat 64 (fld s.dbgstat 8 1 <<< 1 + (if runs then 1 else 0) + if s.kernels.any Kernel.session then 1 <<< 9 else 0)

/-- The 64-bit register at an offset of BAR 0; any other offset reads zero (R413). -/
def State.register (s : State) (off : Nat) : W64 :=
  if off < 0x2000 then
    let q := s.queue (off / 256)
    match off % 256 with
    | 0x0 => q.config
    | 0x8 => q.base
    | 0x10 => q.comp
    | 0x18 => BitVec.ofNat 64 q.tail
    | 0x20 => q.headWord
    | 0x28 => BitVec.ofNat 64 (q.progress.2 % 2 ^ 32)
    | _ => 0
  else match off with
    | 0x2000 => s.festat
    | 0x2008 => BitVec.ofNat 64 (s.pkgnum.toNat + if s.pkgset then 1024 else 0)
    | 0x2010 => BitVec.ofNat 64 s.aperture
    | 0x10008 => s.dbgsel
    | 0x10010 => s.debugStatus
    | _ => if 0x10100 ≤ off && off < 0x10200 then BitVec.ofNat 64 (readNat s.dbgbuf (off - 0x10100) 8) else 0

/-- What a read of BAR 0, or for `bar2` of BAR 2, returns in each TDI state (R442): served, refused, or all ones. What BAR 2 returns,
whose words are write only (R334), is a free value. -/
def State.mmioRead (s : State) (bar2 : Bool) (off : Nat) (tee : Bool) : Output :=
  if s.tdi.serves tee then .data (if bar2 then Config.triggerPage s.fresh else s.register off)
  else if s.tdi == .configUnlocked then .answer false
  else .data (BitVec.allOnes 64)

/-- A host read of eight bytes of BAR 0 or BAR 2 (R413, R442); nothing answers in recovery (R438). -/
def State.hostRead (s : State) (bar2 : Bool) (off : Nat) (tee : Bool) : Res :=
  eventIf s s.serving { s with outs := s.outs ++ [s.mmioRead bar2 off tee], fresh := s.fresh + 1 }

end Sys2Proof.Machine
end

