-- ==== Sys2Proof/Machine/Debug.lean ====
section
/-! DEFINITION. The debug page (R114, R399-R401, R436). The index within a state space has no layout in the spec: the model's is
that of log 18. -/
namespace Sys2Proof.Machine

/-! ## Reading state (R400) -/

/-- A value's 256 bytes. -/
def Val.bytes (v : Val) : List Byte := toBytes 256 v.bits.toNat

/-- The clean value of 256 bytes. -/
def valOfBytes (bs : List Byte) : Val := Val.ofNat (ofBytes bs)

/-- 256 bytes of a table's elements of `w` bytes from an element upwards. -/
def tableBytes (w first : Nat) (f : Nat → Nat) : List Byte := (rangeFrom first (256 / w)).flatMap fun i => toBytes w (f i)

/-- The elements of `w` bytes of a buffer with their numbers from `first`. -/
def bufferElems (w first : Nat) (bs : List Byte) : List (Nat × Nat) :=
  (upto (256 / w)).map fun i => (first + i, ofBytes ((bs.drop (w * i)).take w))

/-- A kind as a number. -/
def Kind.num (k : Kind) : Nat := (if k.elem then 1 else 0) + if k.scale then 2 else 0

def kindOfNum (n : Nat) : Kind := { elem := n % 2 == 1, scale := n / 2 % 2 == 1 }

/-- The sixteen bytes of a barrier object as a value (R294). -/
def objectVal (w0 w1 : W64) : Val := Val.ofNat (w0.toNat + w1.toNat <<< 64)

/-- The value of a replay-buffer entry, where it has one (R395). An entry of more than 256 bytes has one for each 256 of them: each
accumulator row of an update, each half of an `rgath` row of 512 bytes (R253). -/
def Act.value (sub : Nat) : Act → Option Val
  | .land _ _ v => some v
  | .flags f => some (Val.ofNat f.toNat)
  | .setP b => some (Val.ofNat (if b then 1 else 0))
  | .setM m => some (Val.ofNat m.toNat)
  | .sysWrite _ v => some (Val.ofNat v.toNat)
  | .setMxmode v => some (Val.ofNat v.toNat)
  | .setAmpmode b => some (Val.ofNat (if b then 1 else 0))
  | .loopFmtsel v => some (Val.ofNat v.toNat)
  | .write _ ws => if 64 * sub < ws.length then some (Val.ofWords ((ws.drop (64 * sub)).take 64)) else none
  | .ldbs _ _ v => some v
  | .lds _ _ v => some v
  | .arow _ v => some v
  | .accUpdate _ _ _ rows | .accSet _ rows => rows[sub]?
  | .accClear _ n => if sub < n then some (Val.ofNat 0) else none
  | .accWrite _ v => some v
  | .barInit _ count => some (objectVal (BarObj.init count).w0 (BarObj.init count).w1)
  | .barSet _ _ w0 w1 => some (objectVal w0 w1)
  | .qrTab _ _ v => some v
  | .qrSeed _ _ _ v => some v
  | _ => none

/-- A replay-buffer entry with its value changed; `none` for a continuation entry (R400). -/
def Act.withValue (sub : Nat) (v : Val) : Act → Option Act
  | .land d l _ => some (.land d l v)
  | .flags _ => some (.flags (v.bits.setWidth 5))
  | .setP _ => some (.setP (v.bits.getLsbD 0))
  | .setM _ => some (.setM (v.bits.setWidth 256))
  | .sysWrite x _ => some (.sysWrite x v.scalar)
  | .setMxmode _ => some (.setMxmode (v.bits.setWidth 2))
  | .setAmpmode _ => some (.setAmpmode (v.bits.getLsbD 0))
  | .loopFmtsel _ => some (.loopFmtsel (v.bits.setWidth 4))
  | .write a ws =>
    let at_ := 64 * sub
    if at_ < ws.length then some (.write a (ws.take at_ ++ v.words (min 64 (ws.length - at_)) ++ ws.drop (at_ + 64))) else none
  | .ldbs f n _ => some (.ldbs f n v)
  | .lds sd g _ => some (.lds sd g v)
  | .arow q _ => some (.arow q v)
  | .accUpdate a o k rows => if sub < rows.length then some (.accUpdate a o k (rows.set sub v)) else none
  | .accSet a rows => if sub < rows.length then some (.accSet a (rows.set sub v)) else none
  | .accClear a n => if sub < n then some (.accSet a ((List.replicate n (Val.ofNat 0)).set sub v)) else none
  | .accWrite r _ => some (.accWrite r v)
  | .barInit a count | .barSet a count _ _ => some (.barSet a count (v.bits.setWidth 64) ((v.bits >>> 64).setWidth 64))
  | .qrTab d t _ => some (.qrTab d t v)
  | .qrSeed d m n _ => some (.qrSeed d m n v)
  | _ => none

/-- What a replay-buffer entry is for: its LT relative to the freeze LT, its destination port plus one, its word (R395). -/
def Core.replayHeader (c : Core) (i : Item) : List Byte :=
  toBytes 8 (i.lt - c.a.next) ++ toBytes 8 (match i.dst with | some p => Port.num p + 1 | none => 0) ++ toBytes 8 i.word

/-- A loop-stack entry in seven 8-byte fields. -/
def LoopEntry.bytes (e : LoopEntry) : List Byte :=
  let (has, b, i, v) : Nat × Nat × Nat × Nat := match e.fmt with
    | some (b, i, v) => (1, b.toNat, i, v.toNat)
    | none => (0, 0, 0, 0)
  [e.start, e.last, e.count, has + (if e.fresh then 2 else 0), b, i, v].flatMap (toBytes 8)

def loopOfBytes (bs : List Byte) : LoopEntry :=
  let n (k : Nat) : Nat := ofBytes ((bs.drop (8 * k)).take 8)
  { start := n 0, last := n 1, count := n 2, fmt := if n 3 % 2 == 1 then some (BitVec.ofNat 4 (n 4), n 5, BitVec.ofNat 4 (n 6)) else none
    fresh := n 3 / 2 % 2 == 1 }

/-- The state that DBGSEL selects, as bytes (R400, R436): space, part [55:48] and index [47:0] of it. -/
def Core.debugGet (c : Core) (n space part idx : Nat) : Option (List Byte) :=
  match space, part with
  | 0, 0 => ((c.a.landed (Port.ofCode (BitVec.ofNat 7 idx)))[idx / 256]?).map Val.bytes
  | 1, 0 => (c.a.inflight[idx % 2 ^ 32]?).bind fun i => (i.act.value (idx / 2 ^ 32)).map Val.bytes
  | 1, 1 => (c.a.inflight[idx]?).map c.replayHeader
  | 2, 0 =>
    if idx < 8 then some (SMap.get .zero c.a.latches idx).bytes
    else if idx == 8 then some (toBytes 1 (if c.a.sys.p then 1 else 0))
    else if idx == 9 then some (toBytes 32 c.a.m.toNat)
    else none
  | 2, 1 => ((c.a.landed .lk)[idx]?).map Val.bytes
  | 2, 2 => (c.a.loops[idx]?).map LoopEntry.bytes
  | 3, 0 => if idx + 256 ≤ spadSize then some (readBytes c.spad idx 256) else none
  | 3, 1 => if idx < 16384 then some (toBytes 256 (SMap.get AccRow.zero c.mx.acc idx).bits.toNat) else none
  | 3, 2 => some (tableBytes 1 idx fun r => (SMap.get AccRow.zero c.mx.acc r).k.num)
  | 3, 3 => some (toBytes 256 (bitsOf (SMap.get MacroRow.zero c.mx.rows (idx / 8)).bits.toNat (2048 * (idx % 8)) 2048))
  | 3, 4 => some (tableBytes 1 idx fun r => (SMap.get MacroRow.zero c.mx.rows r).k.num)
  | 3, 5 => some (tableBytes 1 idx fun k => (SMap.get 0 c.mx.aScale k).toNat)
  | 3, 6 => some (tableBytes 2 idx fun k => (SMap.get 0 c.mx.aBand k).toNat)
  | 3, 7 => some (tableBytes 1 idx fun k => (SMap.get 0 c.mx.bScale k).toNat)
  | 3, 8 => some (tableBytes 2 idx fun k => (SMap.get 0 c.mx.bBand k).toNat)
  | 3, 9 => some (tableBytes 4 idx fun k => SMap.get 0 c.mx.list k)
  | 3, 10 => some (tableBytes 1 idx fun k => (SMap.get Kind.clean c.spadBad k).num)
  | 4, 0 => some (tableBytes 4 idx fun k => (SMap.get 0 c.seq.v k).toNat)
  | 4, 1 => some (tableBytes 1 idx fun d => if c.seq.loaded.contains d then 1 else 0)
  | 4, 2 => some (tableBytes 1 idx fun d => SMap.get 0 c.seq.mode d)
  | 4, 3 => some (tableBytes 4 idx fun d => (SMap.get 0 c.seq.seed d).toNat)
  | 4, 4 => some (toBytes 4 c.a.sys.seqbase.toNat)
  | 5, 0 => some (toBytes 8 (c.readSys n idx).toNat)
  | 6, 0 => if idx == 0 then some (toBytes 8 c.a.pc) else if idx == 1 then some (toBytes 8 c.now) else none
  | 6, 1 => some (toBytes 8 (c.readSys n idx).toNat)
  | 6, 2 => some (toBytes 8 (if idx == 0 then c.a.sys.amp0.toNat else c.a.sys.amp1.toNat))
  | 6, 3 => some (toBytes 8 (SMap.get 0 (if idx % 2 == 0 then c.win0 else c.win1) (idx / 2 % 64)).toNat)
  | _, _ => none

/-! ## Editing state (R400) -/

/-- Change the system registers as `rdsys` reads them at the LT at which the core stands (R411). -/
def Core.editBefore (c : Core) (f : SysRegs → SysRegs) : Core :=
  { c with a := { c.a with before := (c.a.before.1, f c.a.before.2) } }

/-- Change the system registers as the core reads them from now on. -/
def Core.editSys (c : Core) (f : SysRegs → SysRegs) : Core :=
  { c with a := { c.a with sys := f c.a.sys } }.editBefore f

/-- An edit of a system register: those that `wrsys` writes, DBGCTL and the reporting registers (R400). Reserved bits are
ignored (R8). -/
def Core.debugSys (c : Core) (x : Nat) (v : W64) : Option Core :=
  match x with
  | 0x05 => some { c with a := { c.a with trapcode := v.setWidth 8 } }
  | 0x06 => some { c with a := { c.a with trappc := v.toNat % 2 ^ 48 } }
  | 0x07 => some { c with a := { c.a with faultaddr := v } }
  | 0x11 => some { c with a := { c.a with traplt := v.toNat % 2 ^ 48 } }
  | 0x0E => some { c with dbgctl := v.setWidth 3 }
  | _ => (sysMask x).map fun m =>
      let v := v &&& BitVec.ofNat 64 m
      (c.sysSet x v).editBefore fun r => r.put x v

/-- Write the elements of a buffer to a table. -/
def editTable [DecidableEq α] (d : α) (m : SMap α) (es : List (Nat × α)) : SMap α := es.foldl (fun m e => SMap.set d m e.1 e.2) m

/-- Words edited are clean as written (R240, R400): their marks go from the table of uncorrectable ones. -/
def clearMarks (bad keys : List Nat) : List Nat := bad.filter fun k => !keys.contains k

/-- Fine scales and bands of a side as edited, their words clean. -/
def Matrix.editFine (m : Matrix) (side : Bool) (es : List (Nat × BitVec 8)) : Matrix :=
  let bad := clearMarks m.badScale (es.map fun e => fineWordKey side e.1)
  if side then { m with bScale := editTable 0 m.bScale es, badScale := bad } else { m with aScale := editTable 0 m.aScale es, badScale := bad }

def Matrix.editBand (m : Matrix) (side : Bool) (es : List (Nat × BitVec 16)) : Matrix :=
  let bad := clearMarks m.badScale (es.flatMap fun e => [bandKey side (e.1 / 2 * 2), bandKey side (e.1 / 2 * 2 + 1)])
  if side then { m with bBand := editTable 0 m.bBand es, badScale := bad } else { m with aBand := editTable 0 m.aBand es, badScale := bad }

/-- The edit of the state that DBGSEL selects from the data buffer (R400); `none` where it is refused. Bit 55 with space 0
removes an entry. An edit of a dimension's mode alone makes its seed word clean, mode and seed having one check (R371): the model's
choice (log 129). -/
def Core.debugPut (c : Core) (space part idx : Nat) (bs : List Byte) : Option Core :=
  let putA (a : Arch) : Core := { c with a := a }
  let putM (m : Matrix) : Core := { c with mx := m }
  let putS (q : SeqUnit) : Core := { c with seq := q }
  let narrow (w : Nat) (es : List (Nat × Nat)) : List (Nat × BitVec w) := es.map fun e => (e.1, BitVec.ofNat w e.2)
  match space, part with
  | 0, p =>
    let port := Port.ofCode (BitVec.ofNat 7 idx)
    let vs := c.a.landed port
    let e := idx / 256
    if vs.length ≤ e || (p != 0 && p != 0x80) then none
    else some (putA (c.a.setLanded port (if p == 0 then vs.set e (valOfBytes bs) else vs.eraseIdx e)))
  | 1, 0 =>
    let k := idx % 2 ^ 32
    (c.a.inflight[k]?).bind fun i => (i.act.withValue (idx / 2 ^ 32) (valOfBytes bs)).map fun a =>
      putA { c.a with inflight := c.a.inflight.set k { i with act := a } }
  | 2, 0 =>
    if idx < 8 then some (putA { c.a with latches := SMap.set .zero c.a.latches idx (valOfBytes bs) })
    else if idx == 8 then some (c.editSys fun r => { r with p := (ofBytes bs).testBit 0 })
    else if idx == 9 then some (putA { c.a with m := BitVec.ofNat 256 (ofBytes bs) })
    else none
  | 2, 1 =>
    let vs := c.a.landed .lk
    if idx < vs.length then some (putA (c.a.setLanded .lk (vs.set idx (valOfBytes bs)))) else none
  | 2, 2 => if idx < c.a.loops.length then some (putA { c.a with loops := c.a.loops.set idx (loopOfBytes bs) }) else none
  | 3, 0 => if idx + 256 ≤ spadSize then some (c.storeBytes idx bs) else none
  | 3, 1 =>
    if idx < 16384 then
      let r := SMap.get AccRow.zero c.mx.acc idx
      some (putM { c.mx with acc := SMap.set AccRow.zero c.mx.acc idx { r with bits := BitVec.ofNat 2048 (ofBytes bs) } })
    else none
  | 3, 2 =>
    let one (m : SMap AccRow) (e : Nat × Nat) : SMap AccRow :=
      if e.1 < 16384 then SMap.set AccRow.zero m e.1 { SMap.get AccRow.zero m e.1 with k := kindOfNum e.2 } else m
    some (putM { c.mx with acc := (bufferElems 1 idx bs).foldl one c.mx.acc })
  | 3, 3 =>
    if idx < 1024 then
      let r := SMap.get MacroRow.zero c.mx.rows (idx / 8)
      let at_ := 2048 * (idx % 8)
      let bits := r.bits.toNat - (bitsOf r.bits.toNat at_ 2048) <<< at_ + (ofBytes bs) <<< at_
      some (putM { c.mx with rows := SMap.set MacroRow.zero c.mx.rows (idx / 8) { r with bits := BitVec.ofNat 16384 bits } })
    else none
  | 3, 4 =>
    let one (m : SMap MacroRow) (e : Nat × Nat) : SMap MacroRow :=
      if e.1 < 128 then SMap.set MacroRow.zero m e.1 { SMap.get MacroRow.zero m e.1 with k := kindOfNum e.2 } else m
    some (putM { c.mx with rows := (bufferElems 1 idx bs).foldl one c.mx.rows })
  | 3, 5 => some (putM (c.mx.editFine false (narrow 8 (bufferElems 1 idx bs))))
  | 3, 6 => some (putM (c.mx.editBand false (narrow 16 (bufferElems 2 idx bs))))
  | 3, 7 => some (putM (c.mx.editFine true (narrow 8 (bufferElems 1 idx bs))))
  | 3, 8 => some (putM (c.mx.editBand true (narrow 16 (bufferElems 2 idx bs))))
  | 3, 9 => some (putM { c.mx with list := editTable 0 c.mx.list (bufferElems 4 idx bs) })
  | 3, 10 =>
    let es := (bufferElems 1 idx bs).filter fun e => e.1 < spadSize / 4
    some { c with spadBad := editTable Kind.clean c.spadBad (es.map fun e => (e.1, kindOfNum e.2)) }
  | 4, 0 =>
    let es := (bufferElems 4 idx bs).filter fun e => e.1 < 2 ^ 15
    some (putS { c.seq with v := editTable 0 c.seq.v (narrow 32 es), bad := clearMarks c.seq.bad (es.map Prod.fst) })
  | 4, 1 =>
    let es := (bufferElems 1 idx bs).filter fun e => e.1 < 1024
    let named (d : Nat) : Bool := es.any fun e => e.1 == d
    let on := (es.filter fun e => e.2 % 2 == 1).map Prod.fst
    some (putS { c.seq with loaded := (c.seq.loaded.filter fun d => !named d) ++ on })
  | 4, 2 =>
    let es := (bufferElems 1 idx bs).filter fun e => e.1 < 1024
    some (putS { c.seq with mode := editTable 0 c.seq.mode (es.map fun e => (e.1, e.2 % 4)), bad := clearMarks c.seq.bad (es.map fun e => seedKey e.1) })
  | 4, 3 =>
    let es := (bufferElems 4 idx bs).filter fun e => e.1 < 1024
    some (putS { c.seq with seed := editTable 0 c.seq.seed (narrow 32 es), bad := clearMarks c.seq.bad (es.map fun e => seedKey e.1) })
  | 4, 4 => some (c.editSys fun r => { r with seqbase := BitVec.ofNat 32 (ofBytes (bs.take 4)) })
  | 5, 0 => c.debugSys idx (BitVec.ofNat 64 (ofBytes (bs.take 8)))
  | _, _ => none

/-! ## Commands (R399, R436) -/

/-- A debug command is done with a result code (R436). -/
def State.debugDone (s : State) (code : Nat) : State := { s with dbgstat := BitVec.ofNat 64 (code <<< 1) }

/-- Whether a kernel may be debugged (R399). -/
def State.debuggable (s : State) (k : Kernel) : Bool := s.lifecycle != .scrapped && (k.ctx == 0 || s.tdi == .configUnlocked)

/-- A write of DBGCMD with an operation: refused with result 1, or done with result 0; reserved bits are ignored (R8). The row OPEN
also refuses codes that are not listed. `need` says whether an open session is required. A command is a write of BAR 0, so in
CONFIG_LOCKED and ERROR none arrives, for a kernel of context 0 either (R442 beside R399): the model's choice (log 130). -/
def State.debugCommand (s : State) (op : Nat) (v : W64) (tee need : Bool) (f : State → Kernel → Option State) : Res :=
  let code := fld v 3 0
  let listed := 1 ≤ code && code ≤ 8
  if code != op && (listed || op != 1) then notNow s
  else s.mmioWrite tee fun s =>
    let k? := s.kernels.find? fun k => k.cid == fld v 63 32
    match k? with
    | some k =>
      if listed && s.debuggable k && (k.session || !need) then
        match f s k with
        | some s => s.debugDone 0
        | none => s.debugDone 1
      else s.debugDone 1
    | none => s.debugDone 1

/-- The physical cores that a command names: all of the kernel's, or one (R436). -/
def Kernel.named (k : Kernel) (v : W64) : List Nat :=
  if v.getLsbD 16 then k.place.take k.n else if fld v 15 8 < k.n then (k.phys? (fld v 15 8)).toList else []

/-- R436: opens a session of a kernel whose context is that of the queue that launched it. -/
def execDebugOpen (v : W64) (tee : Bool) (s : State) : Res :=
  s.debugCommand 1 v tee false fun s k =>
    if k.ctx == (s.queue k.queue).ctx then some (s.setKernel { k with session := true }) else none

/-- A halted core is released (R399); it stays frozen while its kernel is. A core that was to halt after its rewind does not. -/
def State.debugRelease (s : State) (k : Kernel) (ns : List Nat) : State :=
  let dest : RunState := if k.state == .frozen then .frozen else .running
  let s := ns.foldl (fun s n => s.modCore n fun c => match c.run with
    | .debug _ => { c with run := dest, debugHold := false }
    | _ => { c with debugHold := false }) s
  match s.kernel? (k.queue, k.cid) with
  | some k => s.applyTraffic k
  | none => s

/-- R436: closing a session resumes its halted cores. -/
def execDebugClose (v : W64) (tee : Bool) (s : State) : Res :=
  s.debugCommand 2 v tee true fun s k =>
    some ((s.setKernel { k with session := false }).debugRelease { k with session := false } (k.place.take k.n))

/-- Whether a core can be halted: it has bundles to issue, or may come to rewind its last segment (R389). -/
def RunState.live (r : RunState) : Bool :=
  match r with
  | .running | .frozen | .debug _ | .trapped | .requeued | .halting _ => true
  | _ => false

/-- R399: halts the cores named, each before its next bundle, and drains them (R114); a core whose trap is being handled halts at
its entry bundle (R389). -/
def execDebugHalt (v : W64) (tee : Bool) (s : State) : Res :=
  s.debugCommand 3 v tee true fun s k =>
    let ns := k.named v
    if ns.any fun n => (s.core n).run.live then some (ns.foldl (fun s n => s.freezeCore n (.debug false)) s) else none

/-- Whether a core is halted by the debugger. -/
def State.halted (s : State) (n : Nat) : Bool := (s.core n).run == .debug false

/-- R399: releases halted cores. -/
def execDebugResume (v : W64) (tee : Bool) (s : State) : Res :=
  s.debugCommand 4 v tee true fun s k =>
    let ns := (k.named v).filter fun n => s.halted n || (s.core n).debugHold
    if ns.isEmpty then none else some (s.debugRelease k ns)

/-- R399: halted cores issue one bundle each; what their halt held back takes effect first (R296). -/
def execDebugStep (v : W64) (tee : Bool) (s : State) : Res :=
  s.debugCommand 5 v tee true fun s k =>
    let ns := (k.named v).filter s.halted
    if ns.isEmpty || k.state == .frozen then none
    else some ((ns.foldl (fun s n => s.modCore n fun c => { c with run := .debug true }) s).applyTraffic k)

/-- Whether the debugger holds a core halted: at a bundle, or while it halts (R164, R399). -/
def State.heldHalted (s : State) (n : Nat) : Bool :=
  let c := s.core n
  s.halted n || (c.debugHold && match c.run with | .halting _ => true | _ => false)

/-- The cores that READ, WRITE and CANCEL act on: those named, each of which must be halted, and be able to do as it is asked; where
one is not, the command is refused and none of them does it (R436; log 143). -/
def State.debugTargets (s : State) (k : Kernel) (v : W64) (able : Core → Nat → Bool) : Option (List Nat) :=
  let ns := k.named v
  if !ns.isEmpty && ns.all (fun n => s.heldHalted n && able (s.core n) n) then some ns else none

/-- State space, part and index of DBGSEL (R436). -/
def State.selected (s : State) : Nat × Nat × Nat := (fld s.dbgsel 63 56, fld s.dbgsel 55 48, fld s.dbgsel 47 0)

/-- Each of some cores takes an edit, and the kernel is marked (R401). -/
def State.debugEdit (s : State) (k : Kernel) (ns : List Nat) (edit : Core → Option Core) : State :=
  (ns.foldl (fun s n => s.modCore n fun c => (edit c).getD c) s).setKernel { k with modified := true }

/-- R400: the selected state goes to the data buffer. Of every core of the kernel, one is the last to fill it: which, is a free value. -/
def execDebugRead (v : W64) (tee : Bool) (s : State) : Res :=
  s.debugCommand 6 v tee true fun s k =>
    let (space, part, idx) := s.selected
    (s.debugTargets k v fun c n => (c.debugGet n space part idx).isSome).bind fun ns =>
      let n := ns.getD (Config.lastRead s.fresh % ns.length) 0
      ((s.core n).debugGet n space part idx).map fun bs => { s with dbgbuf := writeBytes s.dbgbuf 0 bs, fresh := s.fresh + 1 }

/-- R400, R401: the selected state is edited from the data buffer, and the kernel is marked. -/
def execDebugWrite (v : W64) (tee : Bool) (s : State) : Res :=
  s.debugCommand 7 v tee true fun s k =>
    let (space, part, idx) := s.selected
    let edit (c : Core) : Option Core := c.debugPut space part idx (readBytes s.dbgbuf 0 256)
    (s.debugTargets k v fun c _ => (edit c).isSome).map fun ns => s.debugEdit k ns edit

/-- A core without a replay-buffer entry (R114), whose queue slot is free again; a gate is no entry. -/
def Core.cancelEntry (c : Core) (e : Nat) : Option Core :=
  match c.a.inflight[e]? with
  | some i => if i.act.isGate then none else some { c with a := { c.a with inflight := c.a.inflight.eraseIdx e } }
  | none => none

/-- R114: a replay-buffer entry is cancelled. -/
def execDebugCancel (v : W64) (tee : Bool) (s : State) : Res :=
  s.debugCommand 8 v tee true fun s k =>
    let edit (c : Core) : Option Core := c.cancelEntry (fld s.dbgsel 55 0)
    (s.debugTargets k v fun c _ => (edit c).isSome).map fun ns => s.debugEdit k ns edit

end Sys2Proof.Machine
end

