-- ==== Sys2Proof/Machine/Scan.lean ====
section
/-! DEFINITION. The silent-error scan (R432, R433), the heartbeat and takeover (R434), live firmware update (R435). -/
namespace Sys2Proof.Machine

/-! ## The scan (R432) -/

/-- The next pair in rotation: the first from `scanNext` that is not retired. -/
def State.nextScan (s : State) : Option Nat :=
  ((rangeFrom s.scanNext (96 - s.scanNext)) ++ upto s.scanNext).find? fun p => !s.retired.contains p

/-- R432: the next pair is taken when it is free. -/
def execScanStart (s : State) : Res :=
  match s.nextScan with
  | some p => eventIf s (s.serving && s.scanning.isNone && s.pairFree p) { s with scanning := some p, scanNext := p }
  | none => notNow s

/-- Move the cores of pair p of a kernel at rest to pair q, and restart the kernel (R398, R432). -/
def State.movePair (s : State) (k : Kernel) (p q : Nat) : State :=
  let dest (n : Nat) : Nat := if pairOf n == p then 2 * q + n % 2 else n
  let mine := (k.place.take k.n).filter fun n => pairOf n == p
  let s := s.takePairs k.ctx [2 * q, 2 * q + 1]
  let s := mine.foldl (fun s n => (s.settle (dest n) (s.core n)).modCore n Core.vacate) s
  s.thawKernel { k with place := k.place.map dest, since := s.phys, used := if k.used.contains q then k.used else k.used ++ [q] }

/-- R432: a pair held for 200 ms while it is next has its kernel frozen; once the kernel is at rest the pair moves to a free one of
the same die. -/
def execScanMove (s : State) : Res :=
  match s.nextScan with
  | none => notNow s
  | some p =>
    match s.kernels.find? fun k => (k.place.take k.n).any fun n => pairOf n == p, (upto 96).find? fun q => s.pairFree q && dieOf (2 * q) == dieOf (2 * p) with
    | some k, some q =>
      if k.state == .running && s.ms 200 ≤ s.phys - Nat.max s.scanSince k.since then .next (s.freezeAll k)
      else if s.atRest k && !s.preempts k then .next (s.movePair k p q)
      else notNow s
    | _, _ => notNow s

/-- A pending record after a pass of pair p (R433): `none` as its second part once it is final, with SUSPECT as its first. A pass
that began before the kernel finished confirms nothing. -/
def Pending.afterPass (x : Pending) (p : Nat) (ok : Bool) : Pending :=
  if ok then (if x.early == some p then { x with early := none } else { x with pairs := x.pairs.erase p })
  else if x.pairs.contains p then { x with suspect := true }
  else x

/-- Whether a pending record is final now. -/
def Pending.settled (x : Pending) : Bool := x.suspect || x.pairs.isEmpty

/-- The record as it is written when it becomes final. -/
def Pending.final (x : Pending) : Record :=
  if x.suspect then { x.record with w0 := x.record.w0 ||| BitVec.ofNat 64 (1 <<< 49) } else x.record

/-- The pending records of queue n after a pass: those that are final are written or rewritten, and their commands finish (R433). -/
def State.confirm (s : State) (n p : Nat) (ok : Bool) : State :=
  let xs := (s.queue n).pending.map fun x => x.afterPass p ok
  let q := s.queue n
  let s := s.setQueue n { q with pending := xs.filter fun x => !x.settled }
  (xs.filter Pending.settled).foldl (fun s x =>
    let s := s.writeRecordAt x.addr n x.index x.final x.irq
    if x.past then s else s.dropCmd n x.index) s

/-- R432, R433: a pass ends: PASSNO of both cores counts it, a pair that fails is retired and reported. -/
def execScanPassComplete (ok : Bool) (s : State) : Res :=
  match s.scanning with
  | none => notNow s
  | some p =>
    let s := { s with
      scanning := none, scanNext := (p + 1) % 96, scanSince := s.phys
      passes := SMap.set 0 s.passes p (SMap.get 0 s.passes p + 1)
      retired := if ok then s.retired else s.retired ++ [p]
      outs := if ok then s.outs else s.outs ++ [Output.pairFailed p] }
    .next (((upto 32).foldl (fun s n => s.confirm n p ok) s).noteReady)

/-! ## The journal (R434) -/

/-- What the journal says of the front-end's state (R434). -/
def State.journalOf (s : State) : Journal :=
  { queues := s.queues.map fun e => (e.1, e.2.head, e.2.started)
    groups := s.groups
    plans := s.plans.filterMap fun e => e.2.map fun p => (e.1, p.state, (p.firing.map Firing.done_).getD [])
    places := s.kernels.map fun k => ((k.queue, k.cid), k.place)
    scanNext := s.scanNext, scanning := s.scanning }

/-- What the front-end has noted after an event: the heads that can start (R425), and its changes in the journal (R434), which stands
before each of them. The event has reached its active core (R31). -/
def State.afterFront (s : State) : State :=
  let s := s.noteReady.frontHanded
  { s with journal := s.journalOf }

/-- The queues as the journal has them. -/
def Journal.replayQueues (j : Journal) (m : SMap Queue) : SMap Queue :=
  j.queues.foldl (fun m e => SMap.set .reset m e.1 { SMap.get .reset m e.1 with head := e.2.1, started := e.2.2 }) m

/-- A plan as the journal has it. -/
def Journal.replayPlan (j : Journal) (h : Nat) (p : Plan) : Plan :=
  match j.plans.find? fun r => r.1 == h with
  | some r => { p with state := r.2.1, firing := p.firing.map fun f => { f with done_ := r.2.2 } }
  | none => p

/-- A kernel's placement as the journal has it. -/
def Journal.replayKernel (j : Journal) (k : Kernel) : Kernel :=
  match j.places.find? fun e => e.1 == (k.queue, k.cid) with
  | some e => { k with place := e.2 }
  | none => k

/-- The core that takes over replays the journal (R434). -/
def State.replay (s : State) : State :=
  let j := s.journal
  { s with
    queues := j.replayQueues s.queues, groups := j.groups
    plans := s.plans.map fun (e : Nat × Option Plan) => (e.1, e.2.map (j.replayPlan e.1))
    kernels := s.kernels.map j.replayKernel, scanNext := j.scanNext, scanning := j.scanning }

/-! ## The front-end cores (R31, R434, R435) -/

/-- A front-end core becomes the standby on the running image if its self-test passes, and is reported failed if it does not (R434). -/
def State.standDown (s : State) (deimos passes : Bool) : State :=
  let s := { s.setFront deimos (.loaded s.running passes) with standby := passes }
  if passes then s else { s with outs := s.outs ++ [.coreFailed deimos] }

/-! ## Heartbeat and takeover (R434) -/

/-- R434: every 100 µs. -/
def execHeartbeat (s : State) : Res :=
  eventIf s (s.serving && coreMhz s.freq * 100 ≤ s.phys - s.beatAt) { s with heartbeats := s.heartbeats + 1, beatAt := s.phys }

/-- A started command as the core that takes over restarts it: COPY and SCRUB repeat their writes whole (R434). -/
def Cmd.restart (c : Cmd) : Cmd := if c.opc == 0x08 || c.opc == 0x09 then { c with progress := 0, found := [] } else c

/-- The queues with every command in progress restarted. -/
def restartQueues (m : SMap Queue) : SMap Queue :=
  (upto 32).foldl (fun m n => SMap.set .reset m n { SMap.get .reset m n with started := (SMap.get .reset m n).started.map Cmd.restart }) m

/-- The other front-end core becomes active: it replays the journal and restarts the commands in progress (R434). -/
def State.handover (s : State) : State :=
  let t := s.replay
  { t with queues := restartQueues t.queues, deimosActive := !s.deimosActive, beatAt := s.phys }

/-- The slot of the running image is marked failed and the other one's image runs again (R435). -/
def State.rollBack (s : State) : State :=
  let s := if s.runsB then { s with slotB := { s.slotB with failed := true } } else { s with slotA := { s.slotA with failed := true } }
  { s with runsB := !s.runsB, probation := false, session := none }

/-- R434: the standby takes over; the former active core becomes standby if it passes its self-test. In probation the new image is
rolled back (R435). -/
def execTakeover (cause : TakeoverCause) (selfTest : Bool) (s : State) : Res :=
  let due := match cause with
    | .heartbeatLost => s.ms 1 ≤ s.phys - s.beatAt
    | .errorReport => true
  if !s.serving || !s.standby || !due then notNow s
  else
    .next ((if s.probation then s.rollBack else s).handover.standDown s.deimosActive selfTest)

/-! ## Firmware update (R435, R438, R449) -/

/-- Write the slot whose image does not run. -/
def State.writeSlot (s : State) (image : Nat) : State :=
  let x : Slot := { image := image, failed := false }
  if s.runsB then { s with slotA := x } else { s with slotB := x }

/-- R435: the master that holds the session writes the inactive slot; the standby loads the new image and takes over on probation. An
image whose signature does not verify is not run (R438); in recovery only the side band writes, nothing is handed over, and the host
has no answer. -/
def execFirmwareUpdate (who : Master) (image : Nat) (valid : Bool) (s : State) : Res :=
  let answer (s : State) (ok : Bool) : Res := .next { s with outs := s.outs ++ [.answer ok] }
  if s.silent who then notNow s
  else if s.session != some who then answer s false
  else if s.recovery then answer { s.writeSlot image with session := none } valid
  else if !valid then answer { s.writeSlot image with session := none } false
  else if s.probation || !s.standby then answer s false
  else
    let s := (s.writeSlot image).setFront (!s.deimosActive) (.loaded image (s.front (!s.deimosActive)).sound)
    answer { s.handover with runsB := !s.runsB, probation := true, probationAt := s.phys } true

/-- R435: after 10 s the old core loads the new image and is the standby; a self-check that fails before brings the old image back
under R434, with the core that it replaces the standby only if its store and state are sound. -/
def execProbationEnd (ok : Bool) (s : State) : Res :=
  if !s.probation then notNow s
  else if ok then
    eventIf s (s.ms 10000 ≤ s.phys - s.probationAt) ({ s with probation := false, session := none }.standDown (!s.deimosActive) true)
  else .next (s.rollBack.handover.standDown s.deimosActive (s.front s.deimosActive).sound)

end Sys2Proof.Machine
end

