-- ==== Sys2Proof/Machine/Power.lean ====
section
/-! DEFINITION. Frequency steps and the temperature and power limits (R450, R451). -/
namespace Sys2Proof.Machine

/-- R450: firmware changes the step; the stall of the cores is physical time, and no value or LT changes. Step 0 holds while the
condition of R451 lasts. -/
def execFrequencyStepChange (n : Nat) (s : State) : Res :=
  eventIf s (s.serving && n ≤ 7 && (!s.thermal || n == 0)) { s with freq := n }

/-- R451: above 105 °C, one step down, once per millisecond. -/
def execThermalStepDown (s : State) : Res :=
  let due := match s.stepAt with | some t => s.ms 1 ≤ s.phys - t | none => true
  eventIf s (s.serving && due) { s with freq := s.freq - 1, stepAt := some s.phys }

/-- The limits of R451: every kernel is aborted with FE_ABORT and cause 2 (R465), and the device runs at step 0. -/
def State.trip (s : State) : State :=
  { s.abortAll (fun _ => true) (KernelEnd.plain 2 (TrapCode.num .feAbort) 2) with freq := 0, thermal := true }

/-- R451: at 115 °C. -/
def execThermalTrip (s : State) : Res := .next s.trip

/-- R451: module power above 1,540 W for 100 ms. -/
def execPowerLimitTrip (s : State) : Res := .next s.trip

/-- R451: the side band clears the condition; in recovery it accepts only updates and tokens (R438). -/
def execThermalClear (s : State) : Res := eventIf s (s.thermal && s.serving) { s with thermal := false }

end Sys2Proof.Machine
end

