-- ==== Sys2Proof/Machine/Prefix.lean ====
section
/-! DEFINITION. Prefix words and the suffix word (R52-R57): a prefix changes how the next operation word of the bundle is read, a
suffix arrives on a barrier when the word before it retires. Misplaced ones are the step's to refuse (R59). -/
namespace Sys2Proof.Machine

/-- A prefix word: ILLEGAL_PREFIX where the target already carries one of its kind (R52). -/
def prefixWord (free : Issue → Bool) (f : Issue → Issue) (s : State) : Res :=
  let c := s.core s.cur
  if free c.cx then .next (s.setCore s.cur { c with cx := f c.cx })
  else .next (takeTrap s.cur (c.wordTrap .illegalPrefix) s)

/-- R53 -/
def execPfxImm (p : BitVec 23) (s : State) : Res :=
  prefixWord (fun x => x.imm.isNone) (fun x => { x with imm := some p }) s

/-- R54 -/
def execPfxFmt (e : Bool) (r : BitVec 2) (n : BitVec 4) (s : State) : Res :=
  prefixWord (fun x => x.fmt.isNone) (fun x => { x with fmt := some (e, r, n) }) s

/-- R55 -/
def execPfxTs (d : BitVec 23) (s : State) : Res :=
  prefixWord (fun x => x.ts.isNone) (fun x => { x with ts := some d }) s

/-- R56: hints of the controllers; a hint-less `pfx.row` leaves the target as it was. -/
def execPfxRow (st l : Bool) (s : State) : Res :=
  prefixWord (fun x => x.row == (false, false)) (fun x => { x with row := (st, l) }) s

/-- The arrival of a suffix on the word that has just issued (R57). An arrival at an LT in the span of an amplitude instruction whose
slice holds the barrier raises AMP_MAP as a core access does (R361). -/
def Core.suffix (c : Core) (a : Nat) : Except Trap Core := do
  let _ ← c.need (c.a.bars.contains a) .range
  let _ ← match c.cx.retire with | .at_ lt => c.sliceClear [(Nat.max lt c.now, a, 16)] | .copy _ => .ok ()
  let c ← c.journalBar a
  match c.cx.retire with
  | .at_ lt =>
    if lt ≤ c.now then .ok (c.ownUpdate a (BarObj.arrive 1)) else .ok (c.later .s lt none (.suffixArrive a))
  | .copy id =>
    match c.copy? id with
    | some k => .ok (c.setCopy { k with arv := k.arv ++ [a] })
    | none => .ok c

/-- R57 -/
def execSfxArv (_ch : Bool) (a : BitVec 19) (s : State) : Res :=
  let c := s.core s.cur
  match c.suffix (16 * a.toNat) with
  | .ok c' => .next (s.setCore s.cur c')
  | .error t => .next (takeTrap s.cur t s)

end Sys2Proof.Machine
end

