-- ==== Sys2Proof/Machine/Scalar.lean ====
section
/-! DEFINITION. Scalar and address arithmetic instructions (R123-R138). -/
namespace Sys2Proof.Machine

/-- Read src A then src B and deliver a function of them (R130). -/
def Core.binary (c : Core) (d : Port) (a b : Src) (lat : Nat) (f : W64 → W64 → W64) : Except Trap Core := do
  let (x, c) ← c.readS a
  let (y, c) ← c.readS b
  .ok (c.deliverS d (f x y) lat)

/-- Read src A and deliver a function of it (R130). -/
def Core.unary (c : Core) (d : Port) (a : Src) (f : W64 → W64) : Except Trap Core := do
  let (x, c) ← c.readS a
  .ok (c.deliverS d (f x) 1)

/-- R131 -/
def execAdd (ch : Bool) (d : Port) (a b : Src) (s : State) : Res :=
  issue (.add ch d a b) (fun _ c => c.binary d a b 1 fun x y => x + y) s

/-- R131 -/
def execSub (ch : Bool) (d : Port) (a b : Src) (s : State) : Res :=
  issue (.sub ch d a b) (fun _ c => c.binary d a b 1 fun x y => x - y) s

/-- R132: the low 64 bits of the product. -/
def execMul (ch : Bool) (d : Port) (a b : Src) (s : State) : Res :=
  issue (.mul ch d a b) (fun _ c => c.binary d a b 3 fun x y => x * y) s

/-- Bits [127:64] of the signed product (R132). -/
def mulHigh (x y : W64) : W64 := BitVec.ofInt 64 (x.toInt * y.toInt / (2 : Int) ^ 64)

/-- R132: the high 64 bits of the signed product. -/
def execMulh (ch : Bool) (d : Port) (a b : Src) (s : State) : Res :=
  issue (.mulh ch d a b) (fun _ c => c.binary d a b 3 mulHigh) s

/-- R131 -/
def execAnd (ch : Bool) (d : Port) (a b : Src) (s : State) : Res :=
  issue (.and ch d a b) (fun _ c => c.binary d a b 1 fun x y => x &&& y) s

/-- R131 -/
def execOr (ch : Bool) (d : Port) (a b : Src) (s : State) : Res :=
  issue (.or ch d a b) (fun _ c => c.binary d a b 1 fun x y => x ||| y) s

/-- R131 -/
def execXor (ch : Bool) (d : Port) (a b : Src) (s : State) : Res :=
  issue (.xor ch d a b) (fun _ c => c.binary d a b 1 fun x y => x ^^^ y) s

/-- A count of 64 or more shifts every bit out (R133). -/
def shlW (x n : W64) : W64 := if 64 ≤ n.toNat then 0 else x <<< n.toNat
def shrW (x n : W64) : W64 := if 64 ≤ n.toNat then 0 else x >>> n.toNat
def sraW (x n : W64) : W64 := if 64 ≤ n.toNat then (if x.msb then -1 else 0) else x.sshiftRight n.toNat

/-- R133 -/
def execShl (ch : Bool) (d : Port) (a b : Src) (s : State) : Res :=
  issue (.shl ch d a b) (fun _ c => c.binary d a b 1 shlW) s

/-- R133 -/
def execShr (ch : Bool) (d : Port) (a b : Src) (s : State) : Res :=
  issue (.shr ch d a b) (fun _ c => c.binary d a b 1 shrW) s

/-- R133 -/
def execSra (ch : Bool) (d : Port) (a b : Src) (s : State) : Res :=
  issue (.sra ch d a b) (fun _ c => c.binary d a b 1 sraW) s

/-- R131 -/
def execMin (ch : Bool) (d : Port) (a b : Src) (s : State) : Res :=
  issue (.min ch d a b) (fun _ c => c.binary d a b 1 fun x y => if x.slt y then x else y) s

/-- R131 -/
def execMax (ch : Bool) (d : Port) (a b : Src) (s : State) : Res :=
  issue (.max ch d a b) (fun _ c => c.binary d a b 1 fun x y => if y.slt x then x else y) s

/-- A compare delivers 1 or 0 to its destination and the same bit to P (R134). -/
def Core.compare (c : Core) (d : Port) (a b : Src) (f : W64 → W64 → Bool) : Except Trap Core := do
  let (x, c) ← c.readS a
  let (y, c) ← c.readS b
  .ok ((c.deliverS d (if f x y then 1 else 0) 1).later .s (c.now + 1) none (.setP (f x y)))

/-- R134 -/
def execCeq (ch : Bool) (d : Port) (a b : Src) (s : State) : Res :=
  issue (.ceq ch d a b) (fun _ c => c.compare d a b fun x y => x == y) s

/-- R134 -/
def execClt (ch : Bool) (d : Port) (a b : Src) (s : State) : Res :=
  issue (.clt ch d a b) (fun _ c => c.compare d a b fun x y => x.slt y) s

/-- R134 -/
def execCltu (ch : Bool) (d : Port) (a b : Src) (s : State) : Res :=
  issue (.cltu ch d a b) (fun _ c => c.compare d a b fun x y => x.ult y) s

/-- `sel` reads both sources and delivers one by P (R135). -/
def execSel (ch : Bool) (d : Port) (a b : Src) (s : State) : Res :=
  issue (.sel ch d a b) (fun _ c => c.binary d a b 1 fun x y => if c.a.sys.p then x else y) s

/-- `addi` adds a sign-extended immediate (R136). -/
def execAddi (ch : Bool) (d : Port) (a : Src) (i : BitVec 8) (s : State) : Res :=
  issue (.addi ch d a i) (fun _ c => c.unary d a fun x => x + BitVec.ofInt 64 (c.immS 8 i.toNat)) s

/-- Zero bits above the highest set bit (R137). -/
def clzW (x : W64) : W64 := BitVec.ofNat 64 (if x.toNat == 0 then 64 else 63 - Nat.log2 x.toNat)

/-- R137 -/
def execClz (ch : Bool) (d : Port) (a : Src) (s : State) : Res :=
  issue (.clz ch d a) (fun _ c => c.unary d a clzW) s

/-- R137 -/
def execPopc (ch : Bool) (d : Port) (a : Src) (s : State) : Res :=
  issue (.popc ch d a) (fun _ c => c.unary d a fun x => BitVec.ofNat 64 (popCount x.toNat 64)) s

/-- The field that `bfx` extracts (R138). -/
def bfxW (a ctl : W64) : W64 :=
  let pos := fld ctl 5 0
  let len := Nat.min (fld ctl 14 8) (64 - pos)
  let x := bitsOf a.toNat pos len
  if len == 0 then 0
  else if fld ctl 15 15 == 1 then BitVec.ofInt 64 (sextInt x len) else BitVec.ofNat 64 x

/-- R138 -/
def execBfx (ch : Bool) (d : Port) (a b : Src) (s : State) : Res :=
  issue (.bfx ch d a b) (fun _ c => c.binary d a b 1 bfxW) s

end Sys2Proof.Machine
end

