-- ==== Sys2Proof/Machine/Security.lean ====
section
/-! DEFINITION. Measurements (R437-R439), the trusted interface (R442-R444), lifecycle and wipes (R445-R447), the two masters
(R448, R449), resets (R452). -/
namespace Sys2Proof.Machine

/-! ## Measurements (R439) -/

def Lifecycle.num : Lifecycle → Nat
  | .blank => 0 | .provisioned => 1 | .deployed => 2 | .returned => 3 | .scrapped => 4

/-- Measurement 5 of the configuration in force: BAR sizes, queue CTX values, export table (R439). -/
def State.measureTdi (s : State) : BitVec 256 :=
  Config.digest ([5, s.bar4] ++ ((upto 32).map fun n => (s.queue n).ctx) ++ (upto 64).flatMap fun k =>
    let e := SMap.get ExportEntry.reset s.exports k
    [e.w0.toNat, e.w1.toNat])

/-- A measurement by its index (R439). -/
def State.measurement (s : State) (index : Nat) : Option (BitVec 256) :=
  match index with
  | 1 => some (Config.digest [1])
  | 2 => some (Config.digest [2, if s.runsB then 1 else 0, s.running])
  | 3 => some (Config.digest [3, Lifecycle.num s.lifecycle])
  | 4 => some (Config.digest (4 :: (upto 96).filter s.retired.contains))
  | 5 => some (s.measure5.getD (Config.digest [5]))
  | _ => none

/-- The device answers a request with success or an error. -/
def State.answer (s : State) (ok : Bool) : State := { s with outs := s.outs ++ [.answer ok] }

/-- R439: over DOE or MCTP, signed with the identity key, for a requester that has agreed on the algorithm; in recovery it is refused
(R438), and a device without an identity signs nothing (R445). -/
def execGetMeasurements (who : Master) (index : Nat) (s : State) : Res :=
  if s.silent who then notNow s
  else match if s.serving && s.agreed.contains who then s.measurement index else none, s.identity with
    | some d, some k => .next { s with outs := s.outs ++ [.measurement index d (Config.signature k s.fresh)], fresh := s.fresh + 1 }
    | _, _ => .next (s.answer false)

/-- R439: the algorithm is agreed, or a requester that offers no match is refused. -/
def execNegotiateAlgorithms (who : Master) (offersSlhDsa : Bool) (s : State) : Res :=
  if s.silent who then notNow s
  else if s.recovery then .next (s.answer false)
  else
    let rest := s.agreed.filter fun w => w != who
    .next { s with outs := s.outs ++ [.algorithm offersSlhDsa], agreed := if offersSlhDsa then rest ++ [who] else rest }

/-! ## The trusted interface (R442-R444) -/

/-- R442: accepted in CONFIG_UNLOCKED with IDE running; measurement 5 is recorded. -/
def execLockInterface (s : State) : Res :=
  if !s.serving then notNow s
  else if s.tdi == .configUnlocked && s.ide then .next (State.answer { s with tdi := .configLocked, measure5 := some s.measureTdi } true)
  else .next (s.answer false)

/-- R442 -/
def execStartInterface (s : State) : Res :=
  if !s.serving then notNow s
  else if s.tdi == .configLocked && !s.stopping then .next (State.answer { s with tdi := .run } true)
  else .next (s.answer false)

/-- R443: tenants are stopped and wiped; the request completes after the wipe, from ERROR that of the entry to ERROR. -/
def execStopInterface (s : State) : Res :=
  if !s.serving || s.stopping then notNow s
  else match s.tdi with
    | .configUnlocked => .next (s.answer true)
    | .error =>
      if s.wiping then .next { s with stopping := true } else .next (State.answer { s with tdi := .configUnlocked } true)
    | _ => .next { s.stopTenants with stopping := true }

/-- R447: the SRAMs of tenant-used pairs are clear, and the pairs come back; STOP_INTERFACE completes (R443). -/
def execSramClearComplete (s : State) : Res :=
  if !s.wiping then notNow s
  else
    let t := { s with wiping := false, clearing := [] }
    .next (if s.stopping then State.answer { t with stopping := false, tdi := .configUnlocked } true else t)

/-- The interface report (R444): BAR 0 of 64 MiB for TEE accesses only, BAR 2 of 16 MiB, BAR 4 as locked. -/
def State.interfaceReport (s : State) : InterfaceReport :=
  { dmaWithoutPasid := true, ats := true, pri := true, msix := s.msix, lnr := 0, tph := 0
    ranges := [(0, 2 ^ 26, true), (2, 2 ^ 24, false), (4, 2 ^ s.bar4, false)]
    life := s.lifecycle, slotB := s.runsB, m5 := s.measure5.getD 0, pkg := s.pkgnum.toNat }

/-- R444: in CONFIG_LOCKED and RUN. -/
def execGetDeviceInterfaceReport (s : State) : Res :=
  if !s.serving then notNow s
  else if s.tdi == .configLocked || s.tdi == .run then .next { s with outs := s.outs ++ [.interfaceReport s.interfaceReport] }
  else .next (s.answer false)

/-- R443 -/
def execGetDeviceInterfaceState (s : State) : Res :=
  eventIf s s.serving { s with outs := s.outs ++ [.tdiState s.tdi] }

/-- R442: a write to a BAR, Command, Resizable BAR or MSI-X capability register is applied in CONFIG_UNLOCKED, an entry to ERROR in
CONFIG_LOCKED and RUN, dropped in ERROR; any other is applied. The value of a Resizable BAR write is log2 of the size; bit 0 of the
IDE control says whether the stream runs. -/
def execPcieConfigWrite (r : ConfigReg) (v : W64) (s : State) : Res :=
  if !s.serving then notNow s
  else match r with
    | .decode => .next (s.guardedConfig fun s => { s with decode := v })
    | .msix => .next (s.guardedConfig fun s => { s with msix := v })
    | .resizableBar => .next (s.guardedConfig fun s => if 30 ≤ v.toNat && v.toNat ≤ 39 then { s with bar4 := v.toNat } else s)
    | .ide => .next { s with ide := v.getLsbD 0 }
    | .other => .next { s with config := v }

/-! ## Lifecycle, resets and wipes (R445-R447, R452) -/

/-- The transitions of R445. -/
def lifecycleStep (a b : Lifecycle) : Bool :=
  match a, b with
  | .blank, .provisioned | .provisioned, .deployed | .deployed, .returned | .returned, .deployed | .returned, .scrapped => true
  | _, _ => false

/-- The lifecycle moves (R437, R445): the identity key pair is generated, and its certificate installed, as the device leaves BLANK; the
key is erased as it is scrapped. -/
def State.enterLifecycle (s : State) (target : Lifecycle) : State :=
  { s with
    lifecycle := target, fresh := s.fresh + 1
    identity := if target == .provisioned then some s.fresh else if target == .scrapped then none else s.identity
    certificate := if target == .provisioned then some s.fresh else s.certificate }

/-- R445: a token signed with the vendor key moves the lifecycle and wipes with full scope; the boot ROM of a scrapped device has
stopped. -/
def execLifecycleToken (target : Lifecycle) (valid : Bool) (s : State) : Res :=
  if s.lifecycle == .scrapped then notNow s
  else if valid && lifecycleStep s.lifecycle target then .next ((s.enterLifecycle target).afterReset.answer true)
  else .next (s.answer false)

/-- ROM verification (R438): slot A, or slot B where A fails or is marked failed, or recovery; a scrapped device stops (R445). -/
def State.verify (s : State) (okA okB : Bool) : State :=
  let a := okA && !s.slotA.failed
  let b := okB && !s.slotB.failed
  let s := { s with runsB := !a && b, recovery := !a && !b, ready := (a || b) && Lifecycle.serves s.lifecycle }
  { s with phobos := .loaded s.running s.phobos.sound, deimos := .loaded s.running s.deimos.sound }

/-- R452: a cold reset reruns the verification of the firmware; `okA`, `okB` say which slots verify. -/
def State.coldReset (s : State) (okA okB : Bool) : State :=
  { s.afterReset.verify okA okB with outs := s.outs ++ [.linkDown] }

/-- R449, R452 -/
def execColdReset (slotA slotB : Bool) (s : State) : Res := .next (s.coldReset slotA slotB)

/-- R446: a full-scope wipe, then a cold reset; in recovery the side band accepts only updates and tokens (R438). -/
def execEmergencyWipe (slotA slotB : Bool) (s : State) : Res :=
  if s.lifecycle == .scrapped then notNow s
  else if s.recovery then .next (s.answer false)
  else .next (s.afterReset.coldReset slotA slotB)

/-- R452 -/
def execFunctionLevelReset (s : State) : Res := eventIf s s.serving s.afterReset

/-- R452 -/
def execHotReset (s : State) : Res := eventIf s s.serving s.afterReset

/-- R447: HBM is zero under context 0. -/
def execHbmZeroFillDone (s : State) : Res :=
  eventIf s s.zeroFill
    (State.noteReady { s with zeroFill := false, hbm := [], hbmKey := [], hbmBad := [], hbmWeak := [] })

/-! ## The two masters (R448, R449) -/

/-- R449: the first master to open the session holds it until it completes or aborts. -/
def execFirmwareUpdateSession (who : Master) (isOpen : Bool) (s : State) : Res :=
  if s.silent who then notNow s
  else if isOpen then
    match s.session with
    | none => .next (State.answer { s with session := some who } true)
    | some w => .next (s.answer (w == who))
  else if s.session == some who && !s.probation then .next (State.answer { s with session := none } true)
  else .next (s.answer false)

/-- R448, R462: PLDM type 2 over the side band. -/
def execPldmMonitoring (s : State) : Res :=
  if s.silent .sideBand then notNow s
  else if s.recovery then .next (s.answer false)
  else
    let o : Output := .monitoring (Config.temperature s.fresh) (Config.power s.fresh) s.freq
      ((upto 15).filter fun p => !s.portsDown.contains p) ((upto 5).filter fun r => !s.d2dDown.contains r) s.retired s.errlog
    .next { s with outs := s.outs ++ [o], fresh := s.fresh + 1 }

end Sys2Proof.Machine
end

