-- ==== Sys2Proof/Machine/Transport.lean ====
section
/-! DEFINITION. Transport instructions (R115-R122). -/
namespace Sys2Proof.Machine

/-- `mov` copies 64 bits (R116). -/
def execMov (ch : Bool) (d : Port) (a : Src) (s : State) : Res :=
  issue (.mov ch d a) (fun _ c => do
    let (v, c) ← c.readS a
    .ok (c.deliverS d v 1)) s

/-- `vmov` copies 2048 bits (R117). -/
def execVmov (ch : Bool) (d : Port) (a : Src) (s : State) : Res :=
  issue (.vmov ch d a) (fun _ c => do
    let (v, c) ← c.readV a
    .ok (c.deliverV d v 0 1)) s

/-- `movi` places a sign-extended immediate (R118). -/
def execMovi (ch : Bool) (d : Port) (i : BitVec 16) (s : State) : Res :=
  issue (.movi ch d i) (fun _ c => .ok (c.deliverS d (BitVec.ofInt 64 (c.immS 16 i.toNat)) 1)) s

/-- Pop `n` landed entries of a queue (R104). -/
def Core.popMany (c : Core) (q : Port) : Nat → Except Trap Core
  | 0 => .ok c
  | n + 1 => do
    let (_, c) ← c.readQueue q false
    c.popMany q n

/-- `qdrop` pops n entries and writes into l.s the number that remain (R119). -/
def execQdrop (ch : Bool) (q : Port) (n : BitVec 8) (s : State) : Res :=
  issue (.qdrop ch q n) (fun _ c => do
    let c ← c.popMany q n.toNat
    .ok (c.deliverS .zero (BitVec.ofNat 64 (c.a.landed q).length) 1)) s

/-- The slots of a queue that words issued before this LT reserve; a bundle's own reservations follow all its reads (R108). -/
def Core.reservedBefore (c : Core) (q : Port) : Nat :=
  (c.a.inflight.filter fun i => i.dst == some q && i.issue != c.now).length

/-- The word `qlen` returns (R120). -/
def Core.queueWord (c : Core) (q : Port) : W64 :=
  BitVec.ofNat 64 ((c.a.landed q).length % 16 + (c.reservedBefore q % 16) <<< 4 + (Port.depth q) <<< 8)

/-- `qlen` returns the state of a queue and pops nothing (R120). -/
def execQlen (ch : Bool) (d q : Port) (s : State) : Res :=
  issue (.qlen ch d q) (fun _ c => .ok (c.deliverS d (c.queueWord q) 1)) s

/-- `vbcast` replicates the low bits of a scalar, or a pair of scalars in C128, into every element (R121). -/
def execVbcast (ch : Bool) (d : Port) (a b : Src) (s : State) : Res :=
  issue (.vbcast ch d a b) (fun _ c => do
    let t := fVtype c.fmt
    let (x, c) ← c.readS a
    if t == 12 then
      let (y, c) ← c.readS b
      .ok (c.deliverV d (Val.tabulate 128 fun _ => (x.toNat + y.toNat <<< 64, .clean)) 0 2)
    else .ok (c.deliverV d (Val.tabulate (widthOf t) fun _ => (x.toNat % 2 ^ widthOf t, .clean)) 0 2)) s

/-- Whether `vext` sign-extends its unit (R122): INT8, INT16 and INT32. -/
def extSigned (t : Nat) : Bool := t == 0 || t == 2 || t == 3

/-- `vext` moves one unit of a vector to a scalar; a poisoned unit traps (R122, R467). -/
def execVext (ch : Bool) (d : Port) (a : Src) (n : BitVec 8) (s : State) : Res :=
  issue (.vext ch d a n) (fun _ c => do
    let t := fVtype c.fmt
    let u := unitWidth t
    let (v, c) ← c.readV a
    let _ ← c.noPoison (v.elemKind u n.toNat)
    let x := v.elem u n.toNat
    let r : W64 := if extSigned t then BitVec.ofInt 64 (sextInt x u) else BitVec.ofNat 64 x
    .ok ((c.deliver c.vPipe (some c.vPipe.latch) d (Val.ofScalar r) 2))) s

/-- A vector with unit n of width u replaced; a word the unit fills takes no poison of the old vector (R122, R467). -/
def Val.insertUnit (v : Val) (u n x : Nat) : Val :=
  Val.tabulate u fun i => if i == n then (x % 2 ^ u, if u < 32 then v.elemKind u i else .clean) else (v.elem u i, v.elemKind u i)

/-- `vins` pops its old vector after reading src A and replaces one unit (R122). -/
def execVins (ch : Bool) (d : Port) (a : Src) (n : BitVec 8) (s : State) : Res :=
  issue (.vins ch d a n) (fun _ c => do
    let u := unitWidth (fVtype c.fmt)
    let (x, c) ← c.readS a
    let (y, c) ← c.readQueue d false
    .ok (c.deliverV d (y.insertUnit u n.toNat x.toNat) 0 2)) s

end Sys2Proof.Machine
end

