-- ==== Sys2Proof/Machine/Dispatch.lean ====
section
/-! DEFINITION. The one dispatch: every constructor of `Instr` to its meaning. -/
namespace Sys2Proof.Machine

def exec (i : Instr) (s : State) : Host.Outcome State Fault Refusal :=
  match i with
  | .pfxImm p => Sys2Proof.Machine.execPfxImm p s
  | .pfxFmt e r n => Sys2Proof.Machine.execPfxFmt e r n s
  | .pfxTs d => Sys2Proof.Machine.execPfxTs d s
  | .pfxRow xs l => Sys2Proof.Machine.execPfxRow xs l s
  | .sfxArv c a => Sys2Proof.Machine.execSfxArv c a s
  | .mov c d a => Sys2Proof.Machine.execMov c d a s
  | .vmov c d a => Sys2Proof.Machine.execVmov c d a s
  | .movi c d xi => Sys2Proof.Machine.execMovi c d xi s
  | .qdrop c q n => Sys2Proof.Machine.execQdrop c q n s
  | .qlen c d q => Sys2Proof.Machine.execQlen c d q s
  | .vbcast c d a b => Sys2Proof.Machine.execVbcast c d a b s
  | .vext c d a xi => Sys2Proof.Machine.execVext c d a xi s
  | .vins c d a xi => Sys2Proof.Machine.execVins c d a xi s
  | .add c d a b => Sys2Proof.Machine.execAdd c d a b s
  | .sub c d a b => Sys2Proof.Machine.execSub c d a b s
  | .mul c d a b => Sys2Proof.Machine.execMul c d a b s
  | .mulh c d a b => Sys2Proof.Machine.execMulh c d a b s
  | .and c d a b => Sys2Proof.Machine.execAnd c d a b s
  | .or c d a b => Sys2Proof.Machine.execOr c d a b s
  | .xor c d a b => Sys2Proof.Machine.execXor c d a b s
  | .shl c d a b => Sys2Proof.Machine.execShl c d a b s
  | .shr c d a b => Sys2Proof.Machine.execShr c d a b s
  | .sra c d a b => Sys2Proof.Machine.execSra c d a b s
  | .min c d a b => Sys2Proof.Machine.execMin c d a b s
  | .max c d a b => Sys2Proof.Machine.execMax c d a b s
  | .ceq c d a b => Sys2Proof.Machine.execCeq c d a b s
  | .clt c d a b => Sys2Proof.Machine.execClt c d a b s
  | .cltu c d a b => Sys2Proof.Machine.execCltu c d a b s
  | .sel c d a b => Sys2Proof.Machine.execSel c d a b s
  | .addi c d a xi => Sys2Proof.Machine.execAddi c d a xi s
  | .clz c d a => Sys2Proof.Machine.execClz c d a s
  | .popc c d a => Sys2Proof.Machine.execPopc c d a s
  | .bfx c d a b => Sys2Proof.Machine.execBfx c d a b s
  | .br c o => Sys2Proof.Machine.execBr c o s
  | .brz c k o => Sys2Proof.Machine.execBrz c k o s
  | .brnz c k o => Sys2Proof.Machine.execBrnz c k o s
  | .call c o => Sys2Proof.Machine.execCall c o s
  | .ret c xs => Sys2Proof.Machine.execRet c xs s
  | .loop c k o => Sys2Proof.Machine.execLoop c k o s
  | .loopf c k o => Sys2Proof.Machine.execLoopf c k o s
  | .nop c n => Sys2Proof.Machine.execNop c n s
  | .waitlt c a => Sys2Proof.Machine.execWaitlt c a s
  | .step c b => Sys2Proof.Machine.execStep c b s
  | .rdv c g => Sys2Proof.Machine.execRdv c g s
  | .halt c n => Sys2Proof.Machine.execHalt c n s
  | .vadd c d a b => Sys2Proof.Machine.execVadd c d a b s
  | .vsub c d a b => Sys2Proof.Machine.execVsub c d a b s
  | .vmul c d a b => Sys2Proof.Machine.execVmul c d a b s
  | .vfma c d a b => Sys2Proof.Machine.execVfma c d a b s
  | .vfms c d a b => Sys2Proof.Machine.execVfms c d a b s
  | .vmin c d a b => Sys2Proof.Machine.execVmin c d a b s
  | .vmax c d a b => Sys2Proof.Machine.execVmax c d a b s
  | .vabs c d a => Sys2Proof.Machine.execVabs c d a s
  | .vand c d a b => Sys2Proof.Machine.execVand c d a b s
  | .vor c d a b => Sys2Proof.Machine.execVor c d a b s
  | .vxor c d a b => Sys2Proof.Machine.execVxor c d a b s
  | .vshl c d a b => Sys2Proof.Machine.execVshl c d a b s
  | .vshr c d a b => Sys2Proof.Machine.execVshr c d a b s
  | .vceq c d a b => Sys2Proof.Machine.execVceq c d a b s
  | .vclt c d a b => Sys2Proof.Machine.execVclt c d a b s
  | .vsel c d a b => Sys2Proof.Machine.execVsel c d a b s
  | .vrcp c d a => Sys2Proof.Machine.execVrcp c d a s
  | .vrsq c d a => Sys2Proof.Machine.execVrsq c d a s
  | .vexp2 c d a => Sys2Proof.Machine.execVexp2 c d a s
  | .vlog2 c d a => Sys2Proof.Machine.execVlog2 c d a s
  | .vred c d a => Sys2Proof.Machine.execVred c d a s
  | .vredx c d a => Sys2Proof.Machine.execVredx c d a s
  | .vperm c d a b => Sys2Proof.Machine.execVperm c d a b s
  | .vcomp c d a => Sys2Proof.Machine.execVcomp c d a s
  | .vhash c d a b => Sys2Proof.Machine.execVhash c d a b s
  | .vlane c d a b => Sys2Proof.Machine.execVlane c d a b s
  | .vcvt c d a b => Sys2Proof.Machine.execVcvt c d a b s
  | .vquant c d a b => Sys2Proof.Machine.execVquant c d a b s
  | .vdequant c d a b => Sys2Proof.Machine.execVdequant c d a b s
  | .vscale c d a b => Sys2Proof.Machine.execVscale c d a b s
  | .vpack c d a b => Sys2Proof.Machine.execVpack c d a b s
  | .vunpack c d a b => Sys2Proof.Machine.execVunpack c d a b s
  | .vcvts c d a b => Sys2Proof.Machine.execVcvts c d a b s
  | .mxLdb c a => Sys2Proof.Machine.execMxLdb c a s
  | .mxLdbs c a => Sys2Proof.Machine.execMxLdbs c a s
  | .mxLds c a b => Sys2Proof.Machine.execMxLds c a b s
  | .mxPair c a b => Sys2Proof.Machine.execMxPair c a b s
  | .mxRun c a b => Sys2Proof.Machine.execMxRun c a b s
  | .mxClr c a => Sys2Proof.Machine.execMxClr c a s
  | .mxRd c d a => Sys2Proof.Machine.execMxRd c d a s
  | .mxWr c a b => Sys2Proof.Machine.execMxWr c a b s
  | .mxEpi c a b => Sys2Proof.Machine.execMxEpi c a b s
  | .mxArow c a b => Sys2Proof.Machine.execMxArow c a b s
  | .mxSig c d a => Sys2Proof.Machine.execMxSig c d a s
  | .mxMode c d h o => Sys2Proof.Machine.execMxMode c d h o s
  | .ld c d a xi => Sys2Proof.Machine.execLd c d a xi s
  | .st c a b => Sys2Proof.Machine.execSt c a b s
  | .vld c d a xi => Sys2Proof.Machine.execVld c d a xi s
  | .vst c a b => Sys2Proof.Machine.execVst c a b s
  | .vgath c d a => Sys2Proof.Machine.execVgath c d a s
  | .vscat c a b => Sys2Proof.Machine.execVscat c a b s
  | .bdecl c n a b => Sys2Proof.Machine.execBdecl c n a b s
  | .bset c n k => Sys2Proof.Machine.execBset c n k s
  | .atom c d a b => Sys2Proof.Machine.execAtom c d a b s
  | .vatom c d a b => Sys2Proof.Machine.execVatom c d a b s
  | .bstat c d n => Sys2Proof.Machine.execBstat c d n s
  | .rgath c d a b => Sys2Proof.Machine.execRgath c d a b s
  | .cpGet c n a b => Sys2Proof.Machine.execCpGet c n a b s
  | .cpPut c n a b => Sys2Proof.Machine.execCpPut c n a b s
  | .cpGath c n a b => Sys2Proof.Machine.execCpGath c n a b s
  | .cpFill c n a b => Sys2Proof.Machine.execCpFill c n a b s
  | .cpScrub c n a b => Sys2Proof.Machine.execCpScrub c n a b s
  | .cpFence c m => Sys2Proof.Machine.execCpFence c m s
  | .cpWait c m => Sys2Proof.Machine.execCpWait c m s
  | .cpWp c d n => Sys2Proof.Machine.execCpWp c d n s
  | .cpBind c n a => Sys2Proof.Machine.execCpBind c n a s
  | .cpInv c l w => Sys2Proof.Machine.execCpInv c l w s
  | .cpAmo c n a b => Sys2Proof.Machine.execCpAmo c n a b s
  | .barInit c d a b => Sys2Proof.Machine.execBarInit c d a b s
  | .barArv c a b => Sys2Proof.Machine.execBarArv c a b s
  | .barWait c a b => Sys2Proof.Machine.execBarWait c a b s
  | .snd c a b => Sys2Proof.Machine.execSnd c a b s
  | .rcv c d a => Sys2Proof.Machine.execRcv c d a s
  | .fence c g xs => Sys2Proof.Machine.execFence c g xs s
  | .acq c g xs => Sys2Proof.Machine.execAcq c g xs s
  | .rel c g xs => Sys2Proof.Machine.execRel c g xs s
  | .ltrd c d xs => Sys2Proof.Machine.execLtrd c d xs s
  | .clBase c a b => Sys2Proof.Machine.execClBase c a b s
  | .clFire c a => Sys2Proof.Machine.execClFire c a s
  | .clStat c d a xs => Sys2Proof.Machine.execClStat c d a xs s
  | .pkSnd c a b => Sys2Proof.Machine.execPkSnd c a b s
  | .ampMap c a b => Sys2Proof.Machine.execAmpMap c a b s
  | .ampGate c a b => Sys2Proof.Machine.execAmpGate c a b s
  | .ampDiag c a b => Sys2Proof.Machine.execAmpDiag c a b s
  | .ampCtl c d n => Sys2Proof.Machine.execAmpCtl c d n s
  | .ampSwap c a => Sys2Proof.Machine.execAmpSwap c a s
  | .ampNorm c d a b => Sys2Proof.Machine.execAmpNorm c d a b s
  | .ampProb c d a => Sys2Proof.Machine.execAmpProb c d a s
  | .ampInit c a b => Sys2Proof.Machine.execAmpInit c a b s
  | .qrTab c a b => Sys2Proof.Machine.execQrTab c a b s
  | .qrSeed c a b => Sys2Proof.Machine.execQrSeed c a b s
  | .qrGen c d a b => Sys2Proof.Machine.execQrGen c d a b s
  | .qrGenf c d a b => Sys2Proof.Machine.execQrGenf c d a b s
  | .qrSkip c d a b => Sys2Proof.Machine.execQrSkip c d a b s
  | .trap c k => Sys2Proof.Machine.execTrap c k s
  | .brk c k => Sys2Proof.Machine.execBrk c k s
  | .icinv c g xs => Sys2Proof.Machine.execIcinv c g xs s
  | .rdsys c d x => Sys2Proof.Machine.execRdsys c d x s
  | .wrsys c d a x => Sys2Proof.Machine.execWrsys c d a x s
  | .resultLand n k => Sys2Proof.Machine.execResultLand n k s
  | .sendArrival k => Sys2Proof.Machine.execSendArrival k s
  | .timedBeatArrival n id beat => Sys2Proof.Machine.execTimedBeatArrival n id beat s
  | .copyStart n id => Sys2Proof.Machine.execCopyStart n id s
  | .copyBeatDone n id beat data => Sys2Proof.Machine.execCopyBeatDone n id beat data s
  | .atsCompletion n w granule v => Sys2Proof.Machine.execAtsCompletion n w granule v s
  | .atsInvalidation granule => Sys2Proof.Machine.execAtsInvalidation granule s
  | .priResponse n ok => Sys2Proof.Machine.execPriResponse n ok s
  | .trapHandling => Sys2Proof.Machine.execTrapHandling s
  | .matrixTwinRerun n => Sys2Proof.Machine.execMatrixTwinRerun n s
  | .rdvRelease n slot => Sys2Proof.Machine.execRdvRelease n slot s
  | .stepRelease k => Sys2Proof.Machine.execStepRelease k s
  | .budgetExpiry n => Sys2Proof.Machine.execBudgetExpiry n s
  | .pairRowArrival n => Sys2Proof.Machine.execPairRowArrival n s
  | .pairTimeout n => Sys2Proof.Machine.execPairTimeout n s
  | .ampChunkArrival n peer => Sys2Proof.Machine.execAmpChunkArrival n peer s
  | .coreHaltReport n => Sys2Proof.Machine.execCoreHaltReport n s
  | .kernelFinish k => Sys2Proof.Machine.execKernelFinish k s
  | .remoteArrival k => Sys2Proof.Machine.execRemoteArrival k s
  | .pkSndArrival k peer => Sys2Proof.Machine.execPkSndArrival k peer s
  | .pkSndRefusal n id => Sys2Proof.Machine.execPkSndRefusal n id s
  | .icinvRequestArrival k => Sys2Proof.Machine.execIcinvRequestArrival k s
  | .hbmAccessAccept n id beat => Sys2Proof.Machine.execHbmAccessAccept n id beat s
  | .hbmWriteDrain ch => Sys2Proof.Machine.execHbmWriteDrain ch s
  | .hbmRefresh ch => Sys2Proof.Machine.execHbmRefresh ch s
  | .refreshForce ch => Sys2Proof.Machine.execRefreshForce ch s
  | .peerAccess r => Sys2Proof.Machine.execPeerAccess r s
  | .linkBeatReceive group beats xor => Sys2Proof.Machine.execLinkBeatReceive group beats xor s
  | .railStateChange rail up => Sys2Proof.Machine.execRailStateChange rail up s
  | .collectivePacketArrival p => Sys2Proof.Machine.execCollectivePacketArrival p s
  | .chunkOpComplete h op => Sys2Proof.Machine.execChunkOpComplete h op s
  | .planProgressTimeout h => Sys2Proof.Machine.execPlanProgressTimeout h s
  | .planSetupConfirm h who ok => Sys2Proof.Machine.execPlanSetupConfirm h who ok s
  | .planSetupTimeout h => Sys2Proof.Machine.execPlanSetupTimeout h s
  | .hostTrigger off width v tee => Sys2Proof.Machine.execHostTrigger off width v tee s
  | .launch q => Sys2Proof.Machine.execLaunch q s
  | .wait q => Sys2Proof.Machine.execWait q s
  | .waitReread q => Sys2Proof.Machine.execWaitReread q s
  | .signal q => Sys2Proof.Machine.execSignal q s
  | .fenceCommand q => Sys2Proof.Machine.execFenceCommand q s
  | .fire q => Sys2Proof.Machine.execFire q s
  | .planSetup q => Sys2Proof.Machine.execPlanSetup q s
  | .planFree q => Sys2Proof.Machine.execPlanFree q s
  | .copy q k => Sys2Proof.Machine.execCopy q k s
  | .scrub q k => Sys2Proof.Machine.execScrub q k s
  | .cal q => Sys2Proof.Machine.execCal q s
  | .group q => Sys2Proof.Machine.execGroup q s
  | .preempt q => Sys2Proof.Machine.execPreempt q s
  | .contextSaveComplete q => Sys2Proof.Machine.execContextSaveComplete q s
  | .resume q => Sys2Proof.Machine.execResume q s
  | .nopc q => Sys2Proof.Machine.execNopc q s
  | .exportEntry q => Sys2Proof.Machine.execExportEntry q s
  | .queueStarvationTimeout q => Sys2Proof.Machine.execQueueStarvationTimeout q s
  | .queueEnable q v tee => Sys2Proof.Machine.execQueueEnable q v tee s
  | .queueDisable q v tee => Sys2Proof.Machine.execQueueDisable q v tee s
  | .qtailWrite q width v tee => Sys2Proof.Machine.execQtailWrite q width v tee s
  | .doorbellWrite k => Sys2Proof.Machine.execDoorbellWrite k s
  | .ap4baseWrite v tee => Sys2Proof.Machine.execAp4baseWrite v tee s
  | .bar4Access off width wr => Sys2Proof.Machine.execBar4Access off width wr s
  | .barResize log2 => Sys2Proof.Machine.execBarResize log2 s
  | .pkgnumWrite v tee => Sys2Proof.Machine.execPkgnumWrite v tee s
  | .setPkgnum payload => Sys2Proof.Machine.execSetPkgnum payload s
  | .registerWrite off width v tee => Sys2Proof.Machine.execRegisterWrite off width v tee s
  | .debugOpen v tee => Sys2Proof.Machine.execDebugOpen v tee s
  | .debugClose v tee => Sys2Proof.Machine.execDebugClose v tee s
  | .debugHalt v tee => Sys2Proof.Machine.execDebugHalt v tee s
  | .debugResume v tee => Sys2Proof.Machine.execDebugResume v tee s
  | .debugStep v tee => Sys2Proof.Machine.execDebugStep v tee s
  | .debugRead v tee => Sys2Proof.Machine.execDebugRead v tee s
  | .debugWrite v tee => Sys2Proof.Machine.execDebugWrite v tee s
  | .debugCancel v tee => Sys2Proof.Machine.execDebugCancel v tee s
  | .scanStart => Sys2Proof.Machine.execScanStart s
  | .scanMove => Sys2Proof.Machine.execScanMove s
  | .scanPassComplete ok => Sys2Proof.Machine.execScanPassComplete ok s
  | .heartbeat => Sys2Proof.Machine.execHeartbeat s
  | .takeover cause selfTest => Sys2Proof.Machine.execTakeover cause selfTest s
  | .firmwareUpdate who image valid => Sys2Proof.Machine.execFirmwareUpdate who image valid s
  | .probationEnd ok => Sys2Proof.Machine.execProbationEnd ok s
  | .getMeasurements who index => Sys2Proof.Machine.execGetMeasurements who index s
  | .lockInterface => Sys2Proof.Machine.execLockInterface s
  | .startInterface => Sys2Proof.Machine.execStartInterface s
  | .stopInterface => Sys2Proof.Machine.execStopInterface s
  | .getDeviceInterfaceReport => Sys2Proof.Machine.execGetDeviceInterfaceReport s
  | .getDeviceInterfaceState => Sys2Proof.Machine.execGetDeviceInterfaceState s
  | .pcieConfigWrite r v => Sys2Proof.Machine.execPcieConfigWrite r v s
  | .lifecycleToken target valid => Sys2Proof.Machine.execLifecycleToken target valid s
  | .emergencyWipe slotA slotB => Sys2Proof.Machine.execEmergencyWipe slotA slotB s
  | .coldReset slotA slotB => Sys2Proof.Machine.execColdReset slotA slotB s
  | .functionLevelReset => Sys2Proof.Machine.execFunctionLevelReset s
  | .hotReset => Sys2Proof.Machine.execHotReset s
  | .hbmZeroFillDone => Sys2Proof.Machine.execHbmZeroFillDone s
  | .firmwareUpdateSession who isOpen => Sys2Proof.Machine.execFirmwareUpdateSession who isOpen s
  | .pldmMonitoring => Sys2Proof.Machine.execPldmMonitoring s
  | .frequencyStepChange n => Sys2Proof.Machine.execFrequencyStepChange n s
  | .thermalStepDown => Sys2Proof.Machine.execThermalStepDown s
  | .thermalTrip => Sys2Proof.Machine.execThermalTrip s
  | .powerLimitTrip => Sys2Proof.Machine.execPowerLimitTrip s
  | .thermalClear => Sys2Proof.Machine.execThermalClear s
  | .peerAccessRefusal n id beat => Sys2Proof.Machine.execPeerAccessRefusal n id beat s
  | .coreTriggerArrival k => Sys2Proof.Machine.execCoreTriggerArrival k s
  | .retransmitRequest k => Sys2Proof.Machine.execRetransmitRequest k s
  | .flushingReadComplete n id => Sys2Proof.Machine.execFlushingReadComplete n id s
  | .sramClearComplete => Sys2Proof.Machine.execSramClearComplete s
  | .negotiateAlgorithms who offersSlhDsa => Sys2Proof.Machine.execNegotiateAlgorithms who offersSlhDsa s

end Sys2Proof.Machine
end

