-- ==== Sys2Proof/Machine/Disturb.lean ====
section
/-! DEFINITION. What happens to the device that is no row of the opcode table: uncorrectable words and failing reads, failing cached
lines, evictions, lateness (R16, R43, R83, R214, R240, R269, R271, R278, R283, R378, R393, R434, R463), the host's own writes to its
memory and its reads of BAR 0 and BAR 2 (R442), and what peers, switches and links do (R319, R327, R330, R341, R347). -/
namespace Sys2Proof.Machine

/-- Add to a list without repeats. -/
def addOnce (l : List Nat) (x : Nat) : List Nat := if l.contains x then l else l ++ [x]

/-- R240: a scratchpad word becomes uncorrectable. -/
def Core.spoil (c : Core) (a : Nat) : Core :=
  if a < spadSize then
    { c with spadBad := SMap.set .clean c.spadBad (wordKey a) ((SMap.get .clean c.spadBad (wordKey a)).join .element) }
  else c

/-- A value whose 32-bit word `w` has gone bad where it is used as a scale: scale poison (R83, R467). -/
def Val.spoilScale (v : Val) (w : Nat) : Val := { v with sp := v.sp ||| BitVec.ofNat 64 (2 ^ w) }

/-- Word `w` of the landed entry `k` of a queue or unit port goes bad where it is used as a scale (R83). -/
def Arch.spoilEntry (a : Arch) (port k w : Nat) : Arch :=
  let vs := SMap.get [] a.queues port
  { a with queues := SMap.set [] a.queues port (vs.modify k fun v => v.spoilScale w) }

/-- Word `w` of last-result latch `l`, 0-7, goes bad where it is used as a scale (R83). -/
def Arch.spoilLatch (a : Arch) (l w : Nat) : Arch :=
  if l < 8 then { a with latches := SMap.set .zero a.latches l ((SMap.get .zero a.latches l).spoilScale w) } else a

/-- Word `w` of the value in flight at place `k` goes bad where it is used as a scale (R83). -/
def Arch.spoilFlight (a : Arch) (k w : Nat) : Arch :=
  { a with inflight := a.inflight.modify k fun i =>
      match (i.act.value 0).bind fun v => i.act.withValue 0 (v.spoilScale w) with
      | some x => { i with act := x }
      | none => i }

/-- Cycles in which every core is stalled; a core that runs and has stopped at its `mx.pair` counts them (R157, R222). -/
def State.pass (s : State) (k : Nat) : State :=
  { s with phys := s.phys + k
           cores := s.cores.map fun (n, c) =>
             (n, { (if s.budgetRuns c then { c with budget := c.budget - k } else c) with
                   pairWait := if c.run == .running && (match c.dueLt with | some x => x ≤ c.a.lt && s.waitsPair c x | none => false)
                     then c.pairWait + k else c.pairWait }) }

/-- A disturbance of one core. -/
def State.disturbCore (s : State) (n : Nat) (f : Core → Core) : Res := .next (s.modCore n f)

/-- A peer package's refusal of the `pk.snd` of a copy is on its way to the core (R327, R347). -/
def State.peerRefusal (s : State) (n id : Nat) (code : TrapCode) : Res :=
  let c := s.core n
  match c.copy? id, s.kernelOf c with
  | some k, some kr => match k.op with
    | .pkSnd d .. =>
      eventIf s (s.hears && k.state == .started && s.pkAway k && (code == .range || code == .groupStale))
        { s.dropSent (beatNumber n id 0) with net := s.net ++ [
            { kind := .refusal code (pkAddr d), src := some (c.lcore, id), dst := c.lcore, kernel := (kr.queue, kr.cid) }] }
    | _ => notNow s
  | _, _ => notNow s

/-- What a disturbance changes; one that cannot happen in this state is refused (log 10). -/
def State.disturb (s : State) : Disturb → Res
  | .evict n line => s.disturbCore n fun c => { c with icache := SMap.erase c.icache line }
  | .corrupt n line k => s.disturbCore n fun c => { c with corrupt := c.corrupt ++ [(line, k)] }
  | .spadError n a => s.disturbCore n fun c => c.spoil a
  | .readError n a => s.disturbCore n fun c => { c with soft := addOnce c.soft (wordKey a) }
  | .scaleError n key => s.disturbCore n fun c => { c with mx := { c.mx with badScale := markKey c.mx.badScale key true } }
  | .queueError n port k w => s.disturbCore n fun c => { c with a := c.a.spoilEntry port k w }
  | .latchError n l w => s.disturbCore n fun c => { c with a := c.a.spoilLatch l w }
  | .flightError n k w => s.disturbCore n fun c => { c with a := c.a.spoilFlight k w }
  | .hbmError b => eventIf s (64 * b < doorbellBase) { s with hbmBad := addOnce s.hbmBad b }
  | .hbmCorrectable b => eventIf s (64 * b < doorbellBase) { s with hbmWeak := addOnce s.hbmWeak b }
  | .seqError n key => s.disturbCore n fun c => { c with seq := c.seq.mark key true }
  | .residue n => s.disturbCore n fun c => { c with mx := { c.mx with residue := true } }
  | .slow n b => s.disturbCore n fun c => { c with slow := b }
  | .tlbParity n g => s.disturbCore n fun c => { c with tlb := c.tlb.filter fun t => t.granule != g }
  | .critical n a => s.disturbCore n fun c => { c with disagree := addOnce c.disagree a }
  | .hostWrite a b => .next { s with hostMem := writeByte s.hostMem a b }
  | .hostRead bar2 off tee => s.hostRead bar2 off tee
  | .linkAck k => eventIf s (s.retransmit[k]?.any fun e => (s.groupFor e).isSome) { s with retransmit := s.retransmit.eraseIdx k }
  | .replay k => eventIf s (k < s.rebuilt.length) { s with rebuilt := s.rebuilt.eraseIdx k }
  | .pkRefused n id code => s.peerRefusal n id code
  | .chunkDiffered n seq => if s.hears then s.disturbCore n fun c => c.ampMismatch seq else notNow s
  | .peerSetup q h d => s.peerSetup q h d
  | .peerSetupDone h ok => s.peerSetupDone h ok
  | .peerFree h => s.peerFree h
  | .peerNews h x => s.peerNews h x
  | .peerHandles p hs => eventIf s s.hears { s with peerPlans := SMap.set [] s.peerPlans p hs }
  | .profile id b => .next { s with profiles := if b then addOnce s.profiles id else s.profiles.filter fun x => x != id }
  | .frontError deimos => .next (s.setFront deimos { s.front deimos with sound := false })
  | .pass k => .next (s.pass k)

end Sys2Proof.Machine
end

