-- ==== Sys2Proof/Machine/Place.lean ====
section
/-! DEFINITION. Placing a program of one bundle on a core, as a launch would leave it (log 3): the line with its descriptor
(R42, R43), the code window (R264), and the core at LT 0 (R25). -/
namespace Sys2Proof.Machine

/-- The line descriptor of words 1-15 with SEGE and SSTART set (R42, R43). -/
def descriptorFor (ws : List Word) : Word :=
  let n := (startsFrom 0 1 false ws).length
  BitVec.ofNat 32 (0xC5 <<< 24 + (n % 16) <<< 20 + 1 <<< 19 + 1 <<< 18 + foldOf ws)

/-- `halt` (R164), `nop 0` with its chain bit set (R162), `vmov zero, zero` (R117): words that stand beside a placed one. -/
def wordHalt : Word := 0x1D800000#32
def wordNopChained : Word := 0x9B800000#32
def wordVmov : Word := 0x04E0C000#32

/-- A word that may follow a chained word: a target for each prefix (R53-R56), else `vmov zero, zero`. -/
def followWord (w : Word) : Word :=
  match (w.extractLsb' 23 8).toNat with
  | 0x01 => 0x05600000#32   -- movi zero, 0
  | 0x02 => 0x2060C0C0#32   -- vadd zero, zero, zero
  | 0x03 => 0x5180C0C0#32   -- snd zero, zero
  | 0x04 => 0x4800C0C0#32   -- cp.get q0, zero, zero
  | _ => wordVmov

/-- The bundle around a word: a suffix word stands after a `nop` (R57), a chained word before its follower (R37). -/
def bundleAround (w : Word) : List Word :=
  (if (w.extractLsb' 23 8).toNat == 0x05 then [wordNopChained] else []) ++ [w] ++ (if w.msb then [followWord w] else [])

/-- The sixteen words of a line that begins with a bundle and is padded with `halt`. -/
def lineAround (w : Word) : List Word :=
  let ws := bundleAround w
  let body := ws ++ List.replicate (15 - ws.length) wordHalt
  descriptorFor body :: body

/-- The code window: KIND 1, RD, 4 KiB (R264). -/
def codeWindow : BitVec 64 := BitVec.ofNat 64 (1 <<< 62 + 1 <<< 60 + 4096)

/-- Window address of the placed line: window 63, offset 0. -/
def codeBase : Nat := 63 <<< 42

/-- The kernel record of a placed one-core kernel. -/
def placedKernel (n : Nat) : Kernel :=
  { queue := 0, cid := 0, index := 0, ctx := 0, state := .running, n := 1, place := [n], dies := [dieOf n], used := [pairOf n],
    halts := 0, irq := false, groups := [], end_ := none, rdvDone := [], steps := 0, codes := [], session := false, modified := false, held := [],
    context := [], since := 0 }

/-- A core about to issue the bundle at an address as its kernel's first. -/
def Core.placeAt (c : Core) (n pc : Nat) : Core :=
  let a : Arch :=
    { c.a with pc := pc, entry := .direct, again := false, taken := none, loops := [], inflight := [], superNext := true }
  { c with
    run := .running, kernel := some (0, 0), lcore := 0, die := dieOf n, budget := 2 ^ 40, launchBudget := 2 ^ 40
    win0 := SMap.set 0 (SMap.set 0 c.win0 63 codeWindow) 0 codeWindow
    win1 := SMap.set 0 (SMap.set 0 c.win1 63 0) 0 0
    icache := [], corrupt := [], refetch := [], ahead := none, absent := [], entryPc := pc, twin := none
    a := a
    ck := a }

/-- A state whose current core fetches a word next. -/
def State.placeWord (s : State) (w : Word) : State :=
  let n := s.cur
  let s := s.hbmWrite none 0 ((lineAround w).flatMap fun x => toBytes 4 x.toNat)
  let s := { s with agenda := [], kernels := placedKernel n :: s.kernels.filter fun k => !(k.queue == 0 && k.cid == 0) }
  s.setCore n ((s.core n).placeAt n (codeBase + 4))

end Sys2Proof.Machine
end

