-- ==== Sys2Proof/Machine/Step.lean ====
section
/-! DEFINITION. One step of the package (log 2): the next entry of the agenda, an event of the opcode table, a physical
disturbance, a turn of a core or of a front-end core; with an empty agenda a turn of the current core. -/
namespace Sys2Proof.Machine

/-- Whether an instruction is an instruction word and not an event or command. -/
def isWordInstr (i : Instr) : Bool := i.pipe.isSome || i.pfxKind.isSome || i.isSfx

/-- What the front-end has noted after an event (R425, R434). -/
def noted : Res → Res
  | .next s => .next s.afterFront
  | r => r

/-- One step. -/
def step (s : State) : Host.Outcome State Fault Refusal :=
  match s.agenda with
  | [] => s.turn exec s.cur
  | .core n :: r => ({ s with agenda := r } : State).turn exec n
  | .front d :: r => ({ s with agenda := r } : State).frontTurn exec d
  | .event i :: r =>
    let t : State := { s with agenda := r }
    if isWordInstr i then notNow t else noted (exec i t)
  | .disturb d :: r => noted (({ s with agenda := r } : State).disturb d)

/-- The state with a word of the opcode table placed where the current core fetches next (log 3); rows of events and
commands have no bits. -/
def State.withFetchWord (s : State) (nbits w : Nat) : State :=
  if nbits = 32 then s.placeWord (BitVec.ofNat 32 w) else s

end Sys2Proof.Machine
end

