-- ==== Sys2Proof/Safety.lean ====
section
/-! DEFINITION. What the statements say of a step, in their own words: a word that completes and what it puts in flight, the operands
it reads, the bytes an item stores to, and the invariant that every step keeps. -/
namespace Sys2Proof.Machine

/-! ## A word that completes -/

/-- The core on which the next word issues; until the word moves it, it retires at its issue LT (R57). -/
def State.issuing (s : State) : Core := (s.core s.cur).retireAt (s.core s.cur).now

/-- The checks of R58 on the word itself let it issue. -/
abbrev Passes (i : Instr) (s : State) : Prop := Instr.wordTrap? i (s.core s.cur) = none

/-- The word completes: `exec` answers a next state in which its own core alone has changed. The core is `c` but for what
every word leaves behind it: its prefixes are spent, its pipe is counted, and a V word reserves its V pipe (R39, R52, R167). -/
def Completes (i : Instr) (s : State) (c : Core) : Prop :=
  exec i s = .next (s.setCore s.cur (c.spent i (Instr.occupancy i (s.core s.cur).fmt)))

/-- The issuing core with the queues as the operands left them, some entries put in flight, and the retirement of the word at an LT
(R57); everything else of the core stands as it was. -/
def State.adding (s : State) (qs : SMap (List Val)) (es : List Item) (lt : Nat) : Core :=
  let c := s.issuing
  { c with cx := { c.cx with retire := .at_ lt }
           a := { c.a with queues := qs, inflight := c.a.inflight ++ es } }

/-- The word completes, and nothing has changed but the queues its operands popped and what it puts in flight. -/
def Delivers (i : Instr) (s : State) (qs : SMap (List Val)) (es : List Item) (lt : Nat) : Prop :=
  Completes i s (s.adding qs es lt)

/-- Something that the word at hand puts in flight, due at an LT (R16, R105). -/
def State.entry (s : State) (p : Pipe) (lt : Nat) (dst : Option Port) (act : Act) : Item :=
  let c := s.issuing
  { lt := lt, issue := c.now, pipe := p, word := c.cx.word, dst := dst, ready := !c.slow, act := act }

/-- The slot a destination reserves; `zero` reserves none (R62, R105). -/
def destSlot (d : Port) : Option Port := if Port.reserves d then some d else none

/-- A result on its way to a destination and a latch, `lat` LTs after issue (R105, R109). -/
def State.result (s : State) (p : Pipe) (l : Latch) (d : Port) (v : Val) (lat : Nat) : Item :=
  s.entry p (s.issuing.now + lat) (destSlot d) (.land d (some l) v)

/-- A scalar result of pipe S. -/
def State.resultS (s : State) (d : Port) (v : W64) (lat : Nat) : Item := s.result .s .s d (Val.ofScalar v) lat

/-- A vector result of the issuing V pipe with its flags (R93, R172). -/
def State.resultV (s : State) (d : Port) (r : Val × Flags) (lat : Nat) : List Item :=
  let p := s.issuing.vPipe
  s.result p p.latch d r.1 lat :: if r.2 == 0 then [] else [s.entry p (s.issuing.now + lat) none (.flags r.2)]

/-- If its checks pass, the word completes with a scalar result `lat` LTs after issue. -/
def GivesS (i : Instr) (s : State) (qs : SMap (List Val)) (d : Port) (v : W64) (lat : Nat) : Prop :=
  Passes i s → Delivers i s qs [s.resultS d v lat] (s.issuing.now + lat)

/-- If its checks pass, the word completes with a vector result, and its flags, `lat` LTs after issue. -/
def GivesV (i : Instr) (s : State) (qs : SMap (List Val)) (d : Port) (r : Val × Flags) (lat : Nat) : Prop :=
  Passes i s → Delivers i s qs (s.resultV d r lat) (s.issuing.now + lat)

/-! ## Items in flight -/

/-- A core with more in flight; everything else of it stands as it was. -/
def Core.withItems (c : Core) (is : List Item) : Core := { c with a := { c.a with inflight := c.a.inflight ++ is } }

/-- What an item of a core puts in flight in its place: due at another LT, the slot it reserves, what it does then (R105, R109). -/
def Core.successor (c : Core) (i : Item) (lt : Nat) (dst : Option Port) (act : Act) : Item :=
  { i with lt := lt, ready := !c.slow, dst := dst, act := act }

/-- A read value on its way to its destination and the latch of its pipe (R109). -/
def Core.lands (c : Core) (i : Item) (lt : Nat) (d : Port) (v : Val) : Item := c.successor i lt i.dst (.land d (some i.pipe.latch) v)

/-- An item in flight once item `i` has given its flags to the entry that carries those of its pass (R93, R203). -/
def Item.gathers (i : Item) (f : Flags) (j : Item) : Item :=
  match j.act with
  | .flags g => if j.word = i.word ∧ j.issue = i.issue ∧ j.pipe = i.pipe then { j with act := .flags (g ||| f) } else j
  | _ => j

/-- The value of the aligned words of a scratchpad element of width 32 or 64 (R3). -/
def Core.spadElem (c : Core) (w a : Nat) : Nat := ofDigits 32 ((c.spadWords a (w / 32)).map fun p => p.w.toNat)

/-- The words of an element of width 32 or 64, of a kind (R3). -/
def elemWords (w v : Nat) (k : Kind) : List PWord := (upto (w / 32)).map fun j => { PWord.ofNat (v / 2 ^ (32 * j)) with k := k }

/-- The element at an address, clean in the scratchpad, as lane `m` of a `vatom` finds it: what the lanes below `m` that touch it have
made of it, in ascending order, and its kind: that of the operand for SWAP, else the union (R245, R252). -/
def Core.vatomOld (c : Core) (fmt : Nat) (ls : List (Option (Nat × BitVec 3))) (v : Val) (m a : Nat) : Nat × Kind :=
  let t := fVtype fmt
  let w := widthOf t
  (upto m).foldl (fun old l => match ls[l]? with
    | some (some (b, op)) =>
      if b = a then ((atomElem op t (fRnd fmt) old.1 (v.elem w l)).1, if op = 6 then v.elemKind w l else (v.elemKind w l).join old.2)
      else old
    | _ => old) (c.spadElem w a, .clean)

/-! ## Events -/

/-- A register of BAR 0 or BAR 2 is written while the front-end answers and the TDI state serves the request (R442). -/
abbrev State.answers (s : State) (tee : Bool) : Prop := s.ready = true ∧ s.recovery = false ∧ s.tdi.serves tee = true

/-- The command at the head of a queue that the front-end serves next, well formed, with its code (R419, R425). -/
abbrev State.atHead (s : State) (q code : Nat) (ws : List W64) : Prop :=
  s.ready = true ∧ s.recovery = false ∧ s.head q = some (.command ws) ∧ s.nextQueue = some q ∧
  commandOk q (s.queue q).head ws = true ∧ cmdFld ws 0 7 0 = code

/-- A core and the kernel whose core it is. -/
abbrev State.runsFor (s : State) (n : Nat) (k : Kernel) : Prop := s.kernelOf (s.core n) = some k

/-! ## The invariant -/

/-- What every step keeps of the package: its memories in canonical form, a legal BAR size and frequency step, the step held at 0
while the limit of R451 lasts, and no front-end that answers in recovery or on a scrapped device (R418, R438, R445, R450, R451). -/
structure State.Inv (s : State) : Prop where
  hbm : Memory.wf s.hbm = true
  host : Memory.wf s.hostMem = true
  buffer : Memory.wf s.dbgbuf = true
  bar : 30 ≤ s.bar4 ∧ s.bar4 ≤ 39
  step : s.freq ≤ 7
  held : s.thermal = true → s.freq = 0
  up : s.ready = true → s.recovery = false ∧ s.lifecycle ≠ .scrapped

/-! ## Operands that can be read (R104, R107): their values, and the queues after them -/

def ReadsS (s : State) (a : Src) (x : W64) (qs : SMap (List Val)) : Prop :=
  ∃ c, s.issuing.readS a = .ok (x, c) ∧ c.a.queues = qs

def ReadsV (s : State) (a : Src) (x : Val) (qs : SMap (List Val)) : Prop :=
  ∃ c, s.issuing.readV a = .ok (x, c) ∧ c.a.queues = qs

def ReadsSS (s : State) (a b : Src) (x y : W64) (qs : SMap (List Val)) : Prop :=
  ∃ c c', s.issuing.readS a = .ok (x, c) ∧ c.readS b = .ok (y, c') ∧ c'.a.queues = qs

def ReadsVV (s : State) (a b : Src) (x y : Val) (qs : SMap (List Val)) : Prop :=
  ∃ c c', s.issuing.readV a = .ok (x, c) ∧ c.readV b = .ok (y, c') ∧ c'.a.queues = qs

def ReadsVS (s : State) (a b : Src) (x : Val) (y : W64) (qs : SMap (List Val)) : Prop :=
  ∃ c c', s.issuing.readV a = .ok (x, c) ∧ c.readS b = .ok (y, c') ∧ c'.a.queues = qs

def ReadsSV (s : State) (a b : Src) (x : W64) (y : Val) (qs : SMap (List Val)) : Prop :=
  ∃ c c', s.issuing.readS a = .ok (x, c) ∧ c.readV b = .ok (y, c') ∧ c'.a.queues = qs

end Sys2Proof.Machine
end

