-- ==== Sys2Proof/Certificates/Slice0/Obligations.lean ====
section
/-! DEFINITION. The statements for the provers. -/
open Sys2Proof Sys2Proof.Machine

/-! ## Scalar words -/

/-- R131, R132: the two-operand integer words complete with the result their rule names, at the destination and in l.s, and
leave all else as it was. -/
def Obligations.IntegerArithmeticResults : Prop :=
  ∀ (s : State) (ch : Bool) (d : Port) (a b : Src) (x y : W64) (qs : SMap (List Val)), ReadsSS s a b x y qs →
    GivesS (.add ch d a b) s qs d (x + y) 1 ∧
    GivesS (.sub ch d a b) s qs d (x - y) 1 ∧
    GivesS (.mul ch d a b) s qs d (x * y) 3 ∧
    GivesS (.mulh ch d a b) s qs d ((x.signExtend 128 * y.signExtend 128).extractLsb' 64 64) 3 ∧
    GivesS (.and ch d a b) s qs d (x &&& y) 1 ∧
    GivesS (.or ch d a b) s qs d (x ||| y) 1 ∧
    GivesS (.xor ch d a b) s qs d (x ^^^ y) 1 ∧
    GivesS (.min ch d a b) s qs d (if x.toInt ≤ y.toInt then x else y) 1 ∧
    GivesS (.max ch d a b) s qs d (if x.toInt ≤ y.toInt then y else x) 1

/-- R133, R135, R138: shifts by any count, selection by P, and the field that `bfx` extracts, bit by bit. -/
def Obligations.ShiftSelectFieldResults : Prop :=
  ∀ (s : State) (ch : Bool) (d : Port) (a b : Src) (x y : W64) (qs : SMap (List Val)), ReadsSS s a b x y qs →
    GivesS (.shl ch d a b) s qs d (x <<< y.toNat) 1 ∧
    GivesS (.shr ch d a b) s qs d (x >>> y.toNat) 1 ∧
    GivesS (.sra ch d a b) s qs d (x.sshiftRight y.toNat) 1 ∧
    GivesS (.sel ch d a b) s qs d (if s.issuing.a.sys.p then x else y) 1 ∧
    ∃ r : W64, GivesS (.bfx ch d a b) s qs d r 1 ∧
      ∀ k < 64, r.getLsbD k =
        let pos := (y.extractLsb' 0 6).toNat
        let len := Nat.min (y.extractLsb' 8 7).toNat (64 - pos)
        if k < len then x.getLsbD (pos + k) else decide (0 < len) && y.getLsbD 15 && x.getLsbD (pos + len - 1)

/-- R134: a compare delivers 1 or 0 to its destination and l.s, and the same bit to P. -/
def Obligations.CompareResults : Prop :=
  ∀ (s : State) (ch : Bool) (d : Port) (a b : Src) (x y : W64) (qs : SMap (List Val)), ReadsSS s a b x y qs →
    let both (r : Bool) : List Item :=
      [s.resultS d (if r then 1 else 0) 1, s.entry .s (s.issuing.now + 1) none (.setP r)]
    (Passes (.ceq ch d a b) s → Delivers (.ceq ch d a b) s qs (both (decide (x = y))) (s.issuing.now + 1)) ∧
    (Passes (.clt ch d a b) s → Delivers (.clt ch d a b) s qs (both (decide (x.toInt < y.toInt))) (s.issuing.now + 1)) ∧
    (Passes (.cltu ch d a b) s → Delivers (.cltu ch d a b) s qs (both (decide (x.toNat < y.toNat))) (s.issuing.now + 1))

/-- R116, R118, R136, R137: moves, immediates and counts of one operand. The immediate of a word (R53) is its own field,
sign-extended, or the field with the payload of `pfx.imm` above it. -/
def Obligations.UnaryScalarResults : Prop :=
  (∀ (s : State) (ch : Bool) (d : Port) (a : Src) (x : W64) (qs : SMap (List Val)), ReadsS s a x qs →
      GivesS (.mov ch d a) s qs d x 1 ∧
      (∀ i : BitVec 8, GivesS (.addi ch d a i) s qs d (x + BitVec.ofInt 64 (s.issuing.immS 8 i.toNat)) 1) ∧
      (∀ i : BitVec 16, GivesS (.movi ch d i) s s.issuing.a.queues d (BitVec.ofInt 64 (s.issuing.immS 16 i.toNat)) 1) ∧
      (∃ n : Nat, n ≤ 64 ∧ (∀ k < n, x.getLsbD (63 - k) = false) ∧ (n < 64 → x.getLsbD (63 - n) = true) ∧
        GivesS (.clz ch d a) s qs d (BitVec.ofNat 64 n) 1) ∧
      GivesS (.popc ch d a) s qs d (BitVec.ofNat 64 ((List.range 64).filter fun k => x.getLsbD k).length) 1) ∧
  ∀ c : Core,
    (c.cx.imm = none → (∀ i : BitVec 8, c.immS 8 i.toNat = i.toInt) ∧ (∀ i : BitVec 15, c.immS 15 i.toNat = i.toInt) ∧
      ∀ i : BitVec 16, c.immS 16 i.toNat = i.toInt ∧ c.immU 16 i.toNat = i.toNat) ∧
    ∀ p, c.cx.imm = some p → (∀ i : BitVec 8, c.immS 8 i.toNat = (p ++ i).toInt) ∧
      (∀ i : BitVec 15, c.immS 15 i.toNat = (p ++ i).toInt) ∧
      ∀ i : BitVec 16, c.immS 16 i.toNat = (p ++ i).toInt ∧ c.immU 16 i.toNat = (p ++ i).toNat

/-- R117, R119, R120: queue words and vector moves. -/
def Obligations.QueueWordResults : Prop :=
  ∀ (s : State) (ch : Bool) (d q : Port),
    let held := s.issuing.a.landed q
    let reserved := (s.issuing.a.inflight.filter fun i => i.dst == some q && i.issue != s.issuing.now).length
    (∀ n : BitVec 8, n.toNat ≤ held.length →
      GivesS (.qdrop ch q n) s (SMap.set [] s.issuing.a.queues (Port.num q) (held.drop n.toNat)) .zero
        (BitVec.ofNat 64 (held.length - n.toNat)) 1) ∧
    (GivesS (.qlen ch d q) s s.issuing.a.queues d
        (BitVec.ofNat 64 (held.length % 16 + 16 * (reserved % 16) + 256 * Port.depth q)) 1) ∧
    ∀ (a : Src) (v : Val) (qs : SMap (List Val)), ReadsV s a v qs → GivesV (.vmov ch d a) s qs d (v, 0) 1

/-- R121, R122: broadcast, extraction and insertion of a unit. -/
def Obligations.BroadcastExtractInsertResults : Prop :=
  ∀ (s : State) (ch : Bool) (d : Port) (a b : Src),
    let t := fVtype s.issuing.fmt
    let u := unitWidth t
    (∀ x qs, ReadsS s a x qs → t ≠ 12 →
      GivesV (.vbcast ch d a b) s qs d (Val.tabulate (widthOf t) fun _ => (x.toNat % 2 ^ widthOf t, .clean), 0) 2) ∧
    (∀ x y qs, ReadsSS s a b x y qs → t = 12 →
      GivesV (.vbcast ch d a b) s qs d (Val.tabulate 128 fun _ => (x.toNat + 2 ^ 64 * y.toNat, .clean), 0) 2) ∧
    (∀ (n : BitVec 8) v qs, ReadsV s a v qs → (v.elemKind u n.toNat).poisoned = false →
      Passes (.vext ch d a n) s →
      let x := v.elem u n.toNat
      let r : W64 := if t = 0 ∨ t = 2 ∨ t = 3 then BitVec.ofInt 64 (sextInt x u) else BitVec.ofNat 64 x
      Delivers (.vext ch d a n) s qs [s.result s.issuing.vPipe s.issuing.vPipe.latch d (Val.ofScalar r) 2]
        (s.issuing.now + 2)) ∧
    (∀ (n : BitVec 8) x qs v rest, ReadsS s a x qs → SMap.get [] qs (Port.num d) = v :: rest →
      GivesV (.vins ch d a n) s (SMap.set [] qs (Port.num d) rest) d (v.insertUnit u n.toNat x.toNat, 0) 2)

/-! ## Vector words -/

/-- R173: the element-by-element words complete with the function of their entry applied to every element, in the type in force. That
a zero product has the exclusive or of the signs is the model's choice (log 80). -/
def Obligations.VectorArithmeticResults : Prop :=
  ∀ (s : State) (ch : Bool) (d : Port) (a b : Src) (x y : Val) (qs : SMap (List Val)), ReadsVV s a b x y qs →
    let t := fVtype s.issuing.fmt
    let rm := fRnd s.issuing.fmt
    let w := widthOf t
    let lat := if isInt t then 2 else 4
    GivesV (.vadd ch d a b) s qs d (zipElems w x y (elemAdd t rm)) lat ∧
    GivesV (.vsub ch d a b) s qs d (zipElems w x y (elemSub t rm)) lat ∧
    GivesV (.vmul ch d a b) s qs d (zipElems w x y (elemMul t rm)) lat ∧
    GivesV (.vmin ch d a b) s qs d (zipElems w x y fun p q => (elemMinMax false t p q, 0)) 2 ∧
    GivesV (.vmax ch d a b) s qs d (zipElems w x y fun p q => (elemMinMax true t p q, 0)) 2 ∧
    GivesV (.vand ch d a b) s qs d (zipElems w x y fun p q => (p &&& q, 0)) 2 ∧
    GivesV (.vor ch d a b) s qs d (zipElems w x y fun p q => (p ||| q, 0)) 2 ∧
    GivesV (.vxor ch d a b) s qs d (zipElems w x y fun p q => (p ^^^ q, 0)) 2 ∧
    GivesV (.vshl ch d a b) s qs d (zipElems w x y fun p q => (p * 2 ^ q % 2 ^ w, 0)) 2 ∧
    GivesV (.vshr ch d a b) s qs d (zipElems w x y fun p q => (elemShr t p q, 0)) 2

/-- R174-R176: fused multiply-add with the addend popped from its destination, compares with M, selection by M. That a zero product
enters its sum with the exclusive or of the signs is the model's choice (log 80). -/
def Obligations.FusedCompareSelectResults : Prop :=
  ∀ (s : State) (ch : Bool) (d : Port) (a b : Src) (x y : Val) (qs : SMap (List Val)), ReadsVV s a b x y qs →
    let t := fVtype s.issuing.fmt
    let rm := fRnd s.issuing.fmt
    let w := widthOf t
    let fused (sub : Bool) (z : Val) : Val × Flags :=
      vecOf w fun i => (elemFma sub t rm (x.elem w i) (y.elem w i) (z.elem w i),
        ((x.elemKind w i).join (y.elemKind w i)).join (z.elemKind w i))
    let lat := if isInt t then 2 else 4
    let compared (f : Nat → Nat → Bool) : List Item :=
      let rs := (upto (2048 / w)).map fun i => f (x.elem w i) (y.elem w i)
      s.resultV d (Val.ofElems w (rs.map fun r => (if r then 2 ^ w - 1 else 0, .clean)), 0) 2 ++
        [s.entry s.issuing.vPipe (s.issuing.now + 2) none (.setM (BitVec.ofNat 256 (ofBits rs)))]
    (∀ z rest, SMap.get [] qs (Port.num d) = z :: rest →
      GivesV (.vfma ch d a b) s (SMap.set [] qs (Port.num d) rest) d (fused false z) lat ∧
      GivesV (.vfms ch d a b) s (SMap.set [] qs (Port.num d) rest) d (fused true z) lat) ∧
    ((x.anyKind.join y.anyKind).poisoned = false →
      (Passes (.vceq ch d a b) s → Delivers (.vceq ch d a b) s qs (compared (elemEq t)) (s.issuing.now + 2)) ∧
      (Passes (.vclt ch d a b) s → Delivers (.vclt ch d a b) s qs (compared (elemLt t)) (s.issuing.now + 2))) ∧
    GivesV (.vsel ch d a b) s qs d
      ((vecOf w fun i => ((if s.issuing.a.m.getLsbD i then x.elem w i else y.elem w i, 0),
        (x.elemKind w i).join (y.elemKind w i))).1, 0) 2

/-- R173, R177, R179, R181: one-operand vector words. That a group with a poisoned element comes out of `vcomp` poisoned as a whole
(log 26), and that exp2 and log2 round from 400 bits of their value (log 16), are the model's choices. -/
def Obligations.VectorUnaryResults : Prop :=
  ∀ (s : State) (ch : Bool) (d : Port) (a : Src) (x : Val) (qs : SMap (List Val)), ReadsV s a x qs →
    let t := fVtype s.issuing.fmt
    let rm := fRnd s.issuing.fmt
    let w := widthOf t
    let es := (upto (2048 / w)).map (x.elem w)
    let g := if fSparse s.issuing.fmt = 1 then 4 else 8
    GivesV (.vabs ch d a) s qs d (mapElems w x fun p => (elemAbs t p, 0)) 2 ∧
    GivesV (.vrcp ch d a) s qs d (mapElems w x (fnCode .rcp t rm)) 8 ∧
    GivesV (.vrsq ch d a) s qs d (mapElems w x (fnCode .rsq t rm)) 8 ∧
    GivesV (.vexp2 ch d a) s qs d (mapElems w x (fnCode .exp2 t rm)) 8 ∧
    GivesV (.vlog2 ch d a) s qs d (mapElems w x (fnCode .log2 t rm)) 8 ∧
    GivesV (.vred ch d a) s qs d (leading w [((sumElems t rm es).1, x.anyKind)], (sumElems t rm es).2) 6 ∧
    GivesV (.vredx ch d a) s qs d
      (leading w [((argMax t es).1, x.anyKind), ((argMax t es).2, x.anyKind)], 0) 6 ∧
    GivesV (.vcomp ch d a) s qs d
      (Val.ofFields (((upto (2048 / w / g)).map (compGroup t g x)).flatten), 0) 4

/-- R180, R183: permutation, rotation of lanes, hash. -/
def Obligations.PermuteHashResults : Prop :=
  ∀ (s : State) (ch : Bool) (d : Port) (a b : Src),
    let w := widthOf (fVtype s.issuing.fmt)
    let n := 2048 / w
    (∀ x y qs, ReadsVV s a b x y qs →
      GivesV (.vperm ch d a b) s qs d
        (Val.tabulate w fun i => (x.elem w (y.elem w i % n), (x.elemKind w (y.elem w i % n)).join (y.elemKind w i)), 0) 3) ∧
    (∀ x k qs, ReadsVS s a b x k qs →
      GivesV (.vlane ch d a b) s qs d
        (Val.tabulate w fun i => (x.elem w ((i + n - k.toNat % n) % n), x.elemKind w ((i + n - k.toNat % n) % n)), 0) 2 ∧
      GivesV (.vhash ch d a b) s qs d
        (Val.tabulate 32 fun i => (hashLane (x.elem 32 i) (k.toNat ||| 1), x.elemKind 32 i), 0) 3)

/-- R185, R190-R195: conversions of one part; the part number must name a part. That a scale word with element poison gives scale
poison alone (log 103), the flags of an infinity or NaN that `vcvts` converts (log 81), the sign of a zero that `vquant` or `vdequant`
gives of a zero element (log 80) and the sign of an infinity that `vdequant` gives (log 114) are the model's choices. -/
def Obligations.ConversionResults : Prop :=
  ∀ (s : State) (ch : Bool) (d : Port) (a b : Src),
    let ts := fVtype s.issuing.fmt
    let td := fCtype s.issuing.fmt
    let rm := fRnd s.issuing.fmt
    let ws := widthOf ts
    let wd := widthOf td
    (∀ x p qs, ReadsVS s a b x p qs → p.toNat < partCount ws wd →
      GivesV (.vcvt ch d a b) s qs d (convertPart ws wd p.toNat x (fun _ => convElem ts td rm) fun _ => .clean) 4 ∧
      GivesV (.vpack ch d a b) s qs d (convertPart ws wd p.toNat x (fun _ e => (e % 2 ^ wd, 0)) fun _ => .clean) 4 ∧
      GivesV (.vunpack ch d a b) s qs d
        (convertPart ws wd p.toNat x (fun _ e => (if isSigned ts then wrapInt (intVal ts e) wd else e, 0)) fun _ => .clean) 4) ∧
    (∀ x q qs, ReadsVV s a b x q qs → (q.kind 63).poisoned = false → q.part < partCount ws wd →
      GivesV (.vquant ch d a b) s qs d
        (convertPart ws wd q.part x (fun j v => quantElem td rm (q.fine (j / 8)) q.band (valOf ts v))
          fun j => q.scalePoison (j / 8)) 6 ∧
      GivesV (.vdequant ch d a b) s qs d
        (convertPart ws wd q.part x (fun j v => dequantElem td rm (q.fine (j / 8)) q.band (valOf ts v))
          fun j => q.scalePoison (j / 8)) 4) ∧
    (∀ x q qs, ReadsVV s a b x q qs → (q.kind 48).poisoned = false →
      let p := bitsOf q.bits.toNat 1536 4
      p < partCount ws wd →
      GivesV (.vcvts ch d a b) s qs d
        (convertPart ws wd p x (fun j v => ditherCode td (q.elem 12 (j - p * (2048 / ws))) (valOf ts v))
          fun j => q.elemKind 12 (j - p * (2048 / ws))) 4) ∧
    (∀ x ctl qs, ReadsVS s a b x ctl qs → within ctl (ones 31 16 + ones 3 0) = true → fld ctl 3 0 < partCount ws wd →
      let fine (j : Nat) : Nat × Flags :=
        if bandUsable (fld ctl 31 16) then
          fineOf (FF.val .bf16 (fld ctl 31 16)) (qmax td) ((rangeFrom (8 * j) 8).map fun i => valOf ts (x.elem ws i))
        else (0, Flags.invalid)
      let field (j : Nat) : Field :=
        { lo := 8 * (fld ctl 3 0 * (2048 / ws) / 8 + j), len := 8, v := (fine j).1,
          k := Kind.joinAll ((rangeFrom (8 * j) 8).map (x.elemKind ws)) }
      GivesV (.vscale ch d a b) s qs d
        (Val.ofFields ({ lo := 2032, len := 16, v := fld ctl 31 16, k := .clean } ::
          { lo := 2016, len := 4, v := fld ctl 3 0, k := .clean } :: (upto (2048 / ws / 8)).map field),
          Flags.union ((upto (2048 / ws / 8)).map fun j => (fine j).2)) 4)

/-! ## Scratchpad words -/

/-- R127, R248-R250: a load whose address is aligned and inside the scratchpad, and whose range its guards let through, puts its
read in flight, one LT after issue (two for a gather); a misaligned `ld` traps with RANGE. -/
def Obligations.LoadResults : Prop :=
  ∀ (s : State) (ch : Bool) (d : Port) (a : Src) (i : BitVec 8),
    let t := s.issuing.now
    let w := widthOf (fVtype s.issuing.fmt)
    (∀ b qs, ReadsS s a b qs →
      let x := (b + BitVec.ofInt 64 (s.issuing.immS 8 i.toNat)).toNat
      Passes (.ld ch d a i) s →
      (x % 8 = 0 → x + 8 ≤ spadSize → s.issuing.readGuard [(t + 1, x, 8)] = .ok () →
        Delivers (.ld ch d a i) s qs [s.entry .s (t + 1) (destSlot d) (.readScalar x d (t + 4))] (t + 1)) ∧
      (x % 8 ≠ 0 → exec (.ld ch d a i) s = .next (takeTrap s.cur (s.issuing.wordTrap .range) s))) ∧
    (∀ b qs, ReadsS s a b qs →
      let x := (b + BitVec.ofInt 64 (64 * s.issuing.immS 8 i.toNat)).toNat
      Passes (.vld ch d a i) s → x % 64 = 0 → x + 256 ≤ spadSize → s.issuing.readGuard [(t + 1, x, 256)] = .ok () →
        Delivers (.vld ch d a i) s qs
          [s.entry s.issuing.vPipe (t + 1) (destSlot d) (.readVec x d (t + 6))] (t + 1)) ∧
    (∀ v qs ls as, ReadsV s a v qs → s.issuing.lanes v (2048 / w) = .ok ls →
      s.issuing.checkLanes ls (w / 8) (w / 8) (· == 0) = .ok as →
      s.issuing.readGuard ((laneAddrs as).map fun x => (t + 2, x, w / 8)) = .ok () → Passes (.vgath ch d a) s →
        Delivers (.vgath ch d a) s qs
          [s.entry s.issuing.vPipe (t + 2) (destSlot d) (.readLanes (w == 64) (as.map fun l => l.map Prod.fst) d (t + 10))]
          (t + 2))

/-- R127, R248-R250: a store whose address is aligned and inside the scratchpad, and whose range its guards let through, puts
its write in flight, one LT after issue, two for a scatter, which makes one write per lane that takes part. -/
def Obligations.StoreResults : Prop :=
  ∀ (s : State) (ch : Bool) (a b : Src),
    let t := s.issuing.now
    let w := widthOf (fVtype s.issuing.fmt)
    (∀ x v qs, ReadsSS s a b x v qs → x.toNat % 8 = 0 → x.toNat + 8 ≤ spadSize →
      s.issuing.writeGuard [(t + 1, x.toNat, 8)] = .ok () → Passes (.st ch a b) s →
        Delivers (.st ch a b) s qs [s.entry .s (t + 1) none (.write x.toNat (words64 v))] (t + 1)) ∧
    (∀ v x qs, ReadsVS s a b v x qs → x.toNat % 64 = 0 → x.toNat + 256 ≤ spadSize →
      s.issuing.writeGuard [(t + 1, x.toNat, 256)] = .ok () → Passes (.vst ch a b) s →
        Delivers (.vst ch a b) s qs [s.entry s.issuing.vPipe (t + 1) none (.write x.toNat (v.words 64))] (t + 1)) ∧
    (∀ v l qs ls as, ReadsVV s a b v l qs → s.issuing.lanes l (2048 / w) = .ok ls →
      s.issuing.checkLanes ls (w / 8) (w / 8) (· == 0) = .ok as →
      s.issuing.writeGuard ((laneAddrs as).map fun x => (t + 2, x, w / 8)) = .ok () → Passes (.vscat ch a b) s →
        Delivers (.vscat ch a b) s qs
          ((as.zip (upto as.length)).filterMap fun (e, i) =>
            e.map fun x => s.entry s.issuing.vPipe (t + 2) none (.write x.1 (v.elemWords w i))) (t + 2))

/-- R251, R252 with R244: an atomic opens a slot on each bank it touches and puts its read in flight. `rgath` (R253) reads one
row per LT from issue LT + 2, writes each one LT later, and delivers the list of its rows. That it reads no address lane at or above
its number of rows is the model's choice (log 104). -/
def Obligations.AtomicRowGatherResults : Prop :=
  (∀ (s : State) (ch : Bool) (d : Port) (a b : Src),
      let t := s.issuing.now
      let w := widthOf (fVtype s.issuing.fmt)
      let live := s.issuing.a.slots.filter fun (_, _, l, _) => t ≤ l
      (∀ desc v qs, ReadsSS s a b desc v qs →
        let x := fld desc 22 0
        let n := if desc.getLsbD 23 then 8 else 4
        desc.toNat < 2 ^ 27 → fld desc 26 24 ≠ 7 → x % n = 0 → s.issuing.atomicGuard [(t + 1, x, n)] = .ok () →
        s.issuing.slotTaken x (t + 1) (t + 3) = false → Passes (.atom ch d a b) s →
          let c := s.adding qs [s.entry .s (t + 1) (destSlot d) (.readAtom (BitVec.ofNat 3 (fld desc 26 24)) (desc.getLsbD 23) x v d)] (t + 3)
          Completes (.atom ch d a b) s
            { c with a := { c.a with slots := live ++ [(bankOf x, t + 1, t + 3, s.issuing.cx.word)] } }) ∧
      (∀ l v qs ls as, ReadsVV s a b l v qs → s.issuing.lanes l (2048 / w) = .ok ls →
        s.issuing.checkLanes ls (w / 8) (w / 8) (· != 7) = .ok as →
        s.issuing.atomicGuard ((laneAddrs as).map fun x => (t + 2, x, w / 8)) = .ok () →
        ((laneAddrs as).all fun x => !s.issuing.slotTaken x (t + 2) (t + 4)) = true → Passes (.vatom ch d a b) s →
          let banks := (laneAddrs as).foldl (fun (bs : List Nat) x => if bs.contains (bankOf x) then bs else bs ++ [bankOf x]) []
          let c := s.adding qs
            [s.entry s.issuing.vPipe (t + 2) (destSlot d) (.readVatom (BitVec.ofNat 32 s.issuing.fmt) as v d)] (t + 4)
          Completes (.vatom ch d a b) s
            { c with a := { c.a with slots := live ++ banks.map fun k => (k, t + 2, t + 4, s.issuing.cx.word) } })) ∧
  ∀ (s : State) (ch : Bool) (d : Port) (a b : Src) (l : Val) (ctl : W64) (qs : SMap (List Val)) (ls : List Nat)
    (as : List (Option (Nat × BitVec 3))), ReadsVS s a b l ctl qs →
    let t := s.issuing.now
    let e := s.issuing.fmt
    let rb := aBytes (fAtype e) (fSparse e)
    let slen := fld ctl 40 32
    let rows := fld ctl 29 24 + 1
    let dest := fld ctl 22 0
    let n := slen * widthOf (fAtype e) / 8
    within ctl (ones 40 32 + ones 29 24 + ones 22 0) = true → slen % 8 = 0 → 8 ≤ slen → slen ≤ aCount (fSparse e) →
    dest % 64 = 0 → dest + rb * rows ≤ spadSize → s.issuing.lanes l rows = .ok ls →
    s.issuing.checkLanes ls 4 n (· == 0) = .ok as → ((laneAddrs as).all fun x => !meets x n dest (rb * rows)) = true →
    s.issuing.moveGuard ((as.zip (upto rows)).filterMap fun (x, i) => x.map fun y => (t + 2 + i, y.1, n))
      ((upto rows).map fun i => (t + 3 + i, dest + rb * i, rb)) = .ok () → Passes (.rgath ch d a b) s →
      let p := s.issuing.vPipe
      Delivers (.rgath ch d a b) s qs
        ((as.zip (upto as.length)).map (fun (x, i) => s.entry p (t + 2 + i) none (.readRow (x.map Prod.fst) n rb (dest + rb * i))) ++
          [s.result p p.latch d (Val.ofNat (ofDigits 32 ((upto rows).map fun i => dest + rb * i))) 10]) (t + 2 + rows)

/-- R242, R254, R255: a buffer is declared EMPTY, moves from state to state as the code says, and is read; a state the code does
not start from traps with BUFFER_STATE. At its LT the descriptor is in force, and FILLED starts over where FILL found the buffer EMPTY;
all else stays. -/
def Obligations.BufferWordResults : Prop :=
  ∀ (s : State) (ch : Bool) (n : BitVec 7),
    let t := s.issuing.now
    let b := s.issuing.a.buf n.toNat
    let filled := SMap.get 0 s.issuing.filled n.toNat
    let becomes (b : Buf) (f : Nat) : List Item :=
      [s.entry .s (t + 1) none (.bufSet n.toNat b.base b.size b.state), s.resultS .zero (bufWord b f) 1]
    (∀ x y base size qs, ReadsSS s x y base size qs → b.state = 0 → base.toNat % 64 = 0 → size.toNat ≤ 131072 →
      base.toNat + 64 * size.toNat ≤ spadSize → base.toNat < spadSize →
      (∀ e ∈ s.issuing.a.bufs, e.1 = n.toNat ∨ e.2.size = 0 ∨ size = 0 ∨
        meets base.toNat (64 * size.toNat) e.2.base (64 * e.2.size) = false) →
      Passes (.bdecl ch n x y) s →
        Delivers (.bdecl ch n x y) s qs (becomes { base := base.toNat, size := size.toNat, state := 0 } filled) (t + 1)) ∧
    (∀ k : BitVec 8, Passes (.bset ch n k) s →
      let dest : Option Nat :=
        if k = 1 ∧ b.state = 0 then some 1 else if k = 2 ∧ b.state = 1 then some 2 else if k = 3 ∧ b.state = 2 then some 3
        else if k = 4 ∧ b.state = 3 then some 0 else if k = 5 then some 0 else none
      (∀ st, dest = some st →
        Delivers (.bset ch n k) s s.issuing.a.queues (becomes { b with state := st } (if k = 1 then 0 else filled)) (t + 1)) ∧
      (dest = none → exec (.bset ch n k) s = .next (takeTrap s.cur (s.issuing.wordTrap .bufferState) s))) ∧
    (∀ (d : Port) (m : BitVec 8),
      GivesS (.bstat ch d m) s s.issuing.a.queues d
        (bufWord (s.issuing.a.buf m.toNat) (SMap.get 0 s.issuing.filled m.toNat)) 1) ∧
    ∀ (c old : Core) (x : Nat) (i : Item) (k base size st : Nat), i.act = .bufSet k base size st →
      ∃ c', c.perform old x i = .ok c' ∧ c' = { c with a := { c.a with bufs := c'.a.bufs }, filled := c'.filled } ∧
        (∀ m, c'.a.buf m = if m = k then { base := base, size := size, state := st } else c.a.buf m) ∧
        ∀ m, SMap.get 0 c'.filled m = if m = k ∧ st = 1 ∧ (c.a.buf k).state = 0 then 0 else SMap.get 0 c.filled m

/-! ## Control words -/

/-- R139, R160: a branch is ordered, taken or not, where its target is aligned and no descriptor; `call` returns past its delay
bundles; `ret` goes where a port says. The target itself wraps modulo 2^48 (log 75), a `call` whose return address a line
decides that is not translated yet is held until it is (log 74), and a suffix on `call` arrives at issue LT (R159 over R57, log 131): the
model's choices. -/
def Obligations.BranchResults : Prop :=
  ∀ (s : State) (ch : Bool) (o : BitVec 15) (k : Src),
    let c := s.issuing
    let dest := c.target o
    c.a.taken = none →
    (dest % 64 ≠ 0 → dest % 4 = 0 →
      (Passes (.br ch o) s → Completes (.br ch o) s { c with cx := { c.cx with jump := some (dest, true, true) } }) ∧
      (∀ v qs, ReadsS s k v qs →
        let c := s.adding qs [] s.issuing.now
        let gone : Core := { c with cx := { c.cx with jump := some (dest, true, true) } }
        (Passes (.brz ch k o) s → Completes (.brz ch k o) s (if v = 0 then gone else c)) ∧
        (Passes (.brnz ch k o) s → Completes (.brnz ch k o) s (if v = 0 then c else gone))) ∧
      (∀ r, s.issuing.cx.after2 = .inl r → Passes (.call ch o) s →
        let c := s.adding s.issuing.a.queues [s.resultS .lk (BitVec.ofNat 64 r) 1] s.issuing.now
        Completes (.call ch o) s { c with cx := { c.cx with jump := some (dest, true, false) } }) ∧
      (∀ x, s.issuing.cx.after2 = .inr x → Passes (.call ch o) s → Completes (.call ch o) s (s.issuing.holdFor x))) ∧
    (∀ v qs, ReadsS s k v qs → v.toNat % 64 ≠ 0 → v.toNat % 4 = 0 → v.toNat < 2 ^ 48 → Passes (.ret ch k) s →
      let c := s.adding qs [] s.issuing.now
      Completes (.ret ch k) s { c with cx := { c.cx with jump := some (v.toNat, true, false) } })

/-- R143, R144, R146, R161: a loop pushes its entry, or passes over its body when the count is zero; `loopf` gives the first
iteration its FMTSEL. The end of the body wraps modulo 2^48 as a target does (log 75), and a loop of count zero whose body ends on
a line that is not translated yet is held until it is (log 74): the model's choices. -/
def Obligations.LoopResults : Prop :=
  ∀ (s : State) (ch : Bool) (k : Src) (o : BitVec 15) (v : W64) (qs : SMap (List Val)), ReadsS s k v qs →
    let c := s.adding qs [] s.issuing.now
    let last := s.issuing.target o
    let passed : Core := match s.afterBundle c 12 last with
      | .ok r => { c with cx := { c.cx with jump := some (r, false, false) } }
      | .error x => c.holdFor x
    let entry (fmt : Option (BitVec 4 × Nat × BitVec 4)) : LoopEntry :=
      { start := s.issuing.cx.after, last := last, count := fld v 31 0, fmt := fmt, fresh := false }
    let base := BitVec.ofNat 4 (fld v 35 32)
    s.issuing.a.taken = none → last % 64 ≠ 0 → last % 4 = 0 → s.issuing.a.loops.length < 4 → s.issuing.cx.word < last →
    (∀ e ∈ s.issuing.a.loops.head?, last ≤ e.last) →
    (v.toNat < 2 ^ 32 → Passes (.loop ch k o) s →
      Completes (.loop ch k o) s
        (if fld v 31 0 = 0 then passed else { c with a := { c.a with loops := entry none :: c.a.loops } })) ∧
    (v.toNat < 2 ^ 36 → Passes (.loopf ch k o) s →
      let d := s.adding qs [s.entry .s (s.issuing.now + 1) none (.loopFmtsel base)] s.issuing.now
      Completes (.loopf ch k o) s
        (if fld v 31 0 = 0 then passed
        else { d with a := { d.a with loops := entry (some (base, 0, s.issuing.a.sys.fmtsel)) :: d.a.loops } }))

/-- R15, R147, R162, R164: idling moves the LT of the next bundle, `halt` ends the issue of its core. A rendezvous (R153, R155,
R163) and a step record their release LT, which must follow the issue LT, and stop the core there. -/
def Obligations.IdleReleaseResults : Prop :=
  (∀ (s : State) (ch : Bool),
      let c := s.issuing
      (∀ n : BitVec 16, c.now + 1 + c.immU 16 n.toNat < 2 ^ 48 → Passes (.nop ch n) s →
        Completes (.nop ch n) s { c with cx := { c.cx with next := c.now + 1 + c.immU 16 n.toNat } }) ∧
      (∀ a t qs, ReadsS s a t qs → Passes (.waitlt ch a) s →
        let d := s.adding qs [] s.issuing.now
        (c.now + 1 ≤ t.toNat → t.toNat < 2 ^ 48 →
          Completes (.waitlt ch a) s { d with cx := { d.cx with next := t.toNat } }) ∧
        (t.toNat ≤ c.now → t.toNat < 2 ^ 48 →
          exec (.waitlt ch a) s = .next (takeTrap s.cur (c.wordTrap .deadline) s))) ∧
      (∀ n : BitVec 16, Passes (.halt ch n) s → Completes (.halt ch n) s { c with run := .halting n, haltLt := c.now })) ∧
  ∀ (s : State) (ch : Bool) (l : Nat),
    let c := s.issuing
    c.targetLt (c.now + 1) = .ok l → c.now < l →
    (∀ (g : BitVec 8) (k : Nat), c.slotOfGroup g.toNat = some k → SMap.get none c.a.rdv k = none → Passes (.rdv ch g) s →
      Completes (.rdv ch g) s { c with a := { c.a with
        rdv := SMap.set none c.a.rdv k (some { group := g.toNat, lt := l, word := c.cx.word })
        inflight := c.a.inflight ++ [{ s.entry .s l none (.rdvGate k) with ready := false }] } }) ∧
    (∀ b : BitVec 16, l < 2 ^ 48 → Passes (.step ch b) s →
      Completes (.step ch b) s { c with
        cx := { c.cx with next := l }
        a := { c.a with
          step := some l
          inflight := c.a.inflight ++ [{ s.entry .s l none (.stepGate b) with ready := false }] } })

/-! ## Matrix words -/

/-- R206, R210, R224-R227: the loads of the matrix unit. `mx.ldb` reads 256 bytes an LT, `mx.ldbs` places a popped entry; both
occupy the array until they complete and leave the B record of their format. -/
def Obligations.MatrixLoadResults : Prop :=
  ∀ (s : State) (ch : Bool) (a b : Src),
    let t := s.issuing.now
    let e := s.issuing.fmt
    let word := s.issuing.cx.word
    let loaded (c : Core) (lt : Nat) : Core := { c with a := { c.a with
      arrayFree := lt
      brec := { btype := BitVec.ofNat 4 (fBtype e), bcell := BitVec.ofNat 2 (fBcell e), sparse := BitVec.ofNat 2 (fSparse e) }
      mxBusy := c.a.mxBusy ++ [(lt, word)] } }
    let stored (c : Core) (lt : Nat) : Core := { c with a := { c.a with mxBusy := c.a.mxBusy ++ [(lt, word)] } }
    (∀ ctl qs, ReadsS s a ctl qs →
      let nk := fld ctl 38 32 + 1
      let k0 := fld ctl 30 24
      let addr := fld ctl 22 0
      within ctl (ones 38 32 + ones 30 24 + ones 22 0) = true → k0 + nk ≤ 128 → addr % 64 = 0 → addr + 2048 * nk ≤ spadSize →
      s.issuing.readGuard ((upto (8 * nk)).map fun o => (t + 1 + o, addr + 256 * o, 256)) = .ok () →
      s.issuing.a.arrayFree ≤ t → Passes (.mxLdb ch a) s →
        Completes (.mxLdb ch a) s (loaded (s.adding qs
          ((upto (8 * nk)).map fun o => s.entry .m (t + 1 + o) none (.ldbChunk (addr + 256 * o) (k0 + o / 8) (o % 8)))
          (t + 8 * nk)) (t + 8 * nk))) ∧
    (∀ ctl qs v rest, ReadsS s a ctl qs → SMap.get [] qs (Port.num .mxB) = v :: rest → ctl.toNat < 2 ^ 11 →
      s.issuing.a.arrayFree ≤ t → Passes (.mxLdbs ch a) s →
        let f := t + 1 + cellWidth (fBcell e) / 4
        Completes (.mxLdbs ch a) s (loaded (s.adding (SMap.set [] qs (Port.num .mxB) rest)
          [s.entry .m f none (.ldbs (BitVec.ofNat 32 e) ctl.toNat v)] f) f)) ∧
    (∀ ctl v qs, ReadsSV s a b ctl v qs → within ctl (ones 17 8 + 1) = true →
      (fld ctl 0 0 = 1 ∨ fld ctl 17 8 < 128) → Passes (.mxLds ch a b) s →
        Completes (.mxLds ch a b) s (stored (s.adding qs
          [s.entry .m (t + 4) none (.lds (fld ctl 0 0 == 1) (fld ctl 17 8) v)] (t + 4)) (t + 4))) ∧
    (∀ v ctl qs, ReadsVS s a b v ctl qs → v.anyKind.poisoned = false → ctl.toNat < 4 →
      (∀ k < 64, v.elem 32 k < spadSize ∧ v.elem 32 k % 64 = 0) → Passes (.mxArow ch a b) s →
        Completes (.mxArow ch a b) s (stored (s.adding qs
          [s.entry .m (t + 4) none (.arow ctl.toNat v)] (t + 4)) (t + 4)))

/-- R200-R211, R228: a pass whose descriptors meet R202. Its rows are read, one every WA LTs, and each updates its accumulator
rows 11 + WA LTs later; a pass from `mx.a` pops its rows at issue. The rows it adds to are shadowed. The read of a row from the
scratchpad, which is checked at its LT, puts the sums of the words found there in flight and gathers their flags with the pass's. -/
def Obligations.MatrixRunResults : Prop :=
  ∀ (s : State) (ch : Bool) (a b : Src) (x y : W64) (qs : SMap (List Val)) (cs : Core), ReadsSS s a b x y qs →
    let t := s.issuing.now
    let e := s.issuing.fmt
    let d := PassDesc.ofWords x y
    let wa := planes (fAtype e)
    let q := rowsPerOut e
    let rb := aBytes (fAtype e) (fSparse e)
    let n := d.nr + 1
    let ovw := s.issuing.a.sys.mxmode.getLsbD 0
    let p : Pass := { fmt := BitVec.ofNat 32 e, ovw := ovw, acc := d.acc, asr := d.asr }
    let lt := t + n * wa + 12
    let ended (c : Core) : Core := { c with
      mx := cs.mx
      a := { c.a with arrayFree := t + n * wa, mxBusy := c.a.mxBusy ++ [(lt, s.issuing.cx.word)] } }
    d.ok x y n q rb = true → s.issuing.a.arrayFree ≤ t →
    s.issuing.shadowRows ovw (rangeFrom d.acc (n * q)) = .ok cs → Passes (.mxRun ch a b) s →
    (d.src = false → s.issuing.readGuard ((upto n).map fun i =>
        (t + 1 + i * wa, d.row (s.issuing.listAt (t + 1 + i * wa)) i, rb)) = .ok () →
      Completes (.mxRun ch a b) s (ended (s.adding qs
        ((upto n).map (fun i => s.entry .m (t + 1 + i * wa) none
          (.passRow p i (if d.gath then .listed i s.issuing.a.bufs else .addr (d.addr + 64 * d.stride * i)) (t + 1 + i * wa + wa + 11))) ++
          [s.entry .m lt none (.flags 0)]) lt))) ∧
    (∀ (rows : List (List PWord)) (c' : Core), d.src = true → (s.adding qs [] t).popRows rb n = .ok (rows, c') →
      let vals := (rows.zip (upto n)).map fun (r, i) => (passRow cs.mx p i r, i)
      Completes (.mxRun ch a b) s (ended (s.adding c'.a.queues
        (vals.map (fun (r, i) => s.entry .m (t + (i + 1) * wa + 12) none (.accUpdate (d.acc + i * q) ovw r.checked r.rows)) ++
          [s.entry .m lt none (.flags (Flags.union (vals.map fun v => v.1.flags)))]) lt))) ∧
    ∀ (c old : Core) (x : Nat) (i : Item) (p : Pass) (r y addr : Nat), i.act = .passRow p r (.addr addr) y →
      let e := p.fmt.toNat
      let rb := aBytes (fAtype e) (fSparse e)
      let sum := passRow c.mx p r (c.spadWords addr (rb / 4))
      (spadSize < addr + rb → c.perform old x i = .error (Trap.at_ .range addr)) ∧
      (addr + rb ≤ spadSize → ∀ w, old.pendingWord i.word i.issue x addr rb = some w →
        c.perform old x i = .error (Trap.at_ .pendingRead w)) ∧
      (addr + rb ≤ spadSize → old.pendingWord i.word i.issue x addr rb = none →
        c.perform old x i = .ok { c with a := { c.a with inflight := c.a.inflight.map (i.gathers sum.flags) ++
          [c.successor i y none (.accUpdate (p.acc + r * rowsPerOut e) p.ovw sum.checked sum.rows)] } })

/-- R218, R219, R229: `mx.pair` reads its own rows, one an LT, waits at its release LT for the partner's, and passes over the
rows of both; its sequence number advances. With GATH = 1 row j is read through row-list entry j at its own read LT (R204, R227). That
the scales of a combined row are those at the LT at which it streams is the model's choice (log 117). -/
def Obligations.MatrixPairResults : Prop :=
  ∀ (s : State) (ch : Bool) (a b : Src) (x y : W64) (qs : SMap (List Val)) (cs : Core) (lr : Nat), ReadsSS s a b x y qs →
    let t := s.issuing.now
    let e := s.issuing.fmt
    let d := PassDesc.ofWords x y
    let wa := planes (fAtype e)
    let q := rowsPerOut e
    let rb := aBytes (fAtype e) (fSparse e)
    let h := d.nr + 1
    let ovw := s.issuing.a.sys.mxmode.getLsbD 0
    let p : Pass := { fmt := BitVec.ofNat 32 e, ovw := ovw, acc := d.acc, asr := d.asr }
    let seq := s.issuing.a.pseq
    let par := (lr, h, fAtype e, fSparse e)
    let done_ := lr + 2 * h * wa + 12
    s.issuing.targetLt (t + h + 16) = .ok lr → t + h < lr → d.ok x y (2 * h) q rb = true →
    (s.issuing.lcore ^^^ 1) < s.coreCount s.issuing → s.issuing.cx.entry = true → d.src = false → h ≤ 128 → h * rb ≤ 32768 →
    s.issuing.readGuard ((upto h).map fun j => (t + 1 + j, d.row (s.issuing.listAt (t + 1 + j)) j, rb)) = .ok () →
    s.issuing.a.arrayFree ≤ t → s.issuing.shadowRows ovw (rangeFrom d.acc (2 * h * q)) = .ok cs →
    Passes (.mxPair ch a b) s →
      let c := s.adding qs
        ((upto h).map (fun j => s.entry .m (t + 1 + j) none (.pairRead j
            (if d.gath then .listed j s.issuing.a.bufs else .addr (d.addr + 64 * d.stride * j)) rb seq par)) ++
          [{ s.entry .m lr none (.pairGate seq par) with ready := false }] ++
          (upto (2 * h)).map (fun i => s.entry .m (lr + 1 + i * wa) none
            (.passRow p i (.pair (decide (i < h) == (s.issuing.lcore % 2 == 0)) (i % h)) (lr + 1 + i * wa + wa + 11))) ++
          [s.entry .m done_ none (.flags 0)]) done_
      Completes (.mxPair ch a b) s { c with
        mx := cs.mx
        a := { c.a with
          pseq := seq + 1, arrayFree := lr + 2 * h * wa, mxBusy := c.a.mxBusy ++ [(done_, s.issuing.cx.word)] } }

/-- R207-R209, R230-R234: accumulator rows cleared, written, read and converted; the signature folded; the mode set. At their LT a clear
gives its rows +0, a write gives its row the value, and an update of a pass gives each row P or, element by element, the rounded sum of the
row and P, with the union of the kinds, and its flags to the pass; a residue that disagrees poisons the row; rows written fold into RSIG in
order, and nothing else changes. A read of a poisoned row traps with its kind and the row. That the sum of −0 and −0 is −0, that the last
counted beat of `mx.epi` with OFF = 1 carries its row bytes alone, and that a suffix on it arrives at issue LT + L and not with the copy,
are the model's choices (logs 132, 21, 78). -/
def Obligations.AccumulatorWordResults : Prop :=
  ∀ (s : State) (ch : Bool) (d : Port) (a b : Src),
    let t := s.issuing.now
    let e := s.issuing.fmt
    let ended (c : Core) (lt : Nat) : Core :=
      { c with a := { c.a with mxBusy := c.a.mxBusy ++ [(lt, s.issuing.cx.word)] } }
    let row (r : Nat) : AccRow := SMap.get AccRow.zero s.issuing.mx.acc r
    (∀ ctl qs cs, ReadsS s a ctl qs →
      let first := fld ctl 13 0
      let n := fld ctl 29 16 + 1
      let lt := t + 1 + ceilDiv n 64
      within ctl (ones 29 16 + ones 13 0) = true → first + n ≤ 16384 →
      s.issuing.shadowRows true (rangeFrom first n) = .ok cs → Passes (.mxClr ch a) s →
        Completes (.mxClr ch a) s
          { ended (s.adding qs [s.entry .m lt none (.accClear first n)] lt) lt with mx := cs.mx }) ∧
    (∀ v r qs cs, ReadsVS s a b v r qs → r.toNat < 16384 → s.issuing.shadowRows true [r.toNat] = .ok cs →
      Passes (.mxWr ch a b) s →
        Completes (.mxWr ch a b) s
          { ended (s.adding qs [s.entry .m (t + 8) none (.accWrite r.toNat v)] (t + 8)) (t + 8) with mx := cs.mx }) ∧
    (∀ r qs, ReadsS s a r qs → r.toNat < 16384 → Passes (.mxRd ch d a) s →
      ((row r.toNat).k.poisoned = false →
        Completes (.mxRd ch d a) s
          (ended (s.adding qs [s.result .m .m d { bits := (row r.toNat).bits, ep := 0, sp := 0 } 8] (t + 8)) (t + 8))) ∧
      ((row r.toNat).k.poisoned = true →
        exec (.mxRd ch d a) s = .next (takeTrap s.cur
          { Trap.at_ (if (row r.toNat).k.scale then .scalePoison else .uncorrectable) r.toNat with matrix := true } s))) ∧
    (∀ dest rows qs, ReadsSS s a b dest rows qs →
      let bo := 8 * widthOf (fEpit e)
      let first := fld rows 13 0
      let n := fld rows 25 16 + 1
      let outs := (upto n).map fun j => epiRow e (row (first + j))
      let addr := fld dest 22 0
      let f := Flags.union (outs.map Prod.snd)
      epiOperandsOk dest rows bo = true → (∀ j < n, (row (first + j)).k.poisoned = false) → fld dest 63 63 = 0 →
      s.issuing.writeGuard ((upto n).map fun j => (t + 2 + j, addr + bo * j, bo)) = .ok () → Passes (.mxEpi ch a b) s →
        Completes (.mxEpi ch a b) s (ended (s.adding qs
          ((outs.zip (upto n)).map (fun (o, j) =>
            s.entry .m (t + 2 + j) none (.write (addr + bo * j) ((digits 32 (bo / 4) o.1).map PWord.ofNat))) ++
            if f == 0 then [] else [s.entry .m (t + n + 2) none (.flags f)]) (t + n + 2)) (t + n + 2))) ∧
    (∀ dest rows w qs c', ReadsSS s a b dest rows qs →
      let bo := 8 * widthOf (fEpit e)
      let first := fld rows 13 0
      let n := fld rows 25 16 + 1
      let outs := (upto n).map fun j => epiRow e (row (first + j))
      let f := Flags.union (outs.map Prod.snd)
      let beat (j : Nat) : BeatData :=
        { bits := BitVec.ofNat 512 (bitsOf (ofDigits (8 * bo) (outs.map Prod.fst)) (512 * j) 512), bad := false }
      epiOperandsOk dest rows bo = true → (∀ j < n, (row (first + j)).k.poisoned = false) → fld dest 63 63 = 1 →
      s.issuing.windowCheck (dest &&& BitVec.ofNat 64 (2 ^ 48 - 1)) (n * bo) (fun w => w.wr) = .ok w →
      (s.adding qs [] t).issueCopy .m 0 (.epi (n * bo)) (some (n * bo))
        ((upto (ceilDiv (n * bo) 64)).map fun j => s.issuing.newBeat (w + 64 * j) 0 (some (beat j))) none = .ok c' →
      Passes (.mxEpi ch a b) s →
        Completes (.mxEpi ch a b) s { c' with a := { c'.a with
          inflight := c'.a.inflight ++ if f == 0 then [] else [s.entry .m (t + n + 2) none (.flags f)]
          mxBusy := c'.a.mxBusy ++ [(t + n + 2, s.issuing.cx.word)] } }) ∧
    (∀ v qs, ReadsS s a v qs → Passes (.mxSig ch d a) s →
      let sig := s.issuing.a.sys.rsig.rotateLeft 1 ^^^ v
      let c := s.adding qs [s.result .m .m d (Val.ofScalar sig) 4] (t + 4)
      Completes (.mxSig ch d a) s (ended { c with a := { c.a with sys := { c.a.sys with rsig := sig } } } (t + 4))) ∧
    (∀ h o : Bool, Passes (.mxMode ch d h o) s →
      Completes (.mxMode ch d h o) s (ended (s.adding s.issuing.a.queues
        [s.entry .m (t + 1) none (.setMxmode (BitVec.ofBool h ++ BitVec.ofBool o)),
          s.result .m .m d (Val.ofNat s.issuing.a.sys.mxmode.toNat) 1] (t + 1)) (t + 1))) ∧
    ∀ (c old : Core) (x : Nat) (i : Item),
      let rowOf (c : Core) (r : Nat) : AccRow := SMap.get AccRow.zero c.mx.acc r
      let only (c' : Core) : Prop := c.perform old x i = .ok c' ∧ c' = { c with
        a := { c.a with sys := { c.a.sys with rsig := c'.a.sys.rsig }, inflight := c'.a.inflight }
        mx := { c.mx with acc := c'.mx.acc, updated := c'.mx.updated, residue := c'.mx.residue } }
      let folds (c' : Core) (first n : Nat) : Prop :=
        c'.a.sys.rsig = (rangeFrom first n).foldl (fun g r => if c.a.sys.mxmode.getLsbD 1 then g else foldSig g r (rowOf c' r).bits) c.a.sys.rsig
      (∀ first n, i.act = .accClear first n → ∃ c', only c' ∧ c'.a.inflight = c.a.inflight ∧ c'.mx.residue = c.mx.residue ∧ folds c' first n ∧
        ∀ r, rowOf c' r = if first ≤ r ∧ r < first + n then { bits := 0, k := .clean } else rowOf c r) ∧
      (∀ k v, i.act = .accWrite k v → ∃ c', only c' ∧ c'.a.inflight = c.a.inflight ∧ c'.mx.residue = c.mx.residue ∧ folds c' k 1 ∧
        ∀ r, rowOf c' r = if r = k then { bits := v.bits, k := { elem := v.ep != 0, scale := v.sp != 0 } } else rowOf c r) ∧
      (∀ acc ovw chk rows, i.act = .accUpdate acc ovw chk rows →
        let hit := c.mx.residue && chk
        let sum (k : Nat) (v : Val) (n : Nat) : Nat × Flags := addCode 9 0 (elem (rowOf c (acc + k)).bits.toNat 32 n) (elem v.bits.toNat 32 n)
        let f : Flags := if ovw then 0 else Flags.union ((rows.zip (upto rows.length)).map fun (v, k) =>
          Flags.union ((upto 64).map fun n => (sum k v n).2))
        ∃ c', only c' ∧ c'.a.inflight = c.a.inflight.map (i.gathers f) ∧ c'.mx.residue = (c.mx.residue && !chk) ∧ folds c' acc rows.length ∧
        (∀ r, (r < acc ∨ acc + rows.length ≤ r) → rowOf c' r = rowOf c r) ∧
        ∀ (k : Nat) (v : Val), rows[k]? = some v →
          let kind : Kind := { elem := v.ep != 0 || hit, scale := v.sp != 0 }
          rowOf c' (acc + k) = if ovw then { bits := v.bits, k := kind } else
            { bits := BitVec.ofNat 2048 (ofElems 32 ((upto 64).map fun n => (sum k v n).1)), k := (rowOf c (acc + k)).k.join kind })

/-! ## Copy words -/

/-- R256, R260, R265, R278-R282: a copy whose descriptor, window and buffer checks pass completes its word with the copy issued:
`issueGet`, `issuePut` and `issueCopy` say what that adds. A get (R260, R261, R272) is released at once; it reserves the channel of
each of its HBM beats for 333 LTs, and a timed one, which only a calendar kernel issues, of at most 64 HBM beats, has one landing
for each beat in flight at the LT that `pfx.ts` names. A put (R150, R278, R279) passes the checks of its operand's reads, is held in
the commit buffer with 64 bytes for each beat, and has those reads in flight, four beats an LT from the LT after issue. Issuing a
copy (R150, R256, R257) adds one copy, the core's newest, held with the beats given; it takes the size asked in the commit buffer,
where it must fit, and it is released at once exactly when it is not held there. That SADDR of `cp.scrub` is checked for its record
alone (log 109), and that a failed copy takes no room in the commit buffer (log 102), are the model's choices. -/
def Obligations.CopyWordResults : Prop :=
  (∀ (s : State) (ch : Bool) (n : BitVec 3) (a b : Src) (c' : Core),
      let c := s.issuing
      (∀ wa d w qs, ReadsSS s a b wa d qs →
        let k := fld d 35 24 + 1
        let sp := fld d 22 0
        let c1 := s.adding qs [] c.now
        (within d (ones 35 24 + ones 22 0) = true → sp % 64 = 0 → sp + 64 * k ≤ spadSize →
          (c.windowCheck wa (64 * k) (fun w => w.rd) = .ok w → c.bufferCheck true [(sp, 64 * k)] = .ok () →
            c1.issueGet n .get (c.newBeats w sp k) = .ok c' → Passes (.cpGet ch n a b) s → Completes (.cpGet ch n a b) s c') ∧
          (c.windowCheck wa (64 * k) (fun w => w.wr) = .ok w → c1.issuePut n .put w sp k = .ok c' →
            Passes (.cpPut ch n a b) s → Completes (.cpPut ch n a b) s c')) ∧
        (within d (ones 42 36 + ones 35 24 + ones 22 0) = true → sp % 64 = 0 → sp + 64 * k ≤ spadSize → k ≤ 1024 →
          fld d 42 40 ≤ 5 → fld d 39 36 ∈ [3, 8, 9, 10] →
          c.windowCheck wa (64 * k) (fun w => w.amo && w.kind != 2) = .ok w →
          c1.issuePut n (.amo (BitVec.ofNat 3 (fld d 42 40)) (BitVec.ofNat 4 (fld d 39 36))) w sp k = .ok c' →
          Passes (.cpAmo ch n a b) s → Completes (.cpAmo ch n a b) s c') ∧
        (within d (ones 35 24 + ones 22 0) = true → sp % 64 = 0 → sp + 128 ≤ spadSize → k ≤ 512 →
          c.windowCheck wa (64 * k) (fun w => w.rd && w.wr && w.kind == 1) = .ok w → c.bufferCheck true [(sp, 128)] = .ok () →
          c1.issueCopy c.cPipe n.toNat .scrub none (c.newBeats w 0 k ++ (upto 2).map fun j =>
            { w := none, sp := sp + 64 * j, data := some { bits := 0, bad := false }, pa := none, state := .waiting }) none = .ok c' →
          Passes (.cpScrub ch n a b) s →
            Completes (.cpScrub ch n a b) s { c' with a := c'.a.reserveBeats c'.kindOf c.now (c.newBeats w 0 k) }) ∧
        (let k := fld d 15 0 + 1
         let pat := BitVec.ofNat 32 (fld d 63 32)
         within d (ones 63 32 + ones 15 0) = true → c.windowCheck wa (64 * k) (fun w => w.wr) = .ok w →
          c1.issueCopy c.cPipe n.toNat (.fill pat) (some 64) ((upto k).map fun j =>
            c.newBeat (w + 64 * j) 0 (some (BeatData.ofWords (List.replicate 16 { w := pat, k := .clean })))) none = .ok c' →
          Passes (.cpFill ch n a b) s → Completes (.cpFill ch n a b) s c')) ∧
      (∀ v ctl beats qs, ReadsVS s a b v ctl qs →
        let rlen := fld ctl 35 30 + 1
        let rows := fld ctl 28 24 + 1
        let dest := fld ctl 22 0
        within ctl (ones 35 30 + ones 28 24 + ones 22 0) = true → dest % 64 = 0 → dest + 64 * rlen * rows ≤ spadSize →
        (∀ i < rows, (gatherLaneKind v i).poisoned = false) → c.gatherBeats v rlen dest rows 0 = .ok beats →
        c.bufferCheck true [(dest, 64 * rlen * rows)] = .ok () →
        (s.adding qs [] c.now).issueGet n .gath beats = .ok c' → Passes (.cpGath ch n a b) s →
          Completes (.cpGath ch n a b) s c')) ∧
  (∀ (c c' : Core) (n : BitVec 3) (op : CopyOp) (beats : List Beat), c.issueGet n op beats = .ok c' →
    ∃ timed c1, c.issueCopy c.cPipe n.toNat op none beats timed = .ok c1 ∧
      (c.cx.ts = none → timed = none) ∧
      (∀ d, c.cx.ts = some d → timed = some (c.now + d.toNat) ∧ c.calendar = true ∧ beats.length ≤ 64 ∧
        ∀ b ∈ beats, ∀ w, b.w = some w → c.kindOf w = 1) ∧
      c' = { c1 with a := { c1.a.reserveBeats c1.kindOf c.now beats with
        inflight := c1.a.inflight ++ match timed with
          | some t => (upto beats.length).map fun j =>
              { lt := t, issue := c.now, pipe := c.cPipe, word := c.cx.word, dst := none, ready := false,
                act := .timedBeat c.nextId j }
          | none => [] } }) ∧
  (∀ (a : Arch) (kindOf : Nat → Nat) (t : Nat) (b : Beat) (bs : List Beat),
    a.reserveBeats kindOf t [] = a ∧
    (∀ w pa, b.w = some w → b.pa = some pa → kindOf w = 1 → a.reserveBeats kindOf t (b :: bs) =
      { a with chan := SMap.set 0 a.chan (channelOf pa) (Nat.max t (SMap.get 0 a.chan (channelOf pa)) + 333) }.reserveBeats
        kindOf t bs) ∧
    ((∀ w pa, b.w = some w → b.pa = some pa → kindOf w ≠ 1) → a.reserveBeats kindOf t (b :: bs) = a.reserveBeats kindOf t bs)) ∧
  (∀ (c c' : Core) (n : BitVec 3) (op : CopyOp) (w sp k : Nat), c.issuePut n op w sp k = .ok c' →
    c.readGuard ((upto ((k + 3) / 4)).map fun g => (c.now + 1 + g, sp + 256 * g, 64 * Nat.min 4 (k - 4 * g))) = .ok () ∧
    ∃ c1, c.issueCopy c.cPipe n.toNat op (some (64 * k))
        ((upto k).map fun j => c.newBeat (w + 64 * j) (sp + 64 * j) none) none = .ok c1 ∧
      c' = { c1 with a := { c1.a with inflight := c1.a.inflight ++ (upto ((k + 3) / 4)).map fun g =>
        { lt := c.now + 1 + g, issue := c.now, pipe := c.cPipe, word := c.cx.word, dst := none, ready := !c.slow,
          act := .readCopy c.nextId (4 * g) (Nat.min 4 (k - 4 * g)) } } }) ∧
  ∀ (c c' : Core) (p : Pipe) (q : Nat) (op : CopyOp) (held : Option Nat) (beats : List Beat) (timed : Option Nat),
    (∀ k ∈ c.copies, k.id < c.nextId) → c.issueCopy p q op held beats timed = .ok c' →
    let size := match held with | some n => 64 * ((n + 63) / 64) | none => 0
    c.heldBytes + size ≤ 65536 ∧ c'.nextId = c.nextId + 1 ∧ c'.cx.retire = .copy c.nextId ∧
    c'.a.queues = c.a.queues ∧ c'.a.inflight = c.a.inflight ∧
    ∃ k ∈ c'.copies, k.id = c.nextId ∧ k.q = some q ∧ k.op = op ∧ k.issue = c.now ∧ k.pipe = p ∧ k.size = size ∧
      k.released = held.isNone ∧ k.timed = timed ∧ k.inSeg = true ∧
      k.beats.map (fun b => (b.w, b.sp, b.data)) = beats.map fun b => (b.w, b.sp, b.data)

/-- R270, R284-R287: fences and waits over queues, the write pointer, binding, and the invalidation of translations. A wait ends
once every copy has settled and a failed one has translated its every beat, so that its first failing address is known (log 87); that
a copy of an earlier word of the same bundle counts as issued before (log 120): both are the model's choices. -/
def Obligations.CopyQueueWordResults : Prop :=
  ∀ (s : State) (ch : Bool) (m : BitVec 8),
    let c := s.issuing
    let mine := c.copies.filter fun k => inMask m k.q
    (c.stuckIn m = false →
      (let live := c.a.fences.filter c.fenceOpen
       let full := (upto 8).any fun q => m.getLsbD q && 4 ≤ (live.filter fun f => f.mask.getLsbD q).length
       Passes (.cpFence ch m) s →
        (m = 0 → Completes (.cpFence ch m) s c) ∧
        (m ≠ 0 → full = false →
          Completes (.cpFence ch m) s { c with a := { c.a with fences := live ++ [{ mask := m, pos := c.nextId }] } }) ∧
        (m ≠ 0 → full = true → Completes (.cpFence ch m) s { c with cx := { c.cx with held := true } })) ∧
      (Passes (.cpWait ch m) s →
        (mine.all Copy.waited = true → (∀ k ∈ mine, k.state = .complete ∨ k.state = .cancelled) →
          Completes (.cpWait ch m) s c) ∧
        (∀ k code addr rest, mine.all Copy.waited = true →
          mine.dropWhile (fun k => k.state == .complete || k.state == .cancelled) = k :: rest → k.state = .failed code addr →
          exec (.cpWait ch m) s = .next (takeTrap s.cur (Trap.at_ code addr.toNat) s)) ∧
        (mine.all Copy.waited = false → Completes (.cpWait ch m) s { c with cx := { c.cx with held := true } }))) ∧
    (∀ (d : Port) (n : BitVec 8), Passes (.cpWp ch d n) s →
      Delivers (.cpWp ch d n) s c.a.queues [s.result c.cPipe c.cPipe.latch d (Val.ofNat (SMap.get 0 c.qwp n.toNat)) 1] (c.now + 1)) ∧
    (∀ (n : BitVec 3) (a : Src) ctl qs, ReadsS s a ctl qs → within ctl (ones 63 63 + ones 22 4) = true → Passes (.cpBind ch n a) s →
      Delivers (.cpBind ch n a) s qs
        [s.entry c.cPipe (c.now + 1) none (.bind n.toNat (if ctl.getLsbD 63 then none else some (16 * fld ctl 22 4)))] c.now) ∧
    (∀ (c old : Core) (x : Nat) (i : Item) (q : Nat) (p : Option Nat), i.act = .bind q p →
      ∃ t, c.perform old x i = .ok { c with a := { c.a with binds := t } } ∧
        ∀ k, SMap.get none t k = if k = q then p else SMap.get none c.a.binds k) ∧
    (∀ (l : Bool) (w : BitVec 6), Passes (.cpInv ch l w) s →
      Completes (.cpInv ch l w) s { c with tlb := if l then [] else c.tlb.filter fun t => t.w != w.toNat })

/-! ## Synchronisation words -/

/-- R294, R298, R311-R313: barrier words. `bar.init` writes its object one LT later and journals the old one, `bar.arv` arrives
locally or is held for another core, `bar.wait` lets the bundle issue, traps on a faulted barrier with the response of its CAUSE
(R297), or holds the core. At its LT `bar.init` writes its object, enters it in the table or takes it out, and detaches the copies bound
to it; an arrival lowers LEFT, completes the phase where nothing is due, or faults the barrier (R295); no other byte changes. The model's
choices: a local `bar.arv` ignores LCORE (log 110) and is not checked for BUFFER_STATE (log 134), the table changes with the object
(log 135), and a poisoned word of an object is read as its bits stand (log 136). -/
def Obligations.BarrierWordResults : Prop :=
  ∀ (s : State) (ch : Bool) (d : Port) (a b : Src) (x y : W64) (qs : SMap (List Val)), ReadsSS s a b x y qs →
    let t := s.issuing.now
    let c := s.issuing
    let logged (p : Nat) (c1 : Core) : Core :=
      if c.journal.any fun e => e.1 == p then c1
      else { c1 with journal := c.journal ++ [(p, c.spad64 p, c.spad64 (p + 8))] }
    let roomFor (p : Nat) : Prop := (c.journal.any fun e => e.1 == p) = true ∨ c.journal.length < 16
    (x.toNat % 16 = 0 → x.toNat + 16 ≤ spadSize → y.toNat ≤ 4095 →
      (y = 0 ∨ x.toNat ∈ c.a.bars ∨ c.a.bars.length < 32) → c.bufferCheck true [(x.toNat, 16)] = .ok () →
      c.sliceClear [(t + 1, x.toNat, 16)] = .ok () → c.slotCheck [(t + 1, x.toNat, 16)] = .ok () → roomFor x.toNat →
      Passes (.barInit ch d a b) s →
        Completes (.barInit ch d a b) s (logged x.toNat (s.adding qs
          [s.entry .s (t + 1) none (.barInit x.toNat y.toNat), s.resultS d (BarObj.init y.toNat).w0 1] (t + 1)))) ∧
    (within x (ones 41 32 + ones 22 4) = true → 1 ≤ y.toNat → y.toNat ≤ 4095 → Passes (.barArv ch a b) s →
      let p := 16 * fld x 22 4
      (x.getLsbD 41 = false → p ∈ c.a.bars → c.sliceClear [(t + 1, p, 16)] = .ok () →
        c.slotCheck [(t + 1, p, 16)] = .ok () → roomFor p →
        Completes (.barArv ch a b) s (logged p (s.adding qs [s.entry .s (t + 1) none (.barArrive p y.toNat)] t))) ∧
      (∀ c', x.getLsbD 41 = true → fld x 40 32 < s.coreCount c →
        (s.adding qs [] t).hold .s (.remoteArv (fld x 40 32) p y.toNat) 64 = .ok c' →
        Completes (.barArv ch a b) s (c'.retireAt t))) ∧
    (x.toNat % 16 = 0 → x.toNat + 16 ≤ spadSize → y.toNat < 2 → x.toNat ∈ c.a.bars → Passes (.barWait ch a b) s →
      let o := c.bar x.toNat
      (o.phase ≠ y.getLsbD 0 → Completes (.barWait ch a b) s (s.adding qs [] t)) ∧
      (o.phase = y.getLsbD 0 → o.state = 2 →
        exec (.barWait ch a b) s = .next (takeTrap s.cur
          { Trap.at_ .barrierFault (64 * fld o.w1 63 22) with cause := BitVec.ofNat 8 (fld o.w1 21 16) } s)) ∧
      (o.phase = y.getLsbD 0 → o.state ≠ 2 →
        let c := s.adding qs [] t
        Completes (.barWait ch a b) s { c with cx := { c.cx with held := true } })) ∧
    ∀ (c old : Core) (x : Nat) (i : Item) (p n : Nat),
      let only (c' : Core) : Prop := c.perform old x i = .ok c' ∧
        c' = { c with spad := c'.spad, spadBad := c'.spadBad, copies := c'.copies, a := { c.a with bars := c'.a.bars } } ∧
        ∀ e, e < p ∨ p + 16 ≤ e → readByte c'.spad e = readByte c.spad e
      (i.act = .barInit p n → n ≤ 4095 → ∃ c', only c' ∧
        c'.bar p = { state := if n = 0 then 0 else 1, phase := false, expect := n, left := n, pend := 0, w1 := 0 } ∧
        c'.a.bars = (c.a.bars.filter fun e => e != p) ++ (if n = 0 then [] else [p]) ∧
        c'.copies = c.copies.map fun k => if k.bound = some p then { k with detached := true } else k) ∧
      (i.act = .barArrive p n → p ∉ c.a.bars → c.perform old x i = .ok c) ∧
      (i.act = .barArrive p n → p ∈ c.a.bars → ∃ c', only c' ∧ c'.a.bars = c.a.bars ∧ c'.copies = c.copies ∧
        let o := c.bar p
        (o.state = 1 → n ≤ o.left →
          c'.bar p = if o.left = n ∧ o.pend = 0 then { o with phase := !o.phase, left := o.expect } else { o with left := o.left - n }) ∧
        (o.state = 1 → o.left < n → c'.bar p = { o with state := 2, w1 := faultRecord TrapCode.range.num 0 0 }) ∧
        (o.state ≠ 1 → c'.bar p = { o with left := if n ≤ o.left then o.left - n else o.left }))

/-- R150, R288-R290, R314, R315: a send is held in the commit buffer and lands 32 or 72 LTs after issue, or at its named LT,
never before the channel's last landing; a receive takes its arrival at issue, waits for it, or takes it at the LT it names. -/
def Obligations.SendReceiveResults : Prop :=
  ∀ (s : State) (ch : Bool) (d : Port) (a b : Src),
    let c := s.issuing
    (∀ wide v c1 dest c2 t c', c.readAny a = .ok ((wide, v), c1) → c1.readS b = .ok (dest, c2) → v.anyKind.poisoned = false →
      let r := dest.toNat
      r < s.coreCount c →
      c.targetLt (c.now + if s.dieOfLogical c r = s.dieOfLogical c c.lcore then 32 else 72) = .ok t →
      SMap.get 0 c.a.sendLt r ≤ t →
      Core.hold { c2 with a := { c2.a with sendLt := SMap.set 0 c.a.sendLt r (t + 1) } } c.cPipe (.snd r t wide v)
        (if wide then 256 else 64) = .ok c' →
      Passes (.snd ch a b) s → Completes (.snd ch a b) s c') ∧
    (∀ k e qs, ReadsS s a k qs → k.toNat < s.coreCount c → c.targetLt c.now = .ok e → Passes (.rcv ch d a) s →
      let c1 := s.adding qs [] c.now
      (c.now < e →
        Delivers (.rcv ch d a) s qs [s.entry c.cPipe e (destSlot d) (.receive k.toNat d)] (e + 1)) ∧
      (e = c.now → c1.takeArrival k.toNat e d c.cx.word = .ok none →
        Completes (.rcv ch d a) s { c1 with cx := { c1.cx with held := true } }) ∧
      (∀ v c', e = c.now → c1.takeArrival k.toNat e d c.cx.word = .ok (some (v, c')) →
        Completes (.rcv ch d a) s (c'.deliver c.cPipe (some c.cPipe.latch) d v 1)))

/-- R301, R316, R317, R362: ordering points and the LT registers. A point notes the completion LT of an amplitude instruction in flight
whose accesses to an HBM slice it names; a copy that the point covers does not start while that instruction is in flight. -/
def Obligations.OrderingWordResults : Prop :=
  ∀ (s : State) (ch : Bool) (g : BitVec 8) (sc : BitVec 2),
    let c := s.issuing
    let placed (k : FenceKind) : Core :=
      { c with a := { c.a with points := c.a.points ++ [{ kind := k, scope := sc, pos := c.nextId, amp := c.ampUntil k }] } }
    (∀ (k : FenceKind) (e : AmpEntry) (i : Item) (base : Nat), i ∈ c.a.inflight → i.act = .ampEnd e.id base 0 →
      (∀ j ∈ c.a.inflight, ∀ id b n, j.act = .ampEnd id b n → j = i) → c.ampLog.find? (fun x => x.id == e.id) = some e →
      (e.reads = true ∨ (k ≠ .acq ∧ e.writes = true)) → c.ampUntil k = some i.lt) ∧
    (∀ (p : OrderPoint) (k : Copy) (i : Item) (id b y : Nat), p ∈ c.a.points → p.amp = some y → i ∈ c.a.inflight →
      i.act = .ampEnd id b 0 → i.lt ≤ y → p.pos ≤ k.id → (k.isWrite = true ∨ (p.kind ≠ .rel ∧ k.isRead = true)) →
      c.canStart k = false) ∧
    ((sc = 1 → (c.slotOfGroup g.toNat).isSome = true) →
      (Passes (.fence ch g sc) s → Completes (.fence ch g sc) s (placed .fence)) ∧
      (Passes (.acq ch g sc) s → Completes (.acq ch g sc) s (placed .acq)) ∧
      (Passes (.rel ch g sc) s → Completes (.rel ch g sc) s (placed .rel))) ∧
    ∀ d : Port, GivesS (.ltrd ch d sc) s c.a.queues d
      (BitVec.ofNat 64 (if sc = 0 then c.now else if sc = 1 then c.a.segLt else c.a.superLt)) 1

/-! ## Fabric, amplitude and sequence words -/

/-- R271, R327, R343-R347: the fabric words issue an outbound word on queue 0; a `cl.base` whose translation in a critical window
disagrees twice fails with UNCORRECTABLE; `cl.stat` reads a plan the kernel's context owns, or the links. That a `cl.fire` word with a
reserved trigger bit set completes, and raises no RANGE (R343), is the model's choice (log 126). -/
def Obligations.FabricWordResults : Prop :=
  ∀ (s : State) (ch : Bool) (d : Port) (a b : Src) (c' : Core),
    let c := s.issuing
    (∀ wa ctl w qs, ReadsSS s a b wa ctl qs →
      let ext := match s.plan (fld ctl 15 0) with
        | some p => if p.liveFor (s.ctxOf c) then p.extents.getD (fld ctl 22 20) 0 else 0
        | none => 0
      ctl.toNat < 2 ^ 23 → c.windowCheck wa ext (fun w => w.kind == 1 && w.rd && w.wr) = .ok w →
      (s.adding qs [] c.now).issueCopy c.cPipe 0 (.clBase (fld ctl 15 0) (fld ctl 19 16) (fld ctl 22 20)
        (BitVec.ofNat 64 ((c.window (winOf w)).base + offOf w))) (some 64) [fabricBeat] none = .ok c' →
      Passes (.clBase ch a b) s →
      let disagree : Bool := (c.window (winOf w)).crit && c.disagree.contains w
      (disagree = false → Completes (.clBase ch a b) s c') ∧
      (∀ k, disagree = true → c'.copy? c.nextId = some k → c'.window (winOf w) = c.window (winOf w) → c'.disagree = c.disagree →
        Completes (.clBase ch a b) s { c'.failCopy k .uncorrectable w with disagree := c.disagree.erase w })) ∧
    (∀ w qs, ReadsS s a w qs →
      (s.adding qs [] c.now).issueCopy c.cPipe 0 (.clFire w) (some 64) [fabricBeat] none = .ok c' →
      Passes (.clFire ch a) s → Completes (.clFire ch a) s c') ∧
    (∀ h (sel : BitVec 8) qs, ReadsS s a h qs → Passes (.clStat ch d a sel) s →
      let gives (v : Nat) : Prop :=
        Delivers (.clStat ch d a sel) s qs [s.result c.cPipe c.cPipe.latch d (Val.ofNat v) 1] (c.now + 1)
      (sel = 4 → gives s.linkStatus) ∧
      (∀ p, sel ≠ 4 → s.plan h.toNat = some p → p.liveFor (s.ctxOf c) = true → gives (p.status sel.toNat)) ∧
      (sel ≠ 4 → (∀ p, s.plan h.toNat = some p → p.liveFor (s.ctxOf c) = false) →
        exec (.clStat ch d a sel) s = .next (takeTrap s.cur (c.wordTrap .plan) s))) ∧
    (∀ wide v c1 desc c2 k, c.readAny a = .ok ((wide, v), c1) → c1.readS b = .ok (desc, c2) → v.anyKind.poisoned = false →
      desc.toNat < 2 ^ 63 → c.slotOfGroup (fld desc 7 0) = some k → fld desc 25 8 < s.groupSize (s.group (fld desc 7 0)) →
      c2.issueCopy c.cPipe 0 (.pkSnd desc (c.slotGen k) wide v) (some (if wide then 256 else 64))
        (List.replicate (if wide then 4 else 1) fabricBeat) none = .ok c' →
      Passes (.pkSnd ch a b) s → Completes (.pkSnd ch a b) s c')

/-- R353, R354, R366-R370: an amplitude word whose operands meet its limits starts its data instruction, with the transpositions
and the latency of its entry; `amp.ctl` exchanges AMPMODE. That `amp.swap` with MOVE = 1 of a qubit with itself makes no
transposition is the model's choice (log 23). Starting a data instruction (R355, R361, R364, R366): at most one runs at a time and
sixteen in a segment; its entry joins the replay log with the next sequence number, which `amp.init` sets back to 0, and its start
and end stand in flight, one LT and its latency after issue; no barrier of the core lies in its slice (R294, R352), and its write meets
no atomic slot (R244). That each data word is checked so at its slice, `amp.map` and `amp.swap` with MOVE = 0 and `amp.init` with
ZERO = 0 too, is the model's choice (log 128). -/
def Obligations.AmplitudeWordResults : Prop :=
  (∀ (s : State) (ch : Bool) (d : Port) (a b : Src) (c' : Core),
      let c := s.issuing
      let r := c.a.sys
      let e := r.amp
      let nc := s.ampCores c e
      (∀ base cfg qs, ReadsSS s a b base cfg qs →
        let f := { AmpDesc.ofWords cfg base with valid := true }
        let op := AmpOp.init (cfg.getLsbD 24)
        within cfg (ones 5 0 + ones 13 8 + ones 17 16 + ones 19 18 + ones 22 22 + ones 24 24) = true → f.limitsOk = true →
        (f.hbm = true → ∃ w, c.windowCheck base f.bytes (fun w => w.kind == 1 && w.rd && w.wr) = .ok w) →
        (f.hbm = false → f.base % 256 = 0 ∧ f.base + f.bytes ≤ spadSize) → (f.solo = true ∨ s.ampGroupOk c f = true) →
        (s.adding qs [] c.now).startAmp f op [] none (f.latency 0 op []) = .ok c' → Passes (.ampInit ch a b) s →
          let w0 : W64 := (cfg &&& BitVec.ofNat 64 (2 ^ 23 - 1)) ||| BitVec.ofNat 64 (2 ^ 23)
          Completes (.ampInit ch a b) s
            ((c'.later c.cPipe (c.now + 1) none (.sysWrite 0x100 w0)).later c.cPipe (c.now + 1) none (.sysWrite 0x101 base))) ∧
      (∀ n : Bool, Passes (.ampCtl ch d n) s →
        Delivers (.ampCtl ch d n) s c.a.queues
          [s.entry c.cPipe (c.now + 1) none (.setAmpmode n),
            s.result c.cPipe .a d (Val.ofNat (if r.ampmode then 1 else 0)) 1] (c.now + 1)) ∧
      (e.valid = true →
        (∀ v ctl qs, ReadsVS s a b v ctl qs → v.anyKind.poisoned = false → mapOk v e.n = true → Passes (.ampMap ch a b) s →
          (ctl = 0 → (s.adding qs [] c.now).startAmp e (.map ((upto e.n).map fun q => (q, v.elem 8 q))) [] none 1 = .ok c' →
            Completes (.ampMap ch a b) s c') ∧
          (ctl = 1 → let trans := mapTrans (fun q => v.elem 8 q) (upto e.n) r
            (s.adding qs [] c.now).startAmp e (.map []) trans none (e.latency nc (.map []) trans) = .ok c' →
            Completes (.ampMap ch a b) s c')) ∧
        (∀ ctl qs, ReadsS s a ctl qs → within ctl (ones 5 0 + ones 13 8 + ones 16 16) = true → fld ctl 5 0 < e.n →
          fld ctl 13 8 < e.n → Passes (.ampSwap ch a) s →
          let op := AmpOp.swap (fld ctl 5 0) (fld ctl 13 8)
          let trans := if fld ctl 5 0 = fld ctl 13 8 then [] else [(r.qpos (fld ctl 5 0), r.qpos (fld ctl 13 8))]
          (ctl.getLsbD 16 = false → (s.adding qs [] c.now).startAmp e op [] none 1 = .ok c' → Completes (.ampSwap ch a) s c') ∧
          (ctl.getLsbD 16 = true → (s.adding qs [] c.now).startAmp e op trans none (e.latency nc op trans) = .ok c' →
            Completes (.ampSwap ch a) s c')) ∧
        (∀ ctl cm qs ts u c1, ReadsSS s a b ctl cm qs → gateTargets e ctl cm = some ts →
          (∀ trans, (s.adding qs [] c.now).popMatrix (ceilDiv (4 ^ ts.length * e.es * 8) 2048) (4 ^ ts.length * e.es / 4) = .ok (u, c1) →
            ((ts.any fun t => e.no ≤ r.qpos t) = false ∨ r.ampmode = false) →
            remap e.no e.n (fun q => ts.contains q || cm.getLsbD q) ts r = some trans →
            c1.startAmp e (.gate ts cm u) trans none (e.latency nc (.gate ts cm u) trans) = .ok c' →
            Passes (.ampGate ch a b) s → Completes (.ampGate ch a b) s c') ∧
          ((s.adding qs [] c.now).popMatrix (ceilDiv (2 ^ ts.length * e.es * 8) 2048) (2 ^ ts.length * e.es / 4) = .ok (u, c1) →
            c1.startAmp e (.diag ts cm u) [] none (e.latency 0 (.diag ts cm u) []) = .ok c' →
            Passes (.ampDiag ch a b) s → Completes (.ampDiag ch a b) s c')) ∧
        (∀ ctl qs, ReadsS s a ctl qs → ctl = 0 →
          (s.adding qs [] c.now).startAmp e (.norm none d) [] (some d) (e.latency 0 (.norm none d) []) = .ok c' →
          Passes (.ampNorm ch d a b) s → Completes (.ampNorm ch d a b) s c') ∧
        (∀ ctl f qs, ReadsSS s a b ctl f qs → ctl = 1 →
          (s.adding qs [] c.now).startAmp e (.norm (some f) d) [] (some d) (e.latency 0 (.norm (some f) d) []) = .ok c' →
          Passes (.ampNorm ch d a b) s → Completes (.ampNorm ch d a b) s c') ∧
        (∀ ctl qs, ReadsS s a ctl qs → within ctl (ones 5 0 + ones 9 8) = true → fld ctl 5 0 < e.n →
          let op := AmpOp.prob (fld ctl 5 0) (if ctl.getLsbD 8 then some (ctl.getLsbD 9) else none) d
          (s.adding qs [] c.now).startAmp e op [] (some d) (e.latency 0 op []) = .ok c' →
          Passes (.ampProb ch d a) s → Completes (.ampProb ch d a) s c'))) ∧
  ∀ (c c' : Core) (d : AmpDesc) (op : AmpOp) (trans : List (Nat × Nat)) (dst : Option Port) (lat : Nat),
    c.startAmp d op trans dst lat = .ok c' →
      let seq := match op with | .init _ => 0 | _ => c.a.ampSeq
      (∀ e ∈ c.a.ampBusy, e.1 ≤ c.now) ∧ c.a.ampCount < 16 ∧ c'.a.ampSeq = seq + 1 ∧ c'.a.ampCount = c.a.ampCount + 1 ∧
      (d.hbm = false → (∀ b ∈ c.a.bars, meets d.base d.bytes b 16 = false) ∧ c.slotCheck [(c.now + lat, d.base, d.bytes)] = .ok ()) ∧
      c'.a.ampBusy = [(c.now + lat, c.cx.word)] ∧ c'.cx.retire = .at_ (c.now + lat) ∧
      (∃ e ∈ c'.ampLog, e.id = c.a.ampCount ∧ e.issue = c.now ∧ e.done_ = c.now + lat ∧
        ((∀ o ∈ c.ampLog, o.id ≠ c.a.ampCount) → e.seq = seq ∧ e.op = op ∧ e.trans = trans ∧ e.tdone = 0)) ∧
      ∃ i j, c'.a.inflight = c.a.inflight ++ [i, j] ∧ i.act = .ampStart c.a.ampCount ∧ i.lt = c.now + 1 ∧
        j.act = .ampEnd c.a.ampCount d.base (if d.hbm then 0 else d.bytes) ∧ j.lt = c.now + lat ∧ c'.spad = c.spad ∧ c'.a.sys = c.a.sys

/-- R372, R376-R378, R382-R385: tables and seeds load at their LT, points are generated for the lanes enabled from the tables as
they stand, and `qr.skip` moves SEQBASE. SEQ_TABLE is raised for an unloaded dimension, an uncorrectable seed word, or an
uncorrectable direction-number word at a one of a lane's Gray code; it names the lowest dimension with a cause, and every dimension
in which a lane met an uncorrectable word loses its loaded bit. That both go by the lanes of one word is the model's choice (log 138). -/
def Obligations.SequenceWordResults : Prop :=
  ∀ (s : State) (ch : Bool) (d : Port) (a b : Src),
    let c := s.issuing
    let t := c.now
    let p := c.vPipe
    (∀ v ctl qs, ReadsVS s a b v ctl qs →
      let lt := t + if ctl.getLsbD 16 then 6 else 4
      (within ctl (ones 9 0 + ones 16 16) = true → fld ctl 9 0 + fld ctl 16 16 ≤ 1023 → Passes (.qrTab ch a b) s →
        Delivers (.qrTab ch a b) s qs [s.entry p lt none (.qrTab (fld ctl 9 0) (ctl.getLsbD 16) v)] lt) ∧
      (within ctl (ones 9 0 + ones 17 16 + ones 29 24) = true → fld ctl 17 16 ≠ 3 →
        fld ctl 9 0 + (fld ctl 29 24 + 1) ≤ 1024 → Passes (.qrSeed ch a b) s →
        Delivers (.qrSeed ch a b) s qs
          [s.entry p (t + 4) none (.qrSeed (fld ctl 9 0) (fld ctl 17 16) (fld ctl 29 24 + 1) v)] (t + 4))) ∧
    (∀ ctl off qs, ReadsSS s a b ctl off qs → within ctl (ones 9 0 + ones 12 12 + ones 21 16) = true →
      let lanes := (upto (fld ctl 21 16 + 1)).map fun j =>
        if ctl.getLsbD 12 then (c.a.sys.seqbase.toNat + off.toNat, fld ctl 9 0 + j)
        else (c.a.sys.seqbase.toNat + off.toNat + j, fld ctl 9 0)
      let point (code : BitVec 32 → Nat) : Val := Val.ofNat (ofDigits 32 (lanes.map fun l => code (c.seq.scrambled l.1 l.2)))
      (∀ l ∈ lanes, l.1 < 2 ^ 32 ∧ l.2 < 1024) →
      let spoilt (l : Nat × Nat) : Prop := seedKey l.2 ∈ c.seq.bad ∨
        ∃ k < 32, (l.1 ^^^ (l.1 >>> 1)).testBit k = true ∧ dirKey l.2 k ∈ c.seq.bad
      let cause (m : Nat) : Option Nat := c.seq.cause ((lanes.filter fun l => l.2 == m).map Prod.fst) m
      ((∀ l ∈ lanes, l.2 ∈ c.seq.loaded ∧ ¬spoilt l) →
        (Passes (.qrGen ch d a b) s →
          Delivers (.qrGen ch d a b) s qs [s.result p .q d (point BitVec.toNat) 6] (t + 6)) ∧
        (Passes (.qrGenf ch d a b) s →
          Delivers (.qrGenf ch d a b) s qs [s.result p .q d (point pointFloat) 6] (t + 6))) ∧
      (∀ l f, l ∈ lanes → cause l.2 = some f → (∀ m ∈ lanes, m.2 < l.2 → cause m.2 = none) →
        ∃ x : Trap, x.code = .seqTable ∧ x.addr = BitVec.ofNat 64 f ∧ (∀ m, m ∈ x.dims ↔ ∃ l ∈ lanes, l.2 = m ∧ spoilt l) ∧
          (Passes (.qrGen ch d a b) s → exec (.qrGen ch d a b) s = .next (takeTrap s.cur x s)) ∧
          (Passes (.qrGenf ch d a b) s → exec (.qrGenf ch d a b) s = .next (takeTrap s.cur x s)))) ∧
    (∀ v m qs, ReadsSS s a b v m qs → m.toNat < 2 →
      let n := v.toNat + if m.getLsbD 0 then c.a.sys.seqbase.toNat else 0
      n < 2 ^ 32 → Passes (.qrSkip ch d a b) s →
        Delivers (.qrSkip ch d a b) s qs
          [s.entry p (t + 1) none (.sysWrite 0x0C (BitVec.ofNat 64 n)), s.result p .q d (Val.ofScalar (BitVec.ofNat 64 n)) 1] (t + 1)) ∧
    ∀ (c old : Core) (x : Nat) (i : Item),
      let only (q : SeqUnit) : Prop := c.perform old x i = .ok { c with seq := q }
      (∀ dim two v, i.act = .qrTab dim two v → ∃ q, only q ∧ q.mode = c.seq.mode ∧ q.seed = c.seq.seed ∧
        (∀ d k, k < 32 →
          let lane := if d = dim then some k else if two = true ∧ d = dim + 1 then some (32 + k) else none
          (∀ l, lane = some l → SMap.get 0 q.v (dirKey d k) = BitVec.ofNat 32 (v.elem 32 l) ∧
            (dirKey d k ∈ q.bad ↔ (v.kind l).poisoned = true)) ∧
          (lane = none → SMap.get 0 q.v (dirKey d k) = SMap.get 0 c.seq.v (dirKey d k))) ∧
        ∀ d, d ∈ q.loaded ↔ d ∈ c.seq.loaded ∨ d = dim ∨ (two = true ∧ d = dim + 1)) ∧
      ∀ dim mode n v, i.act = .qrSeed dim mode n v → ∃ q, only q ∧ q.v = c.seq.v ∧ q.loaded = c.seq.loaded ∧
        ∀ d, (dim ≤ d → d < dim + n →
            SMap.get 0 q.mode d = mode ∧ SMap.get 0 q.seed d = BitVec.ofNat 32 (v.elem 32 (d - dim)) ∧
            (seedKey d ∈ q.bad ↔ (v.kind (d - dim)).poisoned = true)) ∧
          ((d < dim ∨ dim + n ≤ d) → SMap.get 0 q.mode d = SMap.get 0 c.seq.mode d ∧ SMap.get 0 q.seed d = SMap.get 0 c.seq.seed d)

/-! ## System words, prefixes and the suffix -/

/-- R402-R405, R408-R412: `trap` raises TRAP with its code, `brk` raises BREAK only with BRKEN set and BRKSKIP clear, `rdsys` reads a
register in its layout, as it stood before the updates of the LT, and `wrsys` exchanges one; a source with a nonzero reserved bit and a
read-only register raise RANGE; `icinv` empties the core's own cache. -/
def Obligations.SystemWordResults : Prop :=
  ∀ (s : State) (ch : Bool) (d : Port) (a : Src),
    let c := s.issuing
    (∀ k : BitVec 16, Passes (.trap ch k) s →
      exec (.trap ch k) s = .next (takeTrap s.cur (Trap.at_ .trap (c.immU 16 k.toNat)) s)) ∧
    (∀ k : BitVec 16, Passes (.brk ch k) s →
      ((c.dbgctl.getLsbD 1 = false ∨ c.brkskip = true) → Completes (.brk ch k) s { c with brkskip := false }) ∧
      (c.dbgctl.getLsbD 1 = true → c.brkskip = false →
        exec (.brk ch k) s = .next (takeTrap s.cur (Trap.at_ .break k.toNat) s))) ∧
    (∀ (g : BitVec 8), Passes (.icinv ch g 0) s → Completes (.icinv ch g 0) s { c with icache := [] }) ∧
    (∀ (g : BitVec 8) (sc : BitVec 2) c', sc ≠ 0 → (sc = 1 → (c.slotOfGroup g.toNat).isSome = true) →
      Core.hold { c with icache := [] } .s (.icinv sc g.toNat) 64 = .ok c' → Passes (.icinv ch g sc) s →
        Completes (.icinv ch g sc) s (c'.retireAt c.now)) ∧
    (∀ x : BitVec 8, GivesS (.rdsys ch d x) s c.a.queues d (c.readSys s.cur x.toNat) 1) ∧
    (let r := if c.a.before.1 = c.now then c.a.before.2 else c.a.sys
     let rd (x : Nat) : W64 := c.readSys s.cur x
     rd 0x00 = BitVec.ofNat 64 c.now ∧ rd 0x01 = BitVec.ofNat 64 c.budget ∧
     (c.a.loops.length < 8 → ∀ k < 64, (rd 0x02).getLsbD k =
        if k = 0 then r.p else if k = 3 then r.amp0.getLsbD 23 else if k = 4 then c.brkskip
        else if 8 ≤ k ∧ k ≤ 10 then c.a.loops.length.testBit (k - 8) else if k = 11 then decide (c.die % 2 = 1) else false) ∧
     rd 0x03 = r.flags.setWidth 64 ∧ rd 0x04 = r.fmtsel.setWidth 64 ∧ rd 0x05 = c.a.trapcode.setWidth 64 ∧
     rd 0x06 = BitVec.ofNat 64 c.a.trappc ∧ rd 0x07 = c.a.faultaddr ∧ rd 0x08 = r.rsig ∧ rd 0x09 = c.passno.setWidth 64 ∧
     rd 0x0A = BitVec.ofNat 64 s.cur ∧
     (∀ q cid, c.kernel = some (q, cid) → (rd 0x0B).toNat % 2 ^ 32 = cid % 2 ^ 32 ∧ (rd 0x0B).toNat / 2 ^ 32 = q % 32) ∧
     rd 0x0C = r.seqbase.setWidth 64 ∧ rd 0x0D = c.gstale.setWidth 64 ∧ rd 0x0E = c.dbgctl.setWidth 64 ∧
     rd 0x0F = r.mxmode.setWidth 64 ∧ rd 0x10 = (if r.ampmode then 1 else 0) ∧ rd 0x11 = BitVec.ofNat 64 c.a.traplt ∧
     (∀ k < 16, rd (0x20 + k) = (SMap.get 0 r.fmt k).setWidth 64) ∧ (∀ k < 8, rd (0x30 + k) = BitVec.ofNat 64 (SMap.get 0 c.qwp k)) ∧
     (∀ k < 4, rd (0x38 + k) = (SMap.get 0 r.rdvcnt k ++ (0 : BitVec 15) ++ SMap.get 0 c.gslot k).setWidth 64) ∧
     ((∀ q < 64, r.qpos q < 64) → ∀ k < 7, ∀ j < 10, 10 * k + j < 64 →
       ((rd (0x40 + k)).extractLsb' (6 * j) 6).toNat = r.qpos (10 * k + j))) ∧
    (∀ (x : BitVec 8) v qs, ReadsS s a v qs → Passes (.wrsys ch d a x) s →
      let writable (m : Nat) : Prop :=
        (v.toNat < 2 ^ m →
          Delivers (.wrsys ch d a x) s qs
            [s.entry .s (c.now + 1) none (.sysWrite x.toNat v), s.resultS d (c.readSys s.cur x.toNat) 1] (c.now + 1)) ∧
        (2 ^ m ≤ v.toNat → exec (.wrsys ch d a x) s = .next (takeTrap s.cur (c.wordTrap .range) s))
      (x = 0x01 → writable 48) ∧ (x = 0x03 → writable 5) ∧ (x = 0x04 → writable 4) ∧ (x = 0x08 → writable 64) ∧
      (x = 0x0C → writable 32) ∧ (0x20 ≤ x.toNat → x.toNat ≤ 0x2F → writable 32) ∧
      (x ∉ ([0x01, 0x03, 0x04, 0x08, 0x0C] : List (BitVec 8)) → ¬(0x20 ≤ x.toNat ∧ x.toNat ≤ 0x2F) →
        exec (.wrsys ch d a x) s = .next (takeTrap s.cur (c.wordTrap .range) s)))

/-- R52-R57: a prefix changes how the next operation word is read and nothing else, and a second one of its kind traps; the
suffix of a word that has retired arrives on its barrier at once, of a word that has not at its LT, of a copy on its completion. An
arrival at an LT in the span of an amplitude instruction whose slice holds the barrier is a core access to it (R361; log 92: the
model's choice), so the clauses that arrive ask that it be clear. -/
def Obligations.PrefixSuffixResults : Prop :=
  ∀ s : State,
    let c := s.core s.cur
    let with_ (x : Issue) : State := s.setCore s.cur { c with cx := x }
    let again : State := takeTrap s.cur (c.wordTrap .illegalPrefix) s
    (∀ p, exec (.pfxImm p) s = .next (if c.cx.imm = none then with_ { c.cx with imm := some p } else again)) ∧
    (∀ e r n, exec (.pfxFmt e r n) s =
      .next (if c.cx.fmt = none then with_ { c.cx with fmt := some (e, r, n) } else again)) ∧
    (∀ l, exec (.pfxTs l) s = .next (if c.cx.ts = none then with_ { c.cx with ts := some l } else again)) ∧
    (∀ st l, exec (.pfxRow st l) s = .next (if c.cx.row = (false, false) then with_ { c.cx with row := (st, l) } else again)) ∧
    ∀ (ch : Bool) (a : BitVec 19),
      let p := 16 * a.toNat
      (p ∉ c.a.bars → exec (.sfxArv ch a) s = .next (takeTrap s.cur (c.wordTrap .range) s)) ∧
      (p ∈ c.a.bars → ∀ c1, c.journalBar p = .ok c1 →
        (∀ lt, c.cx.retire = .at_ lt → lt ≤ c.now → c.sliceClear [(c.now, p, 16)] = .ok () →
          exec (.sfxArv ch a) s = .next (s.setCore s.cur (c1.putBar p (BarObj.arrive 1 (c.bar p))))) ∧
        (∀ lt, c.cx.retire = .at_ lt → c.now < lt → c.sliceClear [(lt, p, 16)] = .ok () →
          exec (.sfxArv ch a) s = .next (s.setCore s.cur (c1.later .s lt none (.suffixArrive p)))) ∧
        (∀ id k, c.cx.retire = .copy id → c.copy? id = some k →
          exec (.sfxArv ch a) s = .next (s.setCore s.cur (c1.setCopy { k with arv := k.arv ++ [p] }))))

/-! ## Events of the cores -/

/-- R16, R153-R155, R157, R164, R221, R222, R355, R420: what lands late, the releases of rendezvous and steps, BUDGET, the pair
link, the exchange buffer, the report of a halted core and the end of a kernel, each where its rule lets it happen. These clauses
are the model's choices: that a late result is an event of its own (log 5), that an aborted kernel ends at KERNEL_FINISH once its
copies have (log 35), that a halting core counts as arrived once it is past its exit checks (log 36), that STEP_RELEASE acts in two
parts, the exits and then the release (log 37), that the last entry of an exchange buffer waits for the chunk which the exchange
in progress takes next (log 79), that no chunk is heard while every rail group is DOWN (log 42), when BUDGET counts in the cases of
log 112, and that halt codes wait for the die-to-die link which they need (log 100). -/
def Obligations.CoreEventResults : Prop :=
  ∀ (s : State) (n k : Nat),
    let c := s.core n
    (∀ i, c.a.inflight[k]? = some i → i.ready = false → i.act.isGate = false →
      exec (.resultLand n k) s =
        .next (s.setCore n { c with a := { c.a with inflight := c.a.inflight.set k { i with ready := true } } })) ∧
    (∀ r kr, SMap.get none c.a.rdv k = some r → s.runsFor n kr →
      let count := (SMap.get 0 c.a.sys.rdvcnt k).toNat
      let before := SMap.get 0 kr.rdvDone r.group
      (count < before ∨ ∀ m ∈ s.membersOf kr r.group, m.outOfPlay = true ∨ ∃ x, m.rdvOn r.group = some (x, count)) →
      exec (.rdvRelease n k) s =
        .next ((s.setKernel { kr with rdvDone := SMap.set 0 kr.rdvDone r.group (Nat.max before (count + 1)) }).modCore n fun c =>
          c.openGates fun a => a == .rdvGate k)) ∧
    (∀ kr, s.kernels[k]? = some kr → (∃ c ∈ s.placed kr, c.outOfPlay = false) →
      (∀ c ∈ s.placed kr, c.outOfPlay = true ∨
        ((c.run = .running ∨ c.run = .debug true) ∧ s.atStep c = true ∧ c.translating = false)) →
      ((∃ c ∈ s.placed kr, c.outOfPlay = false ∧ c.a.out = false) →
        exec (.stepRelease k) s = .next ((kr.place.take kr.n).foldl State.stepExit s)) ∧
      ((∀ c ∈ s.placed kr, (c.outOfPlay = true ∨ c.a.out = true) ∧ ∀ h ∈ c.copies, h.stepWaits = false ∨ h.settled = true) →
        exec (.stepRelease k) s = .next ((kr.place.take kr.n).foldl (fun s n => s.modCore n fun c =>
          c.openGates fun a => match a with | .stepGate _ => true | _ => false) s))) ∧
    (s.budgetRuns c = true →
      exec (.budgetExpiry n) s = .next (takeTrap n (Trap.at_ .deadline 0)
        { s.setCore n { c with budget := 0 } with phys := s.phys + c.budget })) ∧
    (∀ r rest, c.mx.link = r :: rest →
      let h := c.mx.partner
      let took : State := s.setCore n { c with mx := { c.mx with partner := h.put r.seq r.par r.row r.data, link := rest } }
      (h.rows = [] ∨ (r.seq = h.seq ∧ SMap.get none h.rows r.row = none) ∨ (r.seq = h.seq + 1 ∧ c.ck.pseq = r.seq) →
        exec (.pairRowArrival n) s = .next took) ∧
      (h.rows ≠ [] → r.seq = h.seq → SMap.get none h.rows r.row ≠ none →
        exec (.pairRowArrival n) s = .next (s.setCore n { c with mx := { c.mx with link := rest } }))) ∧
    (∀ i, c.a.inflight.find? (fun i => match i.act with | .pairGate .. => some i.lt == c.dueLt | _ => false) = some i →
      c.run = .running → s.ms 1 < c.pairWait →
      exec (.pairTimeout n) s = .next (takeTrap n (Trap.at_ .pairTimeout i.word) s)) ∧
    ((∀ x, s.hears = false → exec (.ampChunkArrival n (some x)) s = .next s) ∧
      (∀ x, s.hears = true → (c.ampBuf.length < 15 ∨ c.ampBuf.length < 16 ∧ ∃ e, c.ampActive = some e ∧ e.takesNext x = true) →
        exec (.ampChunkArrival n (some x)) s = .next ((s.setCore n { c with ampBuf := c.ampBuf ++ [x] }).ampRun n)) ∧
      (∀ m x, s.ampSender n = some (m, x) →
        exec (.ampChunkArrival n none) s = .next ((((((s.setCore n { c with ampBuf := c.ampBuf ++ [x] }).crossDie (dieOf m)
            (dieOf n) (c.a.sys.amp.chunkBeats x)).modCore m fun d =>
          match d.ampActive with
          | some e => d.setAmpEntry { e with sent := e.sent + 1 }
          | none => d)).ampRun n).ampRun m))) ∧
    (∀ code kr, c.run = .halting code → s.runsFor n kr → c.a.out = true → c.a.inflight = [] →
      (∀ h ∈ c.copies, h.settled = true) →
      (c.exitTrap = none →
        exec (.coreHaltReport n) s = .next ((s.setCore n { c with run := .halted code }).setKernel
          { kr with codes := SMap.set none kr.codes c.lcore (some code.toNat) })) ∧
      ∀ t, c.exitTrap = some t → exec (.coreHaltReport n) s = .next (takeTrap n t s)) ∧
    (∀ kr, s.kernels[k]? = some kr →
      (kr.state = .running → (s.placed kr).length = kr.n →
        (∀ c ∈ s.placed kr, (∃ x, c.run = .halted x) ∧ ∀ h ∈ c.copies, c.settledAt 3 h = true) → s.codesReach kr = true →
        exec (.kernelFinish k) s = .next (s.endKernel kr (KernelEnd.plain 0 0 0))) ∧
      (∀ e, kr.state = .aborted → kr.end_ = some e → s.copiesOpen kr = false → s.codesReach kr = true →
        exec (.kernelFinish k) s = .next (s.endKernel kr e)))

/-- R388, R389 with R151, R152, R216, R270, R297, R387, R462: the trap reported first is handled with the response of its code, a
BARRIER_FAULT with that of the CAUSE of the barrier waited on; a rewind puts the core back at its checkpoint with the credit of
R151, where a core that is to halt or whose kernel freezes stays, and it is noted for the error log; an abort becomes a debug halt
under the fault-hold policy or TRAPHALT in a debug session; what no response applies to is abandoned. The PRI response (R388,
R216) rewinds a requeued core with the credit of R151 or aborts its kernel; equal twin reruns clear the rewind, unequal ones
retire the pair. The clauses on `pend` and `errlog` (a rerun with the same trap registers counts in the entry that waits, another trap
gets an entry of its own) are the model's choice (log 39, DEDUCED: R462 does not spell it out), and so is the debug halt after
unequal reruns under HOLD or TRAPHALT (log 86, DEDUCED) and a BUDGET that stays at 2^48 - 1 (log 98, DEDUCED). -/
def Obligations.TrapHandlingResults : Prop :=
  (∀ (s : State) (r : TrapReport) (rest : List TrapReport) (k : Kernel),
      let s' : State := { s with reports := rest }
      let c := s.core r.core
      let code := if r.code = .barrierFault then r.cause else r.code.num
      let resumed : RunState := if c.debugHold then .debug false else if k.state = .frozen then .frozen else .running
      let note : PendLog := { corenum := r.core, code := c.a.trapcode, pc := c.a.trappc, addr := c.a.faultaddr, lt := c.a.traplt, reruns := 1 }
      s.reports = r :: rest → s'.runsFor r.core k →
      ((c.run ≠ .trapped ∨ k.state = .aborted) → exec .trapHandling s = .next s') ∧
      (c.run = .trapped → k.state ≠ .aborted → c.twin = none →
        (code ∈ ([0x13, 0x14, 0x20] : List (BitVec 8)) → c.a.out = false → c.rewinds < 5 →
          ∃ t, exec .trapHandling s = .next t ∧ t.reports = rest ∧ (t.core r.core).run = resumed ∧
            (t.core r.core).a = c.ck ∧ (t.core r.core).rewinds = c.rewinds + 1 ∧
            (t.core r.core).budget = Nat.min (c.budget + 2 * (r.lt + 1 - c.ck.segLt)) (2 ^ 48 - 1) ∧
            ((t.core r.core).twin = if r.matrix then some { first := none, atExit := false } else none) ∧
            (c.pend = none → (t.core r.core).pend = some note ∧ t.errlog = s.errlog) ∧
            (∀ p, c.pend = some p → { p with reruns := 1 } = note →
              (t.core r.core).pend = some { p with reruns := p.reruns + 1 } ∧ t.errlog = s.errlog) ∧
            ∀ p, c.pend = some p → { p with reruns := 1 } ≠ note →
              (t.core r.core).pend = some note ∧ t.errlog = s.errlog ++ [p.entry k.cid c.lcore 0]) ∧
        (code ∈ ([0x10, 0x11] : List (BitVec 8)) → c.a.out = false → c.requeues < 64 →
          exec .trapHandling s = .next { s'.setCore r.core { c with run := .requeued } with
            outs := s.outs ++ [.pri r.core (c.faultGranule r.addr.toNat)] }) ∧
        (code = 0x1A → exec .trapHandling s = .next (s'.abortKernel k (c.trapEnd r.core true))) ∧
        (code ∉ ([0x13, 0x14, 0x20, 0x10, 0x11, 0x1A, 0x0B, 0x1B] : List (BitVec 8)) →
          ((s'.queue k.queue).hold = false ∧ c.dbgctl.getLsbD 2 = false ∨ k.session = false) →
          exec .trapHandling s = .next (s'.abortKernel k (c.trapEnd r.core false))) ∧
        (code ∉ ([0x13, 0x14, 0x20, 0x10, 0x11, 0x1A, 0x0B, 0x1B] : List (BitVec 8)) →
          ((s'.queue k.queue).hold = true ∨ c.dbgctl.getLsbD 2 = true) → k.session = true →
          exec .trapHandling s = .next (s'.debugHalt r.core k)) ∧
        (code ∈ ([0x0B, 0x1B] : List (BitVec 8)) →
          exec .trapHandling s = .next
            (if k.session then s'.debugHalt r.core k else s'.abortKernel k (c.trapEnd r.core false))))) ∧
  ∀ (s : State) (n : Nat) (k : Kernel), s.runsFor n k →
    let c := s.core n
    (c.run = .requeued →
      (∃ t, exec (.priResponse n true) s = .next t ∧ (t.core n).a = c.ck ∧
        ((t.core n).run = if c.debugHold then .debug false else if k.state = .frozen then .frozen else .running) ∧
        (t.core n).requeues = c.requeues + 1 ∧ (t.core n).budget = Nat.min (c.budget + (c.a.traplt + 1 - c.ck.segLt)) (2 ^ 48 - 1)) ∧
      (((s.queue k.queue).hold = false ∧ c.dbgctl.getLsbD 2 = false ∨ k.session = false) →
        exec (.priResponse n false) s = .next (s.abortKernel k (c.trapEnd n false))) ∧
      (((s.queue k.queue).hold = true ∨ c.dbgctl.getLsbD 2 = true) → k.session = true →
        exec (.priResponse n false) s = .next (s.debugHalt n k))) ∧
    (∀ t, c.twin = some t → t.atExit = true →
      let here := (c.a.next, c.a.sys.rsig)
      (t.first = none → c.rewinds < 5 →
        ∃ u, exec (.matrixTwinRerun n) s = .next u ∧ (u.core n).a = c.ck ∧ (u.core n).rewinds = c.rewinds + 1 ∧
          (u.core n).twin = some { first := some here, atExit := false }) ∧
      (t.first = some here →
        ∃ u, exec (.matrixTwinRerun n) s = .next u ∧ (u.core n).twin = none ∧ (u.core n).pend = none ∧ (u.core n).a = c.a) ∧
      (∀ f, t.first = some f → f ≠ here →
        ∃ u : State, pairOf n ∈ u.retired ∧ Output.pairFailed (pairOf n) ∈ u.outs ∧
          (u.core n).a.trapcode = TrapCode.num .signatureMismatch ∧
          exec (.matrixTwinRerun n) s = .next
            (if ((s.queue k.queue).hold = true ∨ c.dbgctl.getLsbD 2 = true) ∧ k.session = true then u.debugHalt n k
            else u.abortKernel k ((u.core n).trapEnd n false))))

/-! ## Events of the network and of memory -/

/-- R263, R288, R291, R296, R327, R345, R347, R410: packets reach their cores: a timed send enters the landing buffer or is
refused by it, in the order of its channel; a remote arrival updates its barrier or is held; a `pk.snd` of a stale generation is
counted and refused, one that a core at work may take is written, one for a frozen kernel held; an `icinv` empties the target's
cache. A refusal (R327, R347) that reaches its sender fails the copy with the code and address it carries. That a payload for a
kernel or core at rest waits in the front-end (R396 speaks of what peers send to a frozen kernel) is the model's choice (log 41), and
so are the completion at once of a `cl.fire` whose trigger is a duplicate (log 45), that a trigger word which needs the die-to-die link
waits while it is DOWN (log 100), that nothing is heard of another package while every rail group is DOWN (log 42), and the last clause: a
started `pk.snd` for another package that is refused while no refusal packet is on the network fails with GROUP_STALE (log 96). -/
def Obligations.NetworkEventResults : Prop :=
  (∀ (s : State) (k : Nat) (p : Packet), s.net[k]? = some p →
      let gone := s.dropPacket k
      (∀ f t wide v n, p.kind = .send f t wide v → s.target p = some n →
        (∀ q ∈ s.net.take k, q.sameChannel p = false) →
        let late := (∃ x, (s.core n).run = .halted x) ∧ (s.core n).haltLt < t
        (late → exec (.sendArrival k) s = .next (gone.acknowledge p)) ∧
        (¬late → ∀ s', gone.land n { land := t, kind := .send f wide v } = some s' →
          exec (.sendArrival k) s = .next (s'.acknowledge p)) ∧
        (¬late → gone.land n { land := t, kind := .send f wide v } = none → exec (.sendArrival k) s = .next s)) ∧
      (∀ a n kr, p.kind = .arrive a n → s.kernel? p.kernel = some kr →
        exec (.remoteArrival k) s = .next ((gone.acknowledge p).modMember kr p.dst fun c =>
          c.receiveUpdate { src := .remote, a := a, u := .arrive n })) ∧
      (∀ a wide v bar g gen kr, p.kind = .pk a wide v bar g gen → s.kernel? p.kernel = some kr →
        (¬((s.group g).assigned = true ∧ (s.group g).gen = gen) →
          exec (.pkSndArrival k none) s =
            .next ((gone.modMember kr p.dst fun c => { c with gstale := c.gstale + 1 }).refusePk p .groupStale a)) ∧
        ((s.group g).assigned = true → (s.group g).gen = gen → ∀ n, kr.phys? p.dst = some n →
          ((s.core n).still = true → exec (.pkSndArrival k none) s = .next (gone.holdPk kr p bar)) ∧
          ((s.core n).still = false →
            (∀ b ∈ (upto (if wide then 4 else 1)).map (fun j => a + 64 * j), (s.core n).landingLt (s.core n).a.lt b ≤ (s.core n).a.lt) →
            exec (.pkSndArrival k none) s = .next (gone.deliverPk p n a wide v bar false)))) ∧
      (∀ kr, p.kind = .icinv → s.kernel? p.kernel = some kr →
        let t := gone.modMember kr p.dst fun c => { c with icache := [] }
        exec (.icinvRequestArrival k) s = .next
          (if t.net.any fun q => q.kernel == p.kernel && q.src == p.src && q.kind == .icinv then t.sendBack p else t.acknowledge p)) ∧
      (p.kind = .trigger → s.packetPasses p = false → exec (.coreTriggerArrival k) s = .next s) ∧
      (∀ n id kr c, p.kind = .trigger → s.sender p = some (n, id) → s.kernel? p.kernel = some kr → (s.core n).copy? id = some c →
        s.packetPasses p = true →
        let fails : State := (gone.sendBack p).setCore n ((s.core n).failCopy c .plan c.word)
        (∀ h set ext addr pl, c.op = .clBase h set ext addr → s.plan h = some pl →
          exec (.coreTriggerArrival k) s = .next
            (if pl.liveFor kr.ctx then
              (gone.setPlan h { pl with bases := SMap.set 0 pl.bases (8 * set + ext) addr.toNat }).acknowledge p
            else fails)) ∧
        (∀ v pl, c.op = .clFire v → s.plan (fld v 15 0) = some pl → pl.queue ≠ kr.queue →
          exec (.coreTriggerArrival k) s = .next (match s.judge v with
            | .accepted => if pl.ctx = kr.ctx then gone.queueFire v none (some ((kr.queue, kr.cid), (s.core n).lcore, id)) else fails
            | .duplicate => gone.acknowledge p
            | .refused => fails)))) ∧
  ∀ (s : State) (n id : Nat) (k : Copy) (desc : W64) (gen : BitVec 8) (wide : Bool) (v : Val),
    (s.core n).copy? id = some k → k.op = .pkSnd desc gen wide v →
    (∀ p code a, s.net.find? (fun p => s.sender p == some (n, id) && match p.kind with | .refusal .. => true | _ => false) = some p →
      p.kind = .refusal code a →
      exec (.pkSndRefusal n id) s =
        .next (({ s with net := s.net.erase p } : State).setCore n ((s.core n).failCopy k code a))) ∧
    ((∀ p ∈ s.net, ∀ code a, p.kind ≠ .refusal code a) → k.state = .started → s.pkPackage desc ≠ some s.pkgnum.toNat →
      s.hears = true → exec (.pkSndRefusal n id) s = .next (s.setCore n ((s.core n).failCopy k .groupStale (64 * fld desc 42 26))))

/-- R318-R321: a stripe leaves on the data rails in order with its XOR on the fifth rail; one with no loss is delivered, one lost
beat is rebuilt by the XOR, more are requested again; with one rail down its beat is rebuilt in every stripe, and a group that is DOWN
carries none; a packet stays in the retransmit buffer as it leaves, or while no group can carry it, and one asked for again leaves on
its group while that is up, else on another; over UALink nothing is answered or sent in recovery or once the device is scrapped (R438,
R445); a rail of a UALink port or between the dies that changes is recorded and reported; two D2D rails down lose the link. That the
other group is the lowest one that carries traffic is the model's choice (log 47), and so is that every group reaches the destination
(log 42), but for the packets of a switch. -/
def Obligations.RailEventResults : Prop :=
  ∀ (s : State),
    (∀ g (bs : List Beat512) x, s.groupDeaf g = false → g < 4 → bs ≠ [] → bs.length ≤ 4 → s.railsDown g = [] →
      exec (.linkBeatReceive g (bs.map some) x) s = .next { s with outs := s.outs ++ [.beats g bs] }) ∧
    (∀ g (pre post : List Beat512) (b : Beat512), s.groupDeaf g = false → g < 4 → pre.length + post.length < 4 → s.railsDown g = [] →
      let parity := xorBeats (pre ++ [b] ++ post)
      exec (.linkBeatReceive g (pre.map some ++ [none] ++ post.map some) (some parity)) s =
        .next { s with outs := s.outs ++ [.beats g (pre ++ [b] ++ post)], rebuilt := s.rebuilt ++ [g] }) ∧
    (∀ g (bs : List (Option Beat512)) x, s.groupDeaf g = false → g < 4 → bs.length ≤ 4 → s.railsDown g = [] →
      2 ≤ (bs.filter Option.isNone).length →
      exec (.linkBeatReceive g bs x) s = .next { s with outs := s.outs ++ [.resend g] }) ∧
    (∀ g r (pre post : List Beat512) (b : Beat512), s.groupDeaf g = false → g < 4 → s.railsDown g = [r] → pre.length = r →
      r + post.length < 4 →
      let parity := xorBeats (pre ++ [b] ++ post)
      exec (.linkBeatReceive g (pre.map some ++ [none] ++ post.map some) (some parity)) s =
        .next { s with outs := s.outs ++ [.beats g (pre ++ [b] ++ post)], rebuilt := s.rebuilt ++ [g] }) ∧
    (∀ g r (bs : List Beat512) x, s.groupDeaf g = false → g < 4 → s.railsDown g = [r] → bs ≠ [] → bs.length ≤ r → bs.length ≤ 4 →
      (r = 4 → x = none) →
      exec (.linkBeatReceive g (bs.map some) x) s = .next { s with outs := s.outs ++ [.beats g bs] }) ∧
    (∀ g (bs : List (Option Beat512)) x, (s.groupDeaf g = true ∨ 2 ≤ (s.railsDown g).length) → g < 4 →
      exec (.linkBeatReceive g bs x) s = .next s) ∧
    (∀ bs : List Beat512, bs ≠ [] → bs.length ≤ 4 → onRails true bs = (upto bs.length).zip bs ++ [(4, xorBeats bs)]) ∧
    (∀ (n : Option Nat) (bs : List Beat512) (what : List Output), bs ≠ [] →
      ∃ e, (s.sendOut n bs what).retransmit = s.retransmit ++ [e] ∧ e.beats = bs ∧ e.xor = true ∧
        ((∃ g < 3, (s.railsDown g).length < 2) → e.unsent = [] ∧ (s.railsDown e.group).length < 2 ∧
          (s.sendOut n bs what).outs = s.outs ++ .rails e.group (onRails true bs) :: what) ∧
        ((∀ g < 3, 2 ≤ (s.railsDown g).length) → e.unsent = what ∧ (s.sendOut n bs what).outs = s.outs)) ∧
    (∀ k e, s.retransmit[k]? = some e →
      let again (g : Nat) : Host.Outcome State Fault Refusal := .next { s with
        outs := s.outs ++ .rails g (onRails e.xor e.beats) :: e.unsent
        retransmit := s.retransmit.set k { e with group := g, unsent := [] } }
      ((s.railsDown e.group).length < 2 → exec (.retransmitRequest k) s = if s.groupDeaf e.group then .next s else again e.group) ∧
      (∀ g < 3, e.group < 3 → e.xor = true → 2 ≤ (s.railsDown e.group).length → (s.railsDown g).length < 2 →
        (∀ j < g, 2 ≤ (s.railsDown j).length) → exec (.retransmitRequest k) s = if s.groupDeaf g then .next s else again g)) ∧
    (∀ r < 15, (r ∈ s.portsDown → ∃ t, exec (.railStateChange r true) s = .next t ∧ r ∉ t.portsDown ∧
        Output.railReport r true ∈ t.outs) ∧
      (r ∉ s.portsDown → ∃ t, exec (.railStateChange r false) s = .next t ∧ r ∈ t.portsDown ∧
        Output.railReport r false ∈ t.outs)) ∧
    (∀ r < 5, (r ∈ s.d2dDown → ∃ t, exec (.railStateChange (15 + r) true) s = .next t ∧ r ∉ t.d2dDown ∧
        Output.railReport (15 + r) true ∈ t.outs) ∧
      (r ∉ s.d2dDown → ∃ t, exec (.railStateChange (15 + r) false) s = .next t ∧ r ∈ t.d2dDown ∧
        Output.railReport (15 + r) false ∈ t.outs ∧ (2 ≤ t.d2dDown.length → t.d2dLost = true)))

/-- R257-R263, R267-R271, R300: the life of a copy: its start, each beat's delivery or acknowledgement, what the host answers
for a granule, refusals, and the flushing read. A critical window takes two equal answers, and its second pair that disagrees is a
failure (R271); a copy that fails names the first address that fails in the order of its beats (R270). An invalidation (R269)
completes when no copy still asks through the granule; no core then holds a translation of it. That the oldest translation leaves a
full cache (log 107), and that a copy for another package enters the fabric while any rail group is up, since every group is taken to
reach every package, and is answered only then (log 42), are the model's choices. -/
def Obligations.CopyEventResults : Prop :=
  (∀ (s : State) (n id : Nat) (k : Copy), (s.core n).copy? id = some k →
      let c := s.core n
      (∀ kr, s.runsFor n kr → c.canStart k = true → c.still = false → c.run ≠ .idle → s.linkFor n k = true →
        (k.isWrite = false ∨ c.toPeer k = false ∨ ∀ b ∈ k.beats, b.data.isSome = true) →
        let away : Prop := c.toPeer k = true ∨ s.pkAway k = true
        let begun := s.setCore n (c.setCopy { k with state := .started })
        let packets : List Packet := (s.packetsOf c kr k).map fun e =>
          { kind := e.1, src := some (c.lcore, k.id), dst := e.2, kernel := (kr.queue, kr.cid) }
        exec (.copyStart n id) s = .next (s.startCopy n kr k) ∧
        ((away → s.canReach = false → s.startCopy n kr k = s.setCore n (c.failCopy k .windowPerm
          (match k.op with | .pkSnd d _ _ _ => pkAddr d | _ => k.firstAddr))) ∧
        (¬away → ∃ outs fresh sent, s.startCopy n kr k =
          { begun with net := s.net ++ packets, outs := s.outs ++ outs, fresh := fresh, retransmit := s.retransmit ++ sent }) ∧
        (away → s.canReach = true → packets = [] → s.startCopy n kr k = begun.enterFabric n k))) ∧
      (∀ j b, k.beats[j]? = some b → k.state = .started →
        (∀ d, k.isRead = true → k.op ≠ .scrub → k.timed = none → c.still = false → c.beatDue id j = false →
          b.state = .coming d →
          ∀ x, exec (.copyBeatDone n id j x) s = .next (s.setCore n (c.landUntimed k j b d))) ∧
        (∀ w pa, k.isRead = true → k.op ≠ .scrub → k.timed = none → c.still = false → c.beatDue id j = false →
          b.state = .waiting → b.w = some w → b.pa = some pa → c.kindOf w = 3 → c.blockClear k b = true → s.hears = true →
          ∀ x, exec (.copyBeatDone n id j x) s =
            .next { s.setCore n (c.landUntimed k j b x) with outs := s.outs ++ c.peerAsk k j b }) ∧
        (k.isRead = false → (∀ d g w v, k.op ≠ .pkSnd d g w v) → b.state = .sent →
          ∀ x, exec (.copyBeatDone n id j x) s = .next (s.setCore n (c.finishBeat id j))) ∧
        (∀ t d, k.timed = some t → b.state = .coming d → c.still = false →
          let taken := s.setCore n (c.setCopy (k.setBeat j { b with state := .sent }))
          (∀ s', taken.land n { land := t, kind := .beat id j d } = some s' → exec (.timedBeatArrival n id j) s = .next s') ∧
          (taken.land n { land := t, kind := .beat id j d } = none →
            exec (.timedBeatArrival n id j) s =
              .next (s.setCore n (c.setCopy (k.setBeat j { b with state := .waiting }))))) ∧
        (∀ w pa, b.w = some w → b.pa = some pa → b.state = .waiting → c.kindOf w = 3 → c.blockClear k b = true → s.hears = true →
          exec (.peerAccessRefusal n id j) s = .next
            { s.setCore n (c.refuseBeats k (fun x => x == b) .windowPerm) with
              retransmit := s.retransmit.filter fun e => e.number != beatNumber n id j
              outs := s.outs ++ [.peerRequest (c.peerOf w) pa (k.peerOp j (match b.data with | some d => d.bits | none => 0))] })) ∧
      (∀ (which : Beat → Bool) (code : TrapCode) (pre post : List Beat) (b : Beat) (w : Nat),
        k.settled = false → (∀ x ∈ k.beats, ∀ e, x.state ≠ .refused e) → k.beats = pre ++ b :: post →
        (∀ x ∈ pre, which x = false) → which b = true → b.w = some w →
        ∃ k', (c.refuseBeats k which code).copy? id = some k' ∧ k'.state = .failed code (BitVec.ofNat 64 w)) ∧
      (k.state = .complete → c.toHost k = true → k.flushed = false →
        exec (.flushingReadComplete n id) s = .next (s.setCore n (c.setCopy { k with flushed := true }))) ∧
      (∀ w g, k.settled = false → (∃ b ∈ k.beats, c.awaits b w g = true) →
        ((c.window w).crit = false → s.fetchWaits n ≠ some (w, g) → c.ahead ≠ some (w, g) →
          (∀ pa r wr x, exec (.atsCompletion n w g (.translated pa r wr x)) s =
            let t : Translation := { w := w, granule := g, pa := pa, read := r, write := wr, exec := x }
            .next (s.setCore n ((c.cacheTranslation t).applyTranslation t))) ∧
          exec (.atsCompletion n w g .tooSmall) s = .next (s.setCore n (c.failGranule w g .windowPerm)) ∧
          exec (.atsCompletion n w g .notPresent) s = .next (s.setCore n (c.failGranule w g .page))) ∧
        ∀ v, (c.window w).crit = true →
          let rest := c.pairs.filter fun p => !(p.w == w && p.granule == g)
          let one (first : Option AtsVerdict) (again : Bool) : State :=
            s.setCore n { c with pairs := rest ++ [{ w := w, granule := g, first := first, again := again }] }
          let both (r : Option AtsVerdict) : State := (s.setCore n { c with pairs := rest }).settleGranule n w g r
          exec (.atsCompletion n w g v) s = .next
            (match c.pairs.find? fun p => p.w == w && p.granule == g with
            | none => one (some v) false
            | some p => match p.first with
              | none => one (some v) p.again
              | some u => if u = v then both (some v) else if p.again then both none else one none true))) ∧
  ∀ (s : State) (g : Nat), (∀ n, ∀ k ∈ (s.core n).copies, (s.core n).usesGranule k g = false) → (s.cores.map Prod.fst).Nodup →
    ∃ t, exec (.atsInvalidation g) s = .next t ∧
      ∀ n, (t.core n).tlb = (s.core n).tlb.filter (fun x => x.granule != g) ∧ (t.core n).spad = (s.core n).spad ∧
        (t.core n).a = (s.core n).a

/-- R274-R277, R282, R324, R438: the HBM controllers: a beat is accepted in its block's order and a write joins the channel's queue
while it has room; writes drain above 48, and refreshes below 16, where writes drain once none is postponed; a refresh is served,
postponed or forced; a peer's read, write or reduction is answered under the export table, a write while its channel's queue has room, and
none in recovery (R438) or while every UALink group is DOWN (R320; log 42). That a beat for the HBM beside the other die is not accepted
while the die-to-die link is DOWN is the model's choice (log 100). -/
def Obligations.MemoryEventResults : Prop :=
  ∀ (s : State),
    (∀ n id j k b w pa, (s.core n).copy? id = some k → k.beats[j]? = some b → b.w = some w → b.pa = some pa → k.state = .started →
      b.state = .waiting → (s.core n).kindOf w = 1 → (s.core n).blockClear k b = true →
      (s.reaches (dieOf n) pa 64 = false → exec (.hbmAccessAccept n id j) s = .next s) ∧
      (s.reaches (dieOf n) pa 64 = true →
      let c := s.core n
      let key := s.keyOfCore c
      (k.op = .get → c.still = false → s.zeroFill = false → (∀ a ∈ rangeFrom pa 64, s.blockKey a = key) → pa + 64 ≤ doorbellBase →
        ∃ t, exec (.hbmAccessAccept n id j) s = .next t ∧ t.hbm = s.hbm ∧
          t.core n = c.setCopy (k.setBeat j { b with
            state := .coming { bits := bytesBeat (readBytes s.hbm pa 64), bad := s.hbmBad.contains (pa / 64) } })) ∧
      (∀ d, k.op = .put → b.data = some d → (doorbellBase ≤ pa ∨ (s.channel (channelOf pa)).wq.length < 64) →
        ∃ t, exec (.hbmAccessAccept n id j) s = .next t ∧ t.hbm = (s.hbmWrite key pa (beatBytes d.bits)).hbm ∧
          t.core n = c.setCopy (k.setBeat j { b with state := .sent }) ∧ (∀ ch ≠ channelOf pa, t.channel ch = s.channel ch) ∧
          (t.channel (channelOf pa)).wq =
            (s.channel (channelOf pa)).wq ++ if doorbellBase ≤ pa then [] else [pa / 64]))) ∧
    (∀ ch < 256,
      let x := s.channel ch
      let write : State := s.setChannel ch { x with wq := x.wq.drop 1, refreshNext := true }
      let refresh : State := s.setChannel ch { x with postponed := x.postponed - 1, refreshNext := false }
      (48 < x.wq.length → exec (.hbmWriteDrain ch) s = .next write) ∧
      (x.wq.length < 16 → x.postponed ≠ 0 → exec (.hbmWriteDrain ch) s = .next refresh) ∧
      (16 ≤ x.wq.length → x.wq.length ≤ 48 → x.postponed ≠ 0 →
        exec (.hbmWriteDrain ch) s = .next (if x.refreshNext then refresh else write)) ∧
      (x.wq ≠ [] → x.postponed = 0 → exec (.hbmWriteDrain ch) s = .next write) ∧
      (x.wq = [] → x.postponed = 0 → exec (.hbmWriteDrain ch) s = .next s) ∧
      (x.postponed < 8 →
        exec (.hbmRefresh ch) s = .next
          (if x.wq.length ≤ 48 ∧ s.rowHeld x = false then s else s.setChannel ch { x with postponed := x.postponed + 1 })) ∧
      (x.postponed = 8 → exec (.refreshForce ch) s = .next (s.setChannel ch { x with postponed := 7 }))) ∧
    (∀ r : PeerReq, (s.recovery = true ∨ ∀ g < 3, 2 ≤ (s.railsDown g).length) → exec (.peerAccess r) s = .next s) ∧
    (∀ r : PeerReq, s.recovery = false → s.lifecycle ≠ .scrapped → (∃ g < 3, (s.railsDown g).length < 2) →
      ((s.pkgset = false ∨ ∀ e ∈ s.exports, e.2.allows r = false) →
        exec (.peerAccess r) s = .next (s.sendOut none [] [.peer false none])) ∧
      (∀ e, s.pkgset = true → (s.exports.map Prod.snd).find? (fun e => e.allows r) = some e →
        let key := s.keyOf (e.owner.getD 0)
        let room : Prop := doorbellBase ≤ r.addr ∨ (s.channel (channelOf r.addr)).wq.length < 64
        (r.op = .read →
          let back := s.contextRead key r.addr 64
          exec (.peerAccess r) s = .next (back.2.sendOut none [bytesBeat back.1]
            [.peer true (some { bits := bytesBeat back.1, bad := s.uncorrectable r.addr 64 })])) ∧
        (∀ d half, r.op = .write d half →
          (room → exec (.peerAccess r) s = .next
            (((s.hbmWrite key r.addr ((beatBytes d).take (if half then 32 else 64))).enqueue r.addr).sendOut none [] [.peer true none])) ∧
          (¬room → exec (.peerAccess r) s = .next s)) ∧
        (∀ op t d, r.op = .amo op t d →
          (room → exec (.peerAccess r) s = .next (((s.reduce key r.addr op t d).enqueue r.addr).sendOut none [] [.peer true none])) ∧
          (¬room → exec (.peerAccess r) s = .next s)))) ∧
    ∀ (key : Option (Nat × Nat)) (pa : Nat) (op : BitVec 3) (t : BitVec 4) (v : Beat512),
      (pa / 64 ∈ s.hbmBad → (s.reduce key pa op t v).hbm = s.hbm) ∧
      (pa / 64 ∉ s.hbmBad →
        let (bs, u) := s.hbmRead key pa 64
        (s.reduce key pa op t v).hbm = (u.hbmWrite key pa (toBytes 64 (reduceBlock op t (ofBytes bs) v.toNat))).hbm)

/-! ## Collective plans -/

/-- R327, R329-R337, R342: plans and their firings: packets counted or dropped as stale, an operation that is ready has its effect and
lowers its successors' counters, the last one completes the firing, confirmations make a plan live, refusals and time-outs end
it, and a host's trigger is accepted, dropped as a duplicate or refused; what a switch sends for a node that has fallen back is
discarded; a plan that another package sets up is reserved here and answered; the outcome of a set-up goes to the other packages and
the switches. That a packet which has come counts in the DEP of its RECV is the model's choice (log 44), and so are STATUS 3 for a
set-up that is refused or timed out (log 46), that a packet of the firing which is complete here is dropped (log 44), that the FIRE of a
host's trigger takes no command slot and has no CID (log 45), that nothing is heard of another package while every rail group is DOWN
(log 42), and that an operation waits for the die-to-die link that it needs (log 100). -/
def Obligations.PlanEventResults : Prop :=
  (∀ (s : State) (q h : Nat) (d : PlanDesc) (m : Plan), s.ready = true → s.hears = true → s.pkgset = true → h < 4096 →
    s.handleFree h = true → (s.group d.group).assigned = true → (s.group d.group).gen = d.gen → s.newPlan d none = some m →
    s.peerSetup q h d = .next ((s.setPlan h { m with awaiting := [], live := false }).tellPackage (.answer h true) q)) ∧
  (∀ (s : State) (k : CollPacket), s.plan k.handle = none → exec (.collectivePacketArrival k) s = .next s) ∧
  ∀ (s : State) (h : Nat) (p : Plan), s.plan h = some p →
    (∀ op f o, p.firing = some f → p.ops[op]? = some o → p.opReady f op = true → s.opReaches f o = true →
      let t := s.performOp h p f op o
      ∃ p1 f1, t.plan h = some p1 ∧ p1.firing = some f1 ∧ f1.seq = f.seq ∧ p1.ops = p.ops ∧ p1.succ = p.succ ∧
        let f' : Firing := { f1 with
          counts := (opSuccs p.succ o).foldl (fun cs i => cs.set i (cs.getD i 0 - 1)) f1.counts
          done_ := f1.done_ ++ [op] }
        let p' : Plan := { p1 with
          contexts := p1.contexts.filter fun k => !(k.seq == f.seq && p1.recvOf k == some op), since := t.phys }
        (f'.done_.length ≠ p.ops.length →
          exec (.chunkOpComplete h op) s = .next (t.setPlan h { p' with firing := some f' })) ∧
        (f'.done_.length = p.ops.length →
          exec (.chunkOpComplete h op) s =
            .next ((t.setPlan h { p' with
              state := .idle, completed := f.seq, firing := none, past := some f'
              news := p'.news.filter fun x => x.seq != f.seq }).endFiring p' f' 0))) ∧
    (∀ k : CollPacket, k.handle = h →
      let g := s.group k.group
      let known : Prop := g.assigned = true ∧ g.gen = k.gen ∧ p.group = k.group ∧ p.gen = k.gen
      (s.hearsPacket p k = false → exec (.collectivePacketArrival k) s = .next s) ∧
      (s.hearsPacket p k = true →
      (¬known → exec (.collectivePacketArrival k) s = .next (s.setPlan h { p with stale := p.stale + 1 })) ∧
      (∀ i, known → p.live = true → (k.site = false ∨ k.result = true) → p.recvOf k = some i → k.from_ ≠ none →
        p.completed = k.seq → exec (.collectivePacketArrival k) s = .next s) ∧
      (∀ i, known → p.live = true → (k.site = false ∨ k.result = true) → p.recvOf k = some i → k.from_ ≠ none →
        p.completed ≠ k.seq → p.packetFor k.seq i = none →
        (p.firing = none →
          exec (.collectivePacketArrival k) s = .next (s.setPlan h { p with contexts := p.contexts ++ [k] })) ∧
        ∀ f, p.firing = some f → f.seq = k.seq → i ∉ f.done_ →
          exec (.collectivePacketArrival k) s = .next (s.setPlan h { p with
            contexts := p.contexts ++ [k], since := s.phys
            firing := some { f with counts := f.counts.set i (f.counts.getD i 0 - 1) } })) ∧
      (∀ i f, known → p.live = true → k.site = true → k.result = true → k.from_ = none → p.recvOf k = some i →
        p.firing = some f → f.seq = k.seq → (k.level, k.index) ∈ f.fallen → exec (.collectivePacketArrival k) s = .next s))) ∧
    (∀ f, p.firing = some f → s.ms 100 ≤ s.phys - p.since →
      exec (.planProgressTimeout h) s =
        .next ((s.setPlan h { p with state := .failed, firing := none }).endFiring p f 3)) ∧
    (∀ q i, p.setup = some (q, i) → ∀ who ∈ p.awaiting, s.hearsOf p who = true →
      exec (.planSetupConfirm h who false) s = .next (((s.tellAll p (.outcome h false)).erasePlan h).finishStatus q i 3) ∧
      (p.awaiting = [who] → exec (.planSetupConfirm h who true) s =
        .next (((s.setPlan h { p with awaiting := [], live := true }).tellAll p (.outcome h true)).finish q i
          (handleRecord (cidOf q i) h))) ∧
      (p.awaiting.erase who ≠ [] → exec (.planSetupConfirm h who true) s =
        .next (s.setPlan h { p with awaiting := p.awaiting.erase who, live := false }))) ∧
    (∀ q i, p.setup = some (q, i) → p.awaiting ≠ [] → s.ms 100 ≤ s.phys - p.since →
      exec (.planSetupTimeout h) s = .next (((s.tellAll p (.outcome h false)).erasePlan h).finishStatus q i 3)) ∧
    (∀ (v : W64) (tee : Bool), s.answers tee → h < 4096 → p.live = true → p.state ≠ .freed → fld v 15 0 = h →
      let seq := fld v 63 32
      let bad : Prop := p.state = .failed ∨ 15 < fld v 23 16 ∨ fld v 31 25 ≠ 0
      (seq = p.accepted → exec (.hostTrigger (4096 * h) 8 v tee) s = .next s) ∧
      (seq ≠ p.accepted → ¬bad → seq = (p.accepted + 1) % 2 ^ 32 →
        ∃ t, exec (.hostTrigger (4096 * h) 8 v tee) s = .next t ∧
          t.plan h = some { p with accepted := seq } ∧
          (t.queue p.queue).fires = (s.queue p.queue).fires ++
            [{ tail := (s.queue p.queue).tail, trigger := v, cmd := none, origin := none }]) ∧
      (seq ≠ p.accepted → bad ∨ seq ≠ (p.accepted + 1) % 2 ^ 32 →
        exec (.hostTrigger (4096 * h) 8 v tee) s = .next { s with outs := s.outs ++ [.triggerRefused h] }))

/-! ## Queue commands -/

/-- R416, R419, R420, R430: commands that finish at their start: each leaves the head of its queue, has its effect, and its
record. A malformed command (R419-R422, R425) at the head of the queue served next is refused with STATUS 1 under the row of its
code; a well-formed one is taken from the head. That a code which is not listed is refused under the row NOPC is the model's choice
(log 51), and so are STATUS 1 for a range that runs past the end of HBM (log 140) and a reread that leaves a WAIT where it stands with the
time since when each head could start noted (log 54). -/
def Obligations.PlainCommandResults : Prop :=
  (∀ (s : State) (q : Nat) (ws : List W64),
      let i := (s.queue q).head
      let t := s.take q ws
      let done_ (t : State) : Host.Outcome State Fault Refusal := .next ((t.finishStatus q i 0).reachHead q)
      (s.atHead q 0x02 ws → exec (.wait q) s = done_ t) ∧
      (s.atHead q 0x02 ws → (s.queue q).en = true → (s.queue q).err = false → cmdFld ws 1 0 0 = 1 →
        exec (.waitReread q) s = done_ t) ∧
      (∀ m, s.ready = true → s.recovery = false → (s.queue q).en = true → (s.queue q).err = false →
        s.head q = some (.command ws) → commandOk q i ws = true → cmdFld ws 0 7 0 = 2 → cmdFld ws 1 0 0 = 1 →
        s.nextQueue = m → m ≠ some q →
        exec (.waitReread q) s = .next (if s.cmdReaches q ws then s.rereadWait q ws else s)) ∧
      (s.atHead q 0x03 ws →
        exec (.signal q) s = done_ (t.queueWrite q (cmdFld ws 1 1 1 == 1) (cmdFld ws 2 63 0) (toBytes 8 (cmdFld ws 3 63 0)))) ∧
      (s.atHead q 0x04 ws → exec (.fenceCommand q) s = done_ t) ∧
      (s.atHead q 0x0E ws → exec (.nopc q) s = done_ t) ∧
      (s.atHead q 0x0A ws →
        let named := (upto 192).filter fun n =>
          cmdFld ws (2 + n / 64) (n % 64) (n % 64) == 1 && !s.kernels.any fun k => k.place.contains n
        ∃ u, exec (.cal q) s = done_ u ∧
          ∀ n, n ∈ u.lent ↔ (n ∈ s.lent ∧ n ∉ named) ∨ (cmdFld ws 1 0 0 = 1 ∧ n ∈ named))) ∧
  ∀ (s : State) (q : Nat) (ws : List W64), s.ready = true → s.recovery = false → s.head q = some (.command ws) →
    s.nextQueue = some q → commandOk q (s.queue q).head ws = false →
    let code := cmdFld ws 0 7 0
    let row : Option Instr :=
      match code with
      | 0x01 => some (.launch q) | 0x02 => some (.wait q) | 0x03 => some (.signal q) | 0x04 => some (.fenceCommand q)
      | 0x05 => some (.fire q) | 0x06 => some (.planSetup q) | 0x07 => some (.planFree q) | 0x08 => some (.copy q none)
      | 0x09 => some (.scrub q none) | 0x0A => some (.cal q) | 0x0B => some (.group q) | 0x0C => some (.preempt q)
      | 0x0D => some (.resume q) | 0x0E => some (.nopc q) | 0x0F => some (.exportEntry q) | _ => none
    exec (row.getD (.nopc q)) s = .next (((s.take q ws).finishStatus q (s.queue q).head 1).reachHead q)

/-- R282, R283, R430: COPY and SCRUB start at the head and go on beat by beat: a beat read at the source is written at the
destination, a correctable block is mended, and the last step gives the record. The beats go upwards from the lowest address, one by
one: the model's choice, which shows where source and destination overlap (log 59), and so is that a beat waits for the die-to-die
link that it needs (log 100). -/
def Obligations.BeatCommandResults : Prop :=
  ∀ (s : State) (q i : Nat) (ws : List W64),
    (s.atHead q 0x08 ws → exec (.copy q none) s = .next ((s.take q ws).reachHead q)) ∧
    (s.atHead q 0x09 ws → exec (.scrub q none) s = .next ((s.take q ws).reachHead q)) ∧
    (∀ c, s.startedCmd q i 0x08 = some c → s.copyReaches c = false → exec (.copy q (some i)) s = .next s) ∧
    (∀ c, s.startedCmd q i 0x08 = some c → s.copyReaches c = true →
      let at_ (w : Nat) : Nat := cmdFld c.words w 63 0 + 64 * c.progress
      let bs := (s.queueRead q (cmdFld c.words 4 0 0 == 1) (at_ 1) 64).1
      let t := ((s.queueRead q (cmdFld c.words 4 0 0 == 1) (at_ 1) 64).2.queueWrite q (cmdFld c.words 4 1 1 == 1) (at_ 2) bs).setCmd q
        { c with progress := c.progress + 1 }
      (c.progress + 1 ≠ cmdFld c.words 3 31 0 → exec (.copy q (some i)) s = .next t) ∧
      (c.progress + 1 = cmdFld c.words 3 31 0 → exec (.copy q (some i)) s = .next (t.finishStatus q c.index 0))) ∧
    (∀ c, s.startedCmd q i 0x09 = some c → s.scrubReaches c = false → exec (.scrub q (some i)) s = .next s) ∧
    (∀ c, s.startedCmd q i 0x09 = some c → s.scrubReaches c = true →
      let blk := cmdFld c.words 1 38 0 / 64 + c.progress
      (c.progress < cmdFld c.words 2 31 0 → blk ∉ s.hbmBad → blk ∈ s.hbmWeak →
        ∃ t, exec (.scrub q (some i)) s = .next t ∧ blk ∉ t.hbmWeak ∧ t.hbm = s.hbm) ∧
      (cmdFld c.words 2 31 0 ≤ c.progress →
        exec (.scrub q (some i)) s = .next ((s.queueWrite q (cmdFld c.words 4 1 1 == 1) (cmdFld c.words 3 63 0)
          (scrubMaps (cmdFld c.words 2 31 0) c.found)).finishStatus q c.index 0)))

/-- R426-R429, R394-R398, R423, R425, R431: a kernel that is launched stands on its cores, each at its entry with what R25 loads,
and the spare core is idle; one that is pre-empted has every core that runs frozen where it stood; once at rest its contexts are
saved and its cores given up; resumed, each core goes on from its context. GROUP releases an entry or writes it with the next
generation; EXPORT writes an entry or refuses it with STATUS 1; a queue that has starved is served next. That a scratchpad image loads
from scratchpad address 0 (log 17), that a plan not yet freed keeps a group in use and that an export entry with VALID = 0 has no owner
(log 57), what a RESUME takes (log 61), that a kernel which the scan froze may be pre-empted (log 62) and that a context area behind
a die-to-die link that is DOWN waits (log 100) are the model's choices. -/
def Obligations.KernelCommandResults : Prop :=
  ∀ (s : State) (q : Nat) (ws : List W64),
    let i := (s.queue q).head
    let t := s.take q ws
    (s.atHead q 0x01 ws →
      (∀ img wins place, s.launchVerdict q ((s.queue q).pred.getD none) ws = .starts img wins place →
        let k := t.newKernel q i img place ws
        let u := t.startKernel q i img wins place ws
        exec (.launch q) s = .next (u.reachHead q) ∧ u.kernels = t.kernels ++ [k] ∧
        k.state = .running ∧ k.cid = cmdFld ws 0 63 32 ∧ k.queue = q ∧ k.ctx = (s.queue q).ctx ∧ k.place = place ∧ k.n = img.n ∧
        (∀ l n, l < img.n → place[l]? = some n →
          let c := u.core n
          let part := img.spads.getD l (0, 0)
          c.run = .running ∧ c.kernel = some (q, cmdFld ws 0 63 32) ∧ c.lcore = l ∧ c.entryPc = img.entries.getD l 0 ∧
          c.a.pc = c.entryPc ∧ c.a.lt = 0 ∧ c.a.superNext = true ∧ c.a.inflight = [] ∧ c.copies = [] ∧ c.ck = c.a ∧
          c.budget = cmdFld ws 5 47 0 ∧ c.launchBudget = c.budget ∧ c.win0 = tableOf 0 (wins.map Prod.fst) ∧
          c.win1 = tableOf 0 (wins.map Prod.snd) ∧
          c.spad = writeBytes [] 0 (t.hbmBytes (t.keyOf k.ctx) part.1 part.2)) ∧
        (∀ n ∈ place.drop img.n, (u.core n).run = .idle ∧ (u.core n).kernel = none) ∧ ∀ n ∉ place, u.core n = t.core n) ∧
      (∀ cid, (s.queue q).pred = some (some cid) →
        exec (.launch q) s = .next ((t.finish q i (dependenceRecord (cidOf q i) cid)).reachHead q))) ∧
    (s.atHead q 0x0B ws →
      let g := cmdFld ws 1 7 0
      let e := t.group g
      let last := SMap.get 0 e.lastUse (e.gen + 1).toNat
      (∀ u, t.groupCommand q ws = some u → exec (.group q) s = .next ((u.finishStatus q i 0).reachHead q)) ∧
      (t.groupCommand q ws = none → exec (.group q) s = .next ((t.finishStatus q i 1).reachHead q)) ∧
      (e.assigned = true → t.groupNamed g e.gen = true → t.groupCommand q ws = none) ∧
      (e.assigned = false ∨ t.groupNamed g e.gen = false →
        (cmdFld ws 1 8 8 = 1 → ∃ u, t.groupCommand q ws = some u ∧
          u.groups = SMap.set .reset t.groups g { e with assigned := false, owner := 0, members := 0, ext := [] }) ∧
        (cmdFld ws 1 8 8 = 0 →
          (last ≠ 0 → s.phys + 1 < last + s.ms 2 → t.groupCommand q ws = none) ∧
          (last = 0 ∨ last + s.ms 2 ≤ s.phys + 1 → cmdFld ws 1 9 9 = 0 → ∃ u, t.groupCommand q ws = some u) ∧
          ∀ u, t.groupCommand q ws = some u → ∃ ext, (cmdFld ws 1 9 9 = 0 → ext = []) ∧
            u.groups = SMap.set .reset t.groups g { e with
              assigned := true, gen := e.gen + 1, owner := cmdFld ws 1 63 32, ext := ext
              members := BitVec.ofNat 192 (cmdFld ws 2 63 0 + (cmdFld ws 3 63 0) <<< 64 + (cmdFld ws 4 63 0) <<< 128) }))) ∧
    (∀ k, s.atHead q 0x0C ws → s.kernels.find? (fun k => k.cid == cmdFld ws 1 31 0 && k.ctx == (t.queue q).ctx) = some k →
      k.state = .running ∨ (k.state = .frozen ∧ s.preempts k = false) → cmdFld ws 2 38 0 + k.n * 2 ^ 24 ≤ 2 ^ 39 →
      let u := t.freezeAll k
      exec (.preempt q) s = .next (u.reachHead q) ∧
      ((∀ n ∈ k.place.take k.n, (t.core n).run.halted? = false) →
        u.kernels = (t.setKernel { k with state := .frozen }).kernels ∧
        (∀ n ∈ k.place.take k.n,
          ((t.core n).run = .running → (u.core n).run = .frozen ∧ (u.core n).a = (t.core n).a ∧ (u.core n).spad = (t.core n).spad) ∧
          ((t.core n).run ≠ .running → (t.core n).run ≠ .frozen →
            (u.core n).run = (t.core n).run ∧ (u.core n).a = (t.core n).a ∧ (u.core n).spad = (t.core n).spad)) ∧
        ∀ n ∉ k.place.take k.n, u.core n = t.core n)) ∧
    (∀ xs c ys k,
      let kernelOf (c : Cmd) := s.kernels.find? fun k => k.cid == cmdFld c.words 1 31 0 && s.atRest k
      (s.queue q).started = xs ++ c :: ys → (∀ x ∈ xs, x.opc ≠ 0x0C ∨ x.finished = true ∨ kernelOf x = none) →
      c.opc = 0x0C → c.finished = false → kernelOf c = some k →
      let area := cmdFld c.words 2 38 0
      let u := s.saveKernel k area
      (s.areasReach k area = true → exec (.contextSaveComplete q) s = .next (u.finishStatus q c.index 0)) ∧
      (s.areasReach k area = false → exec (.contextSaveComplete q) s = .next s) ∧
      (∃ saved, u.kernels = (s.setKernel { k with state := .saved area, place := [], context := saved }).kernels ∧
        ∀ l n, l < k.n → k.place[l]? = some n → SMap.get none saved l = some (s.core n)) ∧
      (∀ n ∈ k.place, (u.core n).run = .idle ∧ (u.core n).kernel = none) ∧ ∀ n ∉ k.place, u.core n = s.core n) ∧
    (∀ k place, s.atHead q 0x0D ws → s.savedKernel q ws = some k → t.placement k.dies = some place →
      let u := t.resumeKernel k (cmdFld ws 2 38 0) place
      exec (.resume q) s = .next ((u.finishStatus q i 0).reachHead q) ∧
      (k.held = [] → (∀ l c, SMap.get none k.context l = some c → c.held = []) →
        (∃ used, u.kernels = (t.setKernel
          { k with state := .running, place := place, context := [], since := s.phys, used := used }).kernels) ∧
        ∀ l n c, l < k.n → place[l]? = some n → SMap.get none k.context l = some c →
          u.core n = Core.thaw ((t.core n).physical { c with
            die := dieOf n, passno := BitVec.ofNat 32 (SMap.get 0 s.passes (pairOf n)) } |> fun d => { d with nextId := c.nextId }))) ∧
    (s.atHead q 0x0F ws →
      let ctx := (t.queue q).ctx
      let w0 := ws.getD 2 0
      let w1 := ws.getD 3 0
      let foreign (e : ExportEntry) : Prop := e.w0.getLsbD 63 = true ∧ e.owner ≠ some ctx
      let refused : Prop := foreign (SMap.get .reset s.exports (cmdFld ws 1 5 0)) ∨ exportOk w0 w1 = false ∨
        ∃ e ∈ s.exports, foreign e.2 ∧ exportsMeet w0 w1 e.2 = true
      (¬refused →
        let e : ExportEntry := { w0 := w0, w1 := w1, owner := if w0.getLsbD 63 then some ctx else none }
        exec (.exportEntry q) s = .next
          ((State.finishStatus { t with exports := SMap.set .reset t.exports (cmdFld ws 1 5 0) e } q i 0).reachHead q)) ∧
      (refused → exec (.exportEntry q) s = .next ((t.finishStatus q i 1).reachHead q) ∧
        ((t.finishStatus q i 1).reachHead q).exports = s.exports)) ∧
    (∀ since, (s.queue q).ready = some since → (s.queue q).starved = false → s.canServe q = true → s.ms 10 ≤ s.phys - since →
      let x := s.queue q
      exec (.queueStarvationTimeout q) s = .next (s.setQueue q { x with starved := true }))

/-- R329-R331, R335-R337, R341: the commands of plans: a FIRE of the plan's own queue starts the firing, one of another queue stands
at the tail of the bound queue, a set-up that nobody else must confirm makes the plan live and gives its handle, one that others must
confirm is sent to them, a plan that no firing runs is freed on every listed package. That a duplicate FIRE ends with STATUS 0 and
one that is refused with STATUS 1 (log 53), that a set-up whose switch does not advertise the profile, or that finds no free handle,
ends with STATUS 3 (log 46), and that PLAN_FREE of a plan not live or of another context ends with STATUS 1 (log 57), are the model's
choices. -/
def Obligations.PlanCommandResults : Prop :=
  ∀ (s : State) (q : Nat) (ws : List W64),
    let i := (s.queue q).head
    let t := s.take q ws
    (∀ f, s.ready = true → s.recovery = false → s.head q = some (.fire f) → s.nextQueue = some q →
      exec (.fire q) s = .next (s.startQueued q f)) ∧
    (∀ p, s.atHead q 0x05 ws →
      let v := ws.getD 1 0
      s.plan (fld v 15 0) = some p →
      (s.judge v = .accepted → p.queue = q → exec (.fire q) s = .next
        ((t.startFiring (fld v 15 0) { p with accepted := fld v 63 32 } v (some (q, i)) (v.getLsbD 24) none).reachHead q)) ∧
      (s.judge v = .accepted → p.queue ≠ q → exec (.fire q) s = .next ((t.queueFire v (some (q, i)) none).reachHead q)) ∧
      (s.judge v = .duplicate → exec (.fire q) s = .next ((t.finishStatus q i 0).reachHead q)) ∧
      (s.judge v = .refused → exec (.fire q) s =
        .next ((t.finishStatus q i (if p.state = .failed then 3 else 1)).reachHead q))) ∧
    (∀ d p, s.atHead q 0x06 ws → s.pkgset = true → s.readPlan (s.keyOf (s.queue q).ctx) (cmdFld ws 1 38 0) = some d →
      s.newPlan d (some (q, i)) = some p →
      let others := d.packages.map PlanPackage.package
      (∀ h, s.advertised d = true → s.freeHandle others = some h →
        exec (.planSetup q) s = .next
          (((if p.live then (t.setPlan h p).finish q i (handleRecord (cidOf q i) h)
            else (t.setPlan h p).askAll h p d) : State).reachHead q)) ∧
      (s.advertised d = false ∨ s.freeHandle others = none →
        exec (.planSetup q) s = .next ((t.finishStatus q i 3).reachHead q))) ∧
    (∀ p, s.atHead q 0x07 ws → s.plan (cmdFld ws 1 15 0) = some p →
      exec (.planFree q) s = .next
        ((if p.live ∧ p.ctx = (t.queue q).ctx then (t.freeEverywhere (cmdFld ws 1 15 0) p).finishStatus q i 0
          else t.finishStatus q i 1).reachHead q))

/-! ## Registers, debugging, security and power -/

/-- R413-R418, R441, R442, R453: writes that the TDI state serves: a queue is enabled with its counts at zero, or stops; a tail
inside the ring is taken and one outside sets ERR; QHEAD and QFINAL of a queue that stopped read as they stood; a doorbell of a core on
die 1 waits while the die-to-die link is DOWN (log 100); the aperture, the package number and the writable registers take their
values, and the others ignore the write; a write without the T bit in RUN enters ERROR, and one with it in CONFIG_UNLOCKED is
refused. That the tail too is 0 after an enable, that FIREs which stand in the queue then stand at its start (log 55), and that bits
[63:32] of a QTAIL write, which R416 wants zero, are ignored (log 56), are the model's choices. -/
def Obligations.RegisterEventResults : Prop :=
  ∀ (s : State) (q : Nat) (v : W64) (tee : Bool), q < 32 →
    let x := s.queue q
    (s.answers tee →
      (v.getLsbD 0 = true →
        (x.en = true → exec (.queueEnable q v tee) s = .next s) ∧
        (x.en = false →
          let y := x.configure v
          exec (.queueEnable q v tee) s = .next ((s.setQueue q (if s.mayEnable q y then y.enable else y)).noteReady) ∧
            y.enable.head = 0 ∧ y.enable.tail = 0 ∧ y.enable.err = false ∧ y.enable.en = true)) ∧
      (v.getLsbD 0 = false →
        (x.en = false → exec (.queueDisable q v tee) s = .next (s.setQueue q (x.configure v))) ∧
        (x.en = true → exec (.queueDisable q v tee) s = .next (s.setQueue q { x with
          en := false, ready := none, starved := false, stopped := some (x.done_, x.final_) }))) ∧
      (x.stopped = none → x.progress = (x.done_, x.final_)) ∧ (∀ p, x.stopped = some p → x.progress = p) ∧
      s.register (256 * q + 0x20) =
        BitVec.ofNat 64 ((if x.err then 2 ^ 63 else 0) + (x.progress.1 % 2 ^ 31) * 2 ^ 32 + x.head % 2 ^ 32) ∧
      s.register (256 * q + 0x28) = BitVec.ofNat 64 (x.progress.2 % 2 ^ 32) ∧
      (∀ w, w ≠ 8 → exec (.qtailWrite q w v tee) s = .next s) ∧
      (x.en = true → x.err = false →
        (x.tail ≤ fld v 31 0 → fld v 31 0 ≤ x.final_ + 2 ^ x.log2n →
          exec (.qtailWrite q 8 v tee) s = .next ((s.setQueue q { x with tail := fld v 31 0 }).reachHead q).noteReady) ∧
        (fld v 31 0 < x.tail ∨ x.final_ + 2 ^ x.log2n < fld v 31 0 →
          exec (.qtailWrite q 8 v tee) s = .next (s.setQueue q { x with err := true }))) ∧
      exec (.ap4baseWrite v tee) s = .next
        (if fld v 38 0 % 2 ^ s.bar4 = 0 then { s with ap4base := BitVec.ofNat 64 (fld v 38 0) } else s) ∧
      (v.getLsbD 10 = true → s.pkgset = false →
        exec (.pkgnumWrite v tee) s = .next { s with pkgset := true, pkgnum := v.setWidth 10 }) ∧
      ((v.getLsbD 10 = false ∨ (s.pkgset = true ∧ s.pkgnum ≠ v.setWidth 10)) → exec (.pkgnumWrite v tee) s = .next s) ∧
      (x.en = false →
        exec (.registerWrite (256 * q + 8) 8 v tee) s = .next (s.setQueue q { x with base := BitVec.ofNat 64 (fld v 38 0) }) ∧
        exec (.registerWrite (256 * q + 16) 8 v tee) s = .next (s.setQueue q { x with comp := v })) ∧
      exec (.registerWrite 0x10008 8 v tee) s = .next { s with dbgsel := v } ∧
      exec (.registerWrite 0x2000 8 v tee) s = .next s) ∧
    (∀ k p (ctx die : Nat), s.net[k]? = some p → p.kind = .doorbell q v ctx die →
      (die ≠ 0 → s.groupUp 3 = false → exec (.doorbellWrite k) s = .next s) ∧
      (die = 0 ∨ s.groupUp 3 = true → exec (.doorbellWrite k) s =
        .next (if ctx = x.ctx then (s.dropPacket k).writeTail q v else s.dropPacket k))) ∧
    (s.ready = true → s.recovery = false → s.tdi = .run → exec (.ap4baseWrite v false) s = .next s.enterError) ∧
    (s.ready = true → s.recovery = false → s.tdi = .configUnlocked →
      exec (.ap4baseWrite v true) s = .next { s with outs := s.outs ++ [.answer false] })

/-- R418, R442, R447, R453: BAR 4 reaches HBM under context 0 and nothing beyond it; its size changes where R442 lets it; the
side band sets the package number once: a later write of the same number succeeds and one of another fails, and neither changes it. -/
def Obligations.ApertureResults : Prop :=
  ∀ s : State, s.ready = true → s.recovery = false →
    (∀ off w, (w = 1 ∨ w = 2 ∨ w = 4 ∨ w = 8) → off % w = 0 → off < 2 ^ s.bar4 →
      let a := s.aperture + off
      (s.tdi ≠ .error → s.zeroFill = false → a + w ≤ 2 ^ 39 →
        ((∀ b ∈ rangeFrom a w, b / 64 ∉ s.hbmBad ∧ s.blockKey b = none) → a + w ≤ doorbellBase →
          exec (.bar4Access off w none) s =
            .next { s with outs := s.outs ++ [.data (BitVec.ofNat 64 (ofBytes (readBytes s.hbm a w)))] }) ∧
        ∀ v, (s.channel (channelOf a)).wq.length < 64 →
          exec (.bar4Access off w (some v)) s = .next ((s.hbmWrite none a (toBytes w v.toNat)).enqueue a)) ∧
      (s.tdi ≠ .error → (2 ^ 39 < a + w ∨ s.zeroFill = true) →
        exec (.bar4Access off w none) s = .next { s with outs := s.outs ++ [.data 0] } ∧
        ∀ v, exec (.bar4Access off w (some v)) s = .next s) ∧
      (s.tdi = .error →
        exec (.bar4Access off w none) s =
          .next { s with outs := s.outs ++ [.data (BitVec.ofNat 64 (2 ^ (8 * w) - 1))] } ∧
        ∀ v, exec (.bar4Access off w (some v)) s = .next s)) ∧
    (∀ n, (s.tdi = .configUnlocked → 30 ≤ n → n ≤ 39 → exec (.barResize n) s = .next { s with bar4 := n }) ∧
      (s.tdi = .error → exec (.barResize n) s = .next s) ∧
      ((s.tdi = .configLocked ∨ s.tdi = .run) → exec (.barResize n) s = .next s.enterError)) ∧
    ∀ p : BitVec 16, s.lifecycle ≠ .scrapped →
      (p.getLsbD 10 = true → s.pkgset = false →
        exec (.setPkgnum p) s = .next { s with pkgset := true, pkgnum := p.setWidth 10, outs := s.outs ++ [.answer true] }) ∧
      (p.getLsbD 10 = true → s.pkgset = true →
        exec (.setPkgnum p) s = .next { s with outs := s.outs ++ [.answer (s.pkgnum == p.setWidth 10)] }) ∧
      (p.getLsbD 10 = false → exec (.setPkgnum p) s = .next { s with outs := s.outs ++ [.answer false] })

/-- R114, R399-R401, R436: a debug command that the TDI state serves, for a kernel that may be debugged and, but for OPEN, has a
session, whatever the reserved bits of DBGCMD (R8); OPEN of a kernel that may not be debugged or whose queue has changed its CTX,
HALT of cores that have ended, and RESUME and STEP with nothing halted, are refused with result 1. That every command but OPEN needs
a session, and that READ and WRITE move 256 bytes or what the space holds, are the model's choices (log 65); so are which core's bytes
a READ of every core leaves in the buffer, and that READ, WRITE and CANCEL of several cores do all of it or nothing (log 143). -/
def Obligations.DebugCommandResults : Prop :=
  ∀ (s : State) (v : W64) (tee : Bool) (k : Kernel), s.answers tee →
    s.kernels.find? (fun k => k.cid == fld v 63 32) = some k →
    let op := fld v 3 0
    let done_ (t : State) : Host.Outcome State Fault Refusal := .next { t with dbgstat := 0 }
    let refused : Host.Outcome State Fault Refusal := .next { s with dbgstat := 2 }
    let halted := (k.named v).filter s.halted
    (op = 1 → exec (.debugOpen v tee) s =
      if s.debuggable k = true ∧ k.ctx = (s.queue k.queue).ctx then done_ (s.setKernel { k with session := true }) else refused) ∧
    (s.debuggable k = true → k.session = true →
      (op = 2 → exec (.debugClose v tee) s =
        done_ ((s.setKernel { k with session := false }).debugRelease { k with session := false } (k.place.take k.n))) ∧
      (op = 3 → exec (.debugHalt v tee) s =
        if ∃ n ∈ k.named v, (s.core n).run.live = true
        then done_ ((k.named v).foldl (fun s n => s.freezeCore n (.debug false)) s) else refused) ∧
      (op = 4 → exec (.debugResume v tee) s =
        let ns := (k.named v).filter fun n => s.halted n || (s.core n).debugHold
        if ns = [] then refused else done_ (s.debugRelease k ns)) ∧
      (op = 5 → exec (.debugStep v tee) s =
        if halted = [] ∨ k.state = .frozen then refused
        else done_ ((halted.foldl (fun s n => s.modCore n fun c => { c with run := .debug true }) s).applyTraffic k)) ∧
      let ns := k.named v
      let (space, part, idx) := s.selected
      let put (c : Core) : Option Core := c.debugPut space part idx (readBytes s.dbgbuf 0 256)
      let entry := fld s.dbgsel 55 0
      ((ns = [] ∨ ∃ n ∈ ns, s.heldHalted n = false) →
        (op = 6 → exec (.debugRead v tee) s = refused) ∧ (op = 7 → exec (.debugWrite v tee) s = refused) ∧
        (op = 8 → exec (.debugCancel v tee) s = refused)) ∧
      (ns ≠ [] → (∀ n ∈ ns, s.heldHalted n = true) →
        (op = 6 → (∀ n ∈ ns, ((s.core n).debugGet n space part idx).isSome = true) →
          ∃ n ∈ ns, ∃ bs, (s.core n).debugGet n space part idx = some bs ∧
            exec (.debugRead v tee) s = done_ { s with dbgbuf := writeBytes s.dbgbuf 0 bs, fresh := s.fresh + 1 }) ∧
        (op = 6 → (∃ n ∈ ns, (s.core n).debugGet n space part idx = none) → exec (.debugRead v tee) s = refused) ∧
        (op = 7 → (∀ n ∈ ns, (put (s.core n)).isSome = true) → exec (.debugWrite v tee) s =
          done_ ((ns.foldl (fun s n => s.modCore n fun c => (put c).getD c) s).setKernel { k with modified := true })) ∧
        (op = 7 → (∃ n ∈ ns, put (s.core n) = none) → exec (.debugWrite v tee) s = refused) ∧
        (op = 8 → (∀ n ∈ ns, ∃ i, (s.core n).a.inflight[entry]? = some i ∧ i.act.isGate = false) →
          ∃ t : State, exec (.debugCancel v tee) s = done_ (t.setKernel { k with modified := true }) ∧
            t = { s with cores := t.cores } ∧ (∀ n ∉ ns, t.core n = s.core n) ∧
            (ns.Nodup → ∀ n ∈ ns, let c := s.core n
              t.core n = { c with a := { c.a with inflight := c.a.inflight.eraseIdx entry } }))))

/-- R432-R435, R449: the scan takes the next free pair, freezes the kernel that has held one for 200 ms and moves it, and counts
its passes; a pass that fails retires the pair; heartbeat, takeover with the journal, live update and its probation, each with the
core that stands by afterwards and its store; the update session in every state, and in recovery (R438) the update that the side
band writes to the slot. That a session ends with the end of probation, with a roll-back, with an image that does not verify or with
an update in recovery, that such an image is written to its slot, and which core stands by after a failed probation (log 66), and
that a core which has loaded an image begins at the first word of its store with nothing in its queues (log 73), are the model's
choices. -/
def Obligations.ScanFirmwareResults : Prop :=
  (∀ s : State, s.ready = true → s.recovery = false →
    (∀ p, s.nextScan = some p →
      (s.scanning = none → s.pairFree p = true → exec .scanStart s = .next { s with scanning := some p, scanNext := p }) ∧
      (∀ k q, s.kernels.find? (fun k => (k.place.take k.n).any fun n => pairOf n == p) = some k →
        (upto 96).find? (fun q => s.pairFree q && dieOf (2 * q) == dieOf (2 * p)) = some q →
        (k.state = .running → s.ms 200 ≤ s.phys - Nat.max s.scanSince k.since → exec .scanMove s = .next (s.freezeAll k)) ∧
        (s.atRest k = true → s.preempts k = false → exec .scanMove s = .next (s.movePair k p q)))) ∧
    (∀ p ok, s.scanning = some p →
      ∃ t, exec (.scanPassComplete ok) s = .next t ∧ t.scanning = none ∧
        SMap.get 0 t.passes p = SMap.get 0 s.passes p + 1 ∧
        t.retired = if ok then s.retired else s.retired ++ [p]) ∧
    (coreMhz s.freq * 100 ≤ s.phys - s.beatAt →
      exec .heartbeat s = .next { s with heartbeats := s.heartbeats + 1, beatAt := s.phys }) ∧
    (s.standby = true → ∀ b,
      (∃ t, exec (.takeover .errorReport b) s = .next t ∧ t.deimosActive = !s.deimosActive ∧ t.standby = b ∧
        t.beatAt = s.phys ∧ t.probation = false ∧ t.front s.deimosActive = .loaded t.running b ∧
        t.groups = s.journal.groups ∧ t.scanNext = s.journal.scanNext ∧ t.scanning = s.journal.scanning ∧
        t.outs = (if b then s.outs else s.outs ++ [.coreFailed s.deimosActive])) ∧
      (s.ms 1 ≤ s.phys - s.beatAt →
        exec (.takeover .heartbeatLost b) s = exec (.takeover .errorReport b) s)) ∧
    (∀ who image, s.silent who = false → s.session = some who → s.probation = false → s.standby = true →
      (∃ t, exec (.firmwareUpdate who image true) s = .next t ∧ t.runsB = !s.runsB ∧ t.probation = true ∧
        t.probationAt = s.phys ∧ t.deimosActive = !s.deimosActive ∧ t.running = image ∧ (t.front t.deimosActive).store = image ∧
        t.front s.deimosActive = s.front s.deimosActive ∧ t.outs = s.outs ++ [.answer true]) ∧
      exec (.firmwareUpdate who image false) s =
        (let t := s.writeSlot image
         .next { t with session := none, outs := t.outs ++ [.answer false] })) ∧
    (s.probation = true →
      (s.ms 10000 ≤ s.phys - s.probationAt →
        ∃ t, exec (.probationEnd true) s = .next t ∧ t.probation = false ∧ t.standby = true ∧ t.session = none ∧
          t.runsB = s.runsB ∧ t.deimosActive = s.deimosActive ∧ t.front (!s.deimosActive) = .loaded s.running true ∧
          t.outs = s.outs) ∧
      ∃ t, exec (.probationEnd false) s = .next t ∧ t.runsB = !s.runsB ∧ t.probation = false ∧ t.session = none ∧
        t.deimosActive = !s.deimosActive ∧ (if s.runsB then t.slotB.failed else t.slotA.failed) = true ∧
        t.standby = (s.front s.deimosActive).sound)) ∧
  ∀ (s : State) (who : Master),
    (s.silent who = false →
      (s.session = none → exec (.firmwareUpdateSession who true) s =
        .next { s with session := some who, outs := s.outs ++ [.answer true] }) ∧
      (∀ w, s.session = some w → exec (.firmwareUpdateSession who true) s =
        .next { s with outs := s.outs ++ [.answer (w == who)] }) ∧
      (s.session = some who → s.probation = false → exec (.firmwareUpdateSession who false) s =
        .next { s with session := none, outs := s.outs ++ [.answer true] }) ∧
      (s.session ≠ some who ∨ s.probation = true → exec (.firmwareUpdateSession who false) s =
        .next { s with outs := s.outs ++ [.answer false] }) ∧
      (s.session ≠ some who → ∀ image ok, exec (.firmwareUpdate who image ok) s =
        .next { s with outs := s.outs ++ [.answer false] })) ∧
    (s.recovery = true →
      (s.lifecycle ≠ .scrapped → s.session = some .sideBand → ∀ image ok, exec (.firmwareUpdate .sideBand image ok) s =
        (let t := s.writeSlot image
         .next { t with session := none, outs := t.outs ++ [.answer ok] })) ∧
      ∀ image ok, exec (.firmwareUpdate .host image ok) s = .next s) ∧
    ∀ image, s.writeSlot image = if s.runsB then { s with slotA := { image := image, failed := false } }
      else { s with slotB := { image := image, failed := false } }

/-- R437, R439, R442-R447: measurements for a requester that has agreed on the algorithm, signed with the identity key; the
transitions of the trusted interface, configuration writes, and the clearing of tenant SRAM; in every state, ready or not and in
recovery too, the lifecycle tokens with the identity key.
Signatures, digests and the key are free values (log 13); that configuration space keeps what is written to it (log 60) and that a
lifecycle transition leaves the state of a reset and that nothing answers the host of a blank device (log 67) are the model's
choices. -/
def Obligations.TrustedInterfaceResults : Prop :=
  let reply (t : State) (ok : Bool) : Host.Outcome State Fault Refusal := .next { t with outs := t.outs ++ [.answer ok] }
  (∀ s : State, s.ready = true → s.recovery = false →
    (∀ who, s.silent who = true → ∀ n b, exec (.getMeasurements who n) s = .next s ∧ exec (.negotiateAlgorithms who b) s = .next s) ∧
    (∀ who, s.silent who = false →
      (∀ n d k, who ∈ s.agreed → s.measurement n = some d → s.identity = some k → exec (.getMeasurements who n) s =
        .next { s with outs := s.outs ++ [.measurement n d (Config.signature k s.fresh)], fresh := s.fresh + 1 }) ∧
      (∀ n, who ∉ s.agreed ∨ s.measurement n = none ∨ s.identity = none →
        exec (.getMeasurements who n) s = reply s false) ∧
      ∀ b, ∃ l, exec (.negotiateAlgorithms who b) s = .next { s with outs := s.outs ++ [.algorithm b], agreed := l } ∧
        (who ∈ l ↔ b = true) ∧ ∀ w, w ≠ who → (w ∈ l ↔ w ∈ s.agreed)) ∧
    (s.tdi = .configUnlocked →
      (s.ide = true → exec .lockInterface s = reply { s with tdi := .configLocked, measure5 := some s.measureTdi } true) ∧
      (s.ide = false → exec .lockInterface s = reply s false)) ∧
    (s.tdi = .configLocked → s.stopping = false → exec .startInterface s = reply { s with tdi := .run } true) ∧
    (s.stopping = false →
      (s.tdi = .configUnlocked → exec .stopInterface s = reply s true) ∧
      ((s.tdi = .configLocked ∨ s.tdi = .run) → exec .stopInterface s = .next { s.stopTenants with stopping := true }) ∧
      (s.tdi = .error → s.wiping = true → exec .stopInterface s = .next { s with stopping := true }) ∧
      (s.tdi = .error → s.wiping = false → exec .stopInterface s = reply { s with tdi := .configUnlocked } true)) ∧
    (s.wiping = true →
      (s.stopping = true → exec .sramClearComplete s =
        reply { s with wiping := false, clearing := [], stopping := false, tdi := .configUnlocked } true) ∧
      (s.stopping = false → exec .sramClearComplete s = .next { s with wiping := false, clearing := [] })) ∧
    ((s.tdi = .configLocked ∨ s.tdi = .run) → exec .getDeviceInterfaceReport s =
      .next { s with outs := s.outs ++ [.interfaceReport
        { dmaWithoutPasid := true, ats := true, pri := true, msix := s.msix, lnr := 0, tph := 0
          ranges := [(0, 2 ^ 26, true), (2, 2 ^ 24, false), (4, 2 ^ s.bar4, false)]
          life := s.lifecycle, slotB := s.runsB, m5 := s.measure5.getD 0, pkg := s.pkgnum.toNat }] }) ∧
    exec .getDeviceInterfaceState s = .next { s with outs := s.outs ++ [.tdiState s.tdi] } ∧
    (∀ v : W64,
      exec (.pcieConfigWrite .ide v) s = .next { s with ide := v.getLsbD 0 } ∧
      exec (.pcieConfigWrite .other v) s = .next { s with config := v } ∧
      (s.tdi = .configUnlocked → exec (.pcieConfigWrite .decode v) s = .next { s with decode := v } ∧
        exec (.pcieConfigWrite .msix v) s = .next { s with msix := v }) ∧
      ∀ r, r = .decode ∨ r = .msix ∨ r = .resizableBar →
        (s.tdi = .error → exec (.pcieConfigWrite r v) s = .next s) ∧
        ((s.tdi = .configLocked ∨ s.tdi = .run) → exec (.pcieConfigWrite r v) s = .next s.enterError))) ∧
  ∀ (s : State) (dest : Lifecycle),
    (s.lifecycle ≠ .scrapped →
      (lifecycleStep s.lifecycle dest = true → ∃ t, exec (.lifecycleToken dest true) s = .next t ∧ t.lifecycle = dest ∧
        t.kernels = [] ∧ t.cores = [] ∧ t.zeroFill = true ∧ t.tdi = .configUnlocked ∧
        t.identity = (if dest = .provisioned then some s.fresh else if dest = .scrapped then none else s.identity) ∧
        t.certificate = (if dest = .provisioned then some s.fresh else s.certificate) ∧
        t.recovery = s.recovery ∧ t.outs = s.outs ++ [.answer true] ∧
        (t.ready = true ↔ s.recovery = false ∧ (dest = .deployed ∨ dest = .provisioned ∨ dest = .returned))) ∧
      ∀ valid, valid = false ∨ lifecycleStep s.lifecycle dest = false → exec (.lifecycleToken dest valid) s = reply s false) ∧
    (s.lifecycle = .scrapped → ∀ valid, exec (.lifecycleToken dest valid) s = .next s)

/-- R438, R445-R447, R450-R452: every reset ends every kernel, empties the SRAMs, unlocks the interface and begins the wipe of HBM,
but leaves lifecycle, retired pairs and firmware slots; a cold reset verifies the slots anew, and in recovery the side band is
refused a wipe; the zero fill ends the wipe; frequency steps and the limits of temperature and power. -/
def Obligations.ResetPowerResults : Prop :=
  ∀ s : State,
    let wiped (t : State) : Prop := t.kernels = [] ∧ t.cores = [] ∧ t.queues = [] ∧ t.plans = [] ∧ t.exports = [] ∧ t.zeroFill = true ∧
      t.tdi = .configUnlocked ∧ t.pkgset = false ∧ t.lifecycle = s.lifecycle ∧ t.retired = s.retired ∧ t.slotA = s.slotA ∧ t.slotB = s.slotB
    (∀ a b, (∃ t, exec (.coldReset a b) s = .next t ∧ wiped t ∧
        (a = true → s.slotA.failed = false → t.runsB = false) ∧
        (a = false → b = true → s.slotB.failed = false → t.runsB = true) ∧ (a = false → b = false → t.recovery = true)) ∧
      (s.lifecycle ≠ .scrapped →
        (s.recovery = false → ∃ t, exec (.emergencyWipe a b) s = .next t ∧ wiped t) ∧
        (s.recovery = true → exec (.emergencyWipe a b) s = .next { s with outs := s.outs ++ [.answer false] }))) ∧
    (s.ready = true → s.recovery = false →
      (∃ t, exec .functionLevelReset s = .next t ∧ wiped t) ∧ (∃ t, exec .hotReset s = .next t ∧ wiped t)) ∧
    (s.zeroFill = true → ∃ t, exec .hbmZeroFillDone s = .next t ∧ t.zeroFill = false ∧ t.hbm = [] ∧ t.hbmKey = []) ∧
    (s.ready = true → s.recovery = false →
      (∀ n, n ≤ 7 → s.thermal = false → exec (.frequencyStepChange n) s = .next { s with freq := n }) ∧
      ((∀ t, s.stepAt = some t → s.ms 1 ≤ s.phys - t) →
        exec .thermalStepDown s = .next { s with freq := s.freq - 1, stepAt := some s.phys })) ∧
    (∃ t, exec .thermalTrip s = .next t ∧ exec .powerLimitTrip s = .next t ∧ t.freq = 0 ∧ t.thermal = true ∧
      ∀ k ∈ t.kernels, k.state = .aborted) ∧
    (s.thermal = true → s.ready = true → s.recovery = false → exec .thermalClear s = .next { s with thermal := false }) ∧
    (s.lifecycle ≠ .scrapped → s.recovery = false → exec .pldmMonitoring s = .next { s with
      outs := s.outs ++ [.monitoring (Config.temperature s.fresh) (Config.power s.fresh) s.freq
        ((upto 15).filter fun p => !s.portsDown.contains p) ((upto 5).filter fun r => !s.d2dDown.contains r) s.retired s.errlog]
      fresh := s.fresh + 1 })

/-! ## The machine as a whole -/

/-- R34, R35, R48: words that the spec writes out, and what they stand for. -/
def Obligations.SpecWordsDecode : Prop :=
  ∀ e ∈ ([
      (0x8080_0001, .pfxImm 1), (0x9001_C22C, .addi true (.s 1) ⟨.one, false⟩ 0x2C),
      (0x2023_C6C2, .vadd false (.v 3) ⟨.lane, false⟩ ⟨.one, false⟩), (0x1B80_0003, .nop false 3),
      (0x0404_9000, .mov false (.s 4) ⟨.latch .s, false⟩), (0x1D80_0000, .halt false 0), (0x1800_0004, .br false 4),
      (0x1B01_0002, .loopf false ⟨.s 1, false⟩ 2), (0x4002_0208, .ld false (.s 2) ⟨.s 1, false⟩ 8),
      (0x4801_0204, .cpGet false 1 ⟨.s 1, false⟩ ⟨.s 2, false⟩), (0x8180_00F0, .pfxTs 240), (0x8200_0001, .pfxRow false true),
      (0x5180_431F, .snd false ⟨.v 1, true⟩ ⟨.s 15, true⟩), (0x6000_0005, .trap false 5), (0x6100_0002, .icinv false 0 2),
      (0x6260_0403, .wrsys false .zero ⟨.s 2, false⟩ 3), (0x5380_0002, .rel false 0 2),
      (0x5585_0804, .clStat false (.s 5) ⟨.s 4, false⟩ 4), (0x3DE0_0002, .mxMode false .zero true false),
      (0x3980_18C0, .mxRun false ⟨.s 12, false⟩ ⟨.zero, false⟩)] : List (Word × Instr)),
    Instr.ofWord e.1 = .ok e.2

/-- R34-R36, R48: the words of an instruction word, wherever they stand, decode to it with every operand; rows of events have
none. -/
def Obligations.EncodedWordsDecode : Prop :=
  ∀ (i : Instr), (isWordInstr i = true ↔ (i.encode).isSome = true) ∧
    ∀ (w : Word) (rest : List Byte), i.encode = some w → Instr.ofBytes (bytesOfWord w ++ rest) = (.ok i, rest)

/-- R34-R36, R48: a word that decodes to an instruction is the word that encodes it: every field is read, and every other bit is
as its entry fixes it. -/
def Obligations.DecodedWordsEncode : Prop :=
  ∀ (w : Word) (i : Instr), Instr.ofWord w = .ok i → i.encode = some w

/-- R413, R414, R442, R452, R453: what reset leaves: no kernel and no plan, an unlocked interface, idle cores, and registers
that read as the spec gives them. That HBM and every SRAM read zero then is the model's choice of reset as the end of bring-up
(log 1). -/
def Obligations.ResetValues : Prop :=
  let s := State.reset
  s.kernels = [] ∧ s.tdi = .configUnlocked ∧ s.pkgset = false ∧ s.ready = true ∧
  (∀ n, (s.core n).run = .idle ∧ (s.core n).kernel = none) ∧ (∀ h, s.plan h = none) ∧
  (∀ n < 32, s.register (256 * n) = 4 <<< 8 ∧ ∀ o ∈ [0x8, 0x10, 0x18, 0x20, 0x28], s.register (256 * n + o) = 0) ∧
  s.register 0x2008 = 0 ∧ s.register 0x2010 = 0 ∧ (s.register 0x2000).getLsbD 3 = true ∧
  (∀ n a, readByte (s.core n).spad a = 0) ∧ ∀ a, s.hbmByte none a = 0

/-- The invariant holds at reset. -/
def Obligations.ResetMeetsInvariant : Prop := State.Inv State.reset

/-- R418, R438, R445, R450, R451: every step keeps the memories canonical, the BAR size and the frequency step legal, the step
at 0 under the thermal limit, and the front-end down in recovery and on a scrapped device. -/
def Obligations.StepKeepsInvariant : Prop :=
  ∀ s t : State, s.Inv → step s = .next t → t.Inv

/-- R40, R107: a core that runs, with nothing due before its next bundle, BUDGET for the cycles before it, its fetch at hand and
no segment to enter, issues the bundle: the step runs the decoded words in order, and its outcome is theirs as `afterWords`
closes the bundle. Which timed sends stop a core on its way (R18), those not yet issued left out, is the model's choice (log 101), and
so is when BUDGET counts in the cases of log 112. -/
def Obligations.StepRunsDecodedWords : Prop :=
  ∀ (s : State) (b : Bundle) (d : Core) (is : List (Nat × Instr)),
    let n := s.cur
    let c := s.core n
    let r := s.reach n c.a.next
    s.agenda = [] → c.run = .running → c.budget ≠ 0 → (∀ x, c.dueLt = some x → c.a.next < x) → s.stopLt c = none →
    (s.budgetRuns c = true → c.a.next - c.a.lt < c.budget) → c.a.next + 1 ≤ maxLt → c.a.pc % 64 ≠ 0 → c.a.pc % 4 = 0 →
    r.fetchNeed (r.core n) 12 c.a.pc = none → r.fetchBundle (r.core n) = .ok (b, d) → d.bundleTrap b.words = none →
    (b.sstart = true → d.a.superNext = true) → ((d.a.superNext = true ∨ b.sege = true) → d.a.again = true) →
    b.words.map (fun p => (p.1, Instr.ofWord p.2)) = is.map (fun p => (p.1, Decoded.ok p.2)) →
    let u := r.takeReads n b.reads d
    let start := u.modCore n fun c => { c with cx := u.issueContext c c.a.again b.words }
    (∀ t, runWords exec n is start = .next t → step s = .next (State.afterWords u u t n)) ∧
    ∀ a i, is = [(a, i)] → ∀ t, exec i (start.modCore n fun c => { c with cx := { c.cx with word := a } }) = .next t →
      step s = .next (State.afterWords u u t n) ∧
      ((t.core n).run = .running → (t.core n).cx.held = false → (t.core n).overflow = none → (t.core n).cx.jump = none →
        (t.core n).a.taken = none → (t.core n).a.loops = [] → d.a.loops = [] → (t.core n).cx.after = nextWord a →
        ∃ v, step s = .next v ∧ (v.core n).a.pc = nextWord a ∧ (v.core n).a.lt = (t.core n).a.next ∧
          (v.core n).a.next = (t.core n).cx.next ∧ (v.core n).a.queues = (t.core n).a.queues ∧ (v.core n).spad = (t.core n).spad)

/-- R15, R386: an instruction word changes its own core and adds to the end of the list of traps reported; every other core and
every byte of HBM and host memory, every queue, kernel and plan stays as it was, and no byte of a scratchpad changes but the
sixteen of the barrier object that `sfx.arv` names. A turn of a front-end core (R31, R434) changes that core and physical time
alone, which is the model's choice (log 73), and one whose store or state has failed runs nothing. -/
def Obligations.WordsChangeTheirCoreAlone : Prop :=
  (∀ (s t : State) (d : Bool) (r : List Turn), s.agenda = .front d :: r → step s = .next t →
    t = { s.setFront d (t.front d) with agenda := r, phys := t.phys } ∧ (t.front d).store = (s.front d).store ∧
    ((s.ready = false ∨ s.recovery = true ∨ (s.front d).sound = false) → t.front d = s.front d)) ∧
  ∀ (i : Instr) (s t : State), isWordInstr i = true → exec i s = .next t →
    (∃ l, t = { s with cores := t.cores, reports := s.reports ++ l }) ∧ (∀ k, k ≠ s.cur → t.core k = s.core k) ∧
    (i.isSfx = false → (t.core s.cur).spad = (s.core s.cur).spad) ∧
    ∀ ch a, i = .sfxArv ch a → ∀ b, b < 16 * a.toNat ∨ 16 * a.toNat + 16 ≤ b →
      readByte (t.core s.cur).spad b = readByte (s.core s.cur).spad b

/-- R93, R105, R109, R125, R234, R237, R245, R248-R253, R367, R412: what results, loads, atomics, stores and register writes do at their
LT. A value joins the tail of its destination, or nothing for `zero`, and its latch; a load reads its words, with their poison where it
is a vector, and lands them; an atomic reads and puts in flight the new value of each word and the old value, a `vatom` lane by lane in
ascending order; a scalar or atomic read of a poisoned word traps, as does any read of a word still to be written in pending-bit mode; a
store writes its words; FLAGS collect, P, M, MXMODE, AMPMODE and a written register take their value. All else of the core stays as it
was. Which word of several that trap FAULTADDR holds is the model's choice (log 115). -/
def Obligations.LandingStoreEffects : Prop :=
  (∀ ws : List PWord, ws.length = 64 → ∀ (k : Nat) (p : PWord), ws[k]? = some p →
    (Val.ofWords ws).elem 32 k = p.w.toNat ∧ (Val.ofWords ws).kind k = p.k) ∧
  ∀ (c old : Core) (x : Nat) (i : Item),
    let gives (c' : Core) : Prop := c.perform old x i = .ok c'
    let sys (r : SysRegs) : Prop := gives { c with a := { c.a with sys := r } }
    let free (a n : Nat) : Prop := old.pendingWord i.word i.issue x a n = none
    let kind (a : Nat) : Kind := (c.spadWord a).k
    let store (lt a : Nat) (ws : List PWord) : Item := c.successor i lt none (.write a ws)
    let clean (a n : Nat) : Prop := ∀ k < n / 4, (kind (a + 4 * k)).poisoned = false
    let spoilt (a n : Nat) (t : Trap) : Prop := ∃ k < n / 4,
      ((kind (a + 4 * k)).scale = true ∧ (∀ m < k, (kind (a + 4 * m)).scale = false) ∧ t = Trap.at_ .scalePoison (a + 4 * k)) ∨
      ((kind (a + 4 * k)).poisoned = true ∧ (∀ m < k, (kind (a + 4 * m)).poisoned = false) ∧
        (∀ m < n / 4, (kind (a + 4 * m)).scale = false) ∧ t = Trap.at_ .uncorrectable (a + 4 * k))
    let traps (t : Trap) : Prop := c.perform old x i = .error t
    let awaits (a n : Nat) : Prop := ∀ w, old.pendingWord i.word i.issue x a n = some w → traps (Trap.at_ .pendingRead w)
    (∀ a d y, i.act = .readScalar a d y → awaits a 8 ∧ (free a 8 → (∀ t, spoilt a 8 t → traps t) ∧
      (clean a 8 → gives (c.withItems [c.lands i y d (Val.ofNat (c.spadElem 64 a))])))) ∧
    (∀ a d y, i.act = .readVec a d y → awaits a 256 ∧
      (free a 256 → gives (c.withItems [c.lands i y d (Val.ofWords (c.spadWords a 64))]))) ∧
    (∀ wide as d y, i.act = .readLanes wide as d y →
      let n := if wide then 2 else 1
      (∀ (k a : Nat), as[k]? = some (some a) → (∀ (j b : Nat), j < k → as[j]? = some (some b) → free b (4 * n)) → awaits a (4 * n)) ∧
      ((∀ a, some a ∈ as → free a (4 * n)) →
        gives (c.withItems [c.lands i y d (Val.ofWords (as.flatMap fun a => match a with
          | some a => c.spadWords a n
          | none => List.replicate n (PWord.ofNat 0)))]))) ∧
    (∀ src n rb dest, i.act = .readRow src n rb dest → (∀ a, src = some a → awaits a n) ∧
      ((∀ a, src = some a → free a n) →
        let ws := match src with | some a => c.spadWords a (n / 4) | none => []
        gives (c.withItems [store (x + 1) dest (ws ++ List.replicate (rb / 4 - ws.length) (PWord.ofNat 0))]))) ∧
    (∀ (op : BitVec 3) wide a (v : W64) d, i.act = .readAtom op wide a v d →
      let w := if wide then 64 else 32
      let o := c.spadElem w a
      let m := v.toNat % 2 ^ w
      let r : Nat :=
        if op = 0 then (o + m) % 2 ^ w else if op = 1 then (if sextInt m w < sextInt o w then m else o)
        else if op = 2 then (if sextInt o w < sextInt m w then m else o) else if op = 3 then o &&& m
        else if op = 4 then o ||| m else if op = 5 then o ^^^ m else m
      awaits a (w / 8) ∧ (free a (w / 8) → (∀ t, spoilt a (w / 8) t → traps t) ∧
        (clean a (w / 8) → gives (c.withItems [store (x + 2) a (elemWords w r .clean),
          c.lands i (x + 3) d (Val.ofScalar (BitVec.ofInt 64 (sextInt o w)))])))) ∧
    (∀ (fmt : BitVec 32) ls v d, i.act = .readVatom fmt ls v d →
      let t := fVtype fmt.toNat
      let w := widthOf t
      let old_ := c.vatomOld fmt.toNat ls v
      let olds : List (Nat × Kind) := (upto ls.length).map fun l => match ls[l]? with
        | some (some (a, _)) => old_ l a
        | _ => (0, .clean)
      let f : Flags := Flags.union ((upto ls.length).map fun l => match ls[l]? with
        | some (some (a, op)) => (atomElem op t (fRnd fmt.toNat) (old_ l a).1 (v.elem w l)).2
        | _ => 0)
      let below (l : Nat) (P : Nat → Prop) : Prop := ∀ (m b : Nat) (op : BitVec 3), m < l → ls[m]? = some (some (b, op)) → P b
      (w = 32 ∨ w = 64) →
      (∀ (l a : Nat) (op : BitVec 3), ls[l]? = some (some (a, op)) → below l (fun b => free b (w / 8)) → awaits a (w / 8)) ∧
      (below ls.length (fun b => free b (w / 8)) →
        (∀ (l a : Nat) (op : BitVec 3) t, ls[l]? = some (some (a, op)) → below l (fun b => clean b (w / 8)) → spoilt a (w / 8) t → traps t) ∧
        (below ls.length (fun b => clean b (w / 8)) →
          ∃ as : List Nat, as.Nodup ∧ (∀ a, a ∈ as ↔ ∃ op, some (a, op) ∈ ls) ∧
            gives (c.withItems (as.map (fun a => store (x + 2) a (elemWords w (old_ ls.length a).1 (old_ ls.length a).2)) ++
              (if f = 0 then [] else [c.successor i (x + 4) none (.flags f)]) ++ [c.lands i (x + 4) d (Val.ofElems w olds)]))))) ∧
    (∀ f, i.act = .flags f → sys { c.a.sys with flags := c.a.sys.flags ||| f }) ∧
    (∀ b, i.act = .setP b → sys { c.a.sys with p := b }) ∧
    (∀ m, i.act = .setM m → gives { c with a := { c.a with m := m } }) ∧
    (∀ v, i.act = .setMxmode v → sys { c.a.sys with mxmode := v }) ∧
    (∀ b, i.act = .setAmpmode b → sys { c.a.sys with ampmode := b }) ∧
    (∀ v, i.act = .loopFmtsel v → sys { c.a.sys with fmtsel := v }) ∧
    (∀ y v, i.act = .sysWrite y v →
      (y = 0x01 → gives { c with budget := v.toNat % 2 ^ 48 }) ∧
      (y = 0x03 → sys { c.a.sys with flags := v.setWidth 5 }) ∧
      (y = 0x04 → sys { c.a.sys with fmtsel := v.setWidth 4 }) ∧
      (y = 0x08 → sys { c.a.sys with rsig := v }) ∧
      (y = 0x0C → sys { c.a.sys with seqbase := v.setWidth 32 }) ∧
      (0x20 ≤ y → y ≤ 0x2F → ∃ t, sys { c.a.sys with fmt := t } ∧
        ∀ k, SMap.get 0 t k = if k = y - 0x20 then v.setWidth 32 else SMap.get 0 c.a.sys.fmt k) ∧
      (y = 0x100 → sys { c.a.sys with amp0 := v &&& BitVec.ofNat 64 (ones 5 0 + ones 13 8 + ones 19 16 + ones 23 22) }) ∧
      (y = 0x101 → sys { c.a.sys with amp1 := v })) ∧
    (∀ d l v, i.act = .land d (some l) v →
      ∃ c', c.perform old x i = .ok c' ∧ c'.spad = c.spad ∧ c'.a.latch l = v ∧ (∀ o, Latch.num o ≠ Latch.num l → c'.a.latch o = c.a.latch o) ∧
        (d ≠ .zero → c'.a.landed d = c.a.landed d ++ [v]) ∧
        (∀ q, (d = .zero ∨ Port.num q ≠ Port.num d) → c'.a.landed q = c.a.landed q) ∧
        c'.a.sys = c.a.sys ∧ c'.a.inflight = c.a.inflight ∧ c'.mx = c.mx ∧ c'.seq = c.seq) ∧
    (∀ a ws, i.act = .write a ws → a % 4 = 0 →
      ∃ c', c.perform old x i = .ok c' ∧ (∀ k w, ws[k]? = some w → c'.spadWord (a + 4 * k) = w) ∧
        (∀ b, b < a ∨ a + 4 * ws.length ≤ b → readByte c'.spad b = readByte c.spad b) ∧
        c'.a = c.a ∧ c'.mx = c.mx ∧ c'.seq = c.seq ∧ c'.copies = c.copies)

/-- R204, R237, R311: whatever falls due on a core leaves its scratchpad in canonical form. -/
def Obligations.ItemsKeepScratchpadCanonical : Prop :=
  ∀ (c old c' : Core) (x : Nat) (i : Item), Memory.wf c.spad = true → c.perform old x i = .ok c' → Memory.wf c'.spad = true

/-- R386, R387, R107, R378: taking a trap stops its core and writes its four registers, clears in its sequence unit the loaded bits
that the trap names and nothing else there, reports it, and leaves its scratchpad, matrix unit, copies and every other core as they
were; no word of a bundle that traps has had any effect but that the loaded bits which its words cleared stay clear, and the trap
taken is the one last reported; codes are distinct. -/
def Obligations.TrapEntryEffects : Prop :=
  (∀ (n : Nat) (x : Trap) (s : State),
    let c := s.core n
    let t := takeTrap n x s
    (t.core n).run = .trapped ∧
    (t.core n).a = { c.a with trapcode := x.code.num, trappc := c.a.pc, faultaddr := x.addr, traplt := c.a.next } ∧
    (t.core n).spad = c.spad ∧ (t.core n).mx = c.mx ∧ (t.core n).copies = c.copies ∧
    (t.core n).seq = { c.seq with loaded := c.seq.loaded.filter fun d => !x.dims.contains d } ∧
    t.reports = s.reports ++ [{ core := n, code := x.code, pc := c.a.pc, addr := x.addr, lt := c.a.next, exiting := x.exiting,
                                matrix := x.matrix, cause := x.cause }] ∧
    (∀ k, k ≠ n → t.core k = s.core k) ∧ t = { s with cores := t.cores, reports := t.reports }) ∧
  (∀ (before entered u : State) (n : Nat) (r : TrapReport), (u.core n).run = .trapped → u.reports.getLast? = some r →
    State.afterWords before entered u n =
      takeTrap n { code := r.code, addr := r.addr, matrix := r.matrix, exiting := r.exiting, cause := r.cause, dims := [] }
        (before.modCore n fun d => { d with seq := { d.seq with loaded := (u.core n).seq.loaded } })) ∧
  (∀ a b : TrapCode, a.num = b.num → a = b) ∧ ∀ a : TrapCode, 1 ≤ a.num.toNat ∧ a.num.toNat ≤ 0x23
end

