-- ==== Sys2Proof/Laws/Tables.lean ====
section
/-! SUPPORT. Laws of the sorted tables and of the byte memories built on them: read after write, the canonical form, and what a
range of writes leaves alone. -/
namespace Sys2Proof.Machine

/-! ## Tables -/

theorem SMap.get_insert (d : α) (m : SMap α) (n k : Nat) (v : α) (h : n ∉ m.map Prod.fst) :
    SMap.get d (SMap.insert m n v) k = if k = n then v else SMap.get d m k := by
  induction m with
  | nil => simp only [SMap.insert, SMap.get, eq_comm]
  | cons e r ih =>
    obtain ⟨a, x⟩ := e
    simp only [List.map_cons, List.mem_cons, not_or] at h
    simp only [SMap.insert]
    split
    · simp only [SMap.get]
      by_cases hk : k = n
      · simp [hk]
      · simp [hk, Ne.symm hk]
    · simp only [SMap.get, ih h.2]
      by_cases ha : a = k
      · subst ha
        simp [Ne.symm h.1]
      · simp [ha]

theorem SMap.get_erase (d : α) (m : SMap α) (n k : Nat) :
    SMap.get d (SMap.erase m n) k = if k = n then d else SMap.get d m k := by
  induction m with
  | nil => simp [SMap.erase, SMap.get]
  | cons e r ih =>
    obtain ⟨a, x⟩ := e
    simp only [SMap.erase] at ih
    simp only [SMap.erase, List.filter_cons]
    by_cases ha : a = n
    · subst ha
      simp only [bne_self_eq_false, Bool.false_eq_true, ↓reduceIte, ih, SMap.get]
      by_cases hk : k = a
      · simp [hk]
      · simp [hk, Ne.symm hk]
    · simp only [bne_iff_ne, ne_eq, ha, not_false_eq_true, ↓reduceIte, SMap.get, ih]
      by_cases hk : a = k
      · subst hk
        simp [ha]
      · simp [hk]

theorem SMap.not_mem_erase (m : SMap α) (n : Nat) : n ∉ (SMap.erase m n).map Prod.fst := by
  simp [SMap.erase]

/-- A read after a write gives the value written, and every other key keeps its value. -/
theorem SMap.get_set [DecidableEq α] (d : α) (m : SMap α) (n k : Nat) (v : α) :
    SMap.get d (SMap.set d m n v) k = if k = n then v else SMap.get d m k := by
  unfold SMap.set
  split
  · next h => simp [SMap.get_erase, h]
  · rw [SMap.get_insert _ _ _ _ _ (SMap.not_mem_erase m n), SMap.get_erase]
    split <;> rfl

theorem SMap.get_set_same [DecidableEq α] (d : α) (m : SMap α) (n : Nat) (v : α) :
    SMap.get d (SMap.set d m n v) n = v := by simp [SMap.get_set]

theorem SMap.get_set_other [DecidableEq α] (d : α) (m : SMap α) {n k : Nat} (v : α) (h : k ≠ n) :
    SMap.get d (SMap.set d m n v) k = SMap.get d m k := by simp [SMap.get_set, h]

/-! ## The canonical form -/

/-- The canonical form, stated over a list of entries: rising keys and no default value. -/
theorem SMap.wf_iff [DecidableEq α] (d : α) (m : SMap α) :
    SMap.wf d m = true ↔ m.Pairwise (fun a b => a.1 < b.1) ∧ ∀ e ∈ m, e.2 ≠ d := by
  induction m with
  | nil => simp [SMap.wf]
  | cons e r ih =>
    obtain ⟨k, v⟩ := e
    cases r with
    | nil => simp [SMap.wf]
    | cons e' r' =>
      obtain ⟨k', v'⟩ := e'
      simp only [SMap.wf, Bool.and_eq_true, bne_iff_ne, ne_eq, decide_eq_true_eq, ih, List.pairwise_cons,
        List.mem_cons, forall_eq_or_imp]
      constructor
      · rintro ⟨⟨hv, hk⟩, ⟨hp, hq⟩, hv', hr⟩
        exact ⟨⟨⟨hk, fun a ha => Nat.lt_trans hk (hp a ha)⟩, hp, hq⟩, hv, hv', hr⟩
      · rintro ⟨⟨⟨hk, -⟩, hp, hq⟩, hv, hv', hr⟩
        exact ⟨⟨hv, hk⟩, ⟨hp, hq⟩, hv', hr⟩

theorem SMap.wf_erase [DecidableEq α] (d : α) (m : SMap α) (n : Nat) (h : SMap.wf d m = true) :
    SMap.wf d (SMap.erase m n) = true := by
  rw [SMap.wf_iff] at *
  exact ⟨h.1.filter _, fun e he => h.2 e (List.mem_filter.1 he).1⟩

theorem SMap.mem_insert (m : SMap α) (n : Nat) (v : α) (e : Nat × α) :
    e ∈ SMap.insert m n v ↔ e = (n, v) ∨ e ∈ m := by
  induction m with
  | nil => simp [SMap.insert]
  | cons a r ih =>
    obtain ⟨k, x⟩ := a
    simp only [SMap.insert]
    split
    · simp
    · simp only [List.mem_cons, ih]
      constructor
      · rintro (h | h | h) <;> simp [h]
      · rintro (h | h | h) <;> simp [h]

theorem SMap.pairwise_insert (m : SMap α) (n : Nat) (v : α) (hm : m.Pairwise (fun a b => a.1 < b.1))
    (hn : n ∉ m.map Prod.fst) : (SMap.insert m n v).Pairwise (fun a b => a.1 < b.1) := by
  induction m with
  | nil => simp [SMap.insert]
  | cons a r ih =>
    obtain ⟨k, x⟩ := a
    simp only [List.map_cons, List.mem_cons, not_or] at hn
    rw [List.pairwise_cons] at hm
    simp only [SMap.insert]
    split
    · next h =>
      refine List.pairwise_cons.2 ⟨fun e he => ?_, List.pairwise_cons.2 hm⟩
      rcases List.mem_cons.1 he with rfl | he
      · exact h
      · exact Nat.lt_trans h (hm.1 e he)
    · next h =>
      refine List.pairwise_cons.2 ⟨fun e he => ?_, ih hm.2 hn.2⟩
      rcases (SMap.mem_insert r n v e).1 he with rfl | he
      · have := hn.1
        show k < n
        omega
      · exact hm.1 e he

/-- A write keeps the canonical form. -/
theorem SMap.wf_set [DecidableEq α] (d : α) (m : SMap α) (n : Nat) (v : α) (h : SMap.wf d m = true) :
    SMap.wf d (SMap.set d m n v) = true := by
  unfold SMap.set
  split
  · exact SMap.wf_erase d m n h
  · next hv =>
    have he := SMap.wf_erase d m n h
    rw [SMap.wf_iff] at *
    refine ⟨SMap.pairwise_insert _ _ _ he.1 (SMap.not_mem_erase m n), fun e hm => ?_⟩
    rcases (SMap.mem_insert _ _ _ _).1 hm with rfl | hm
    · exact hv
    · exact he.2 e hm

/-! ## Byte memories -/

theorem readByte_writeByte (m : List Host.Cell) (a k : Nat) (b : Byte) :
    readByte (writeByte m a b) k = if k = a then b else readByte m k := SMap.get_set _ _ _ _ _

theorem wf_writeByte (m : List Host.Cell) (a : Nat) (b : Byte) (h : Memory.wf m = true) :
    Memory.wf (writeByte m a b) = true := SMap.wf_set _ _ _ _ h

/-- Writing bytes keeps the canonical form. -/
theorem wf_writeBytes (bs : List Byte) : ∀ (m : List Host.Cell) (a : Nat), Memory.wf m = true →
    Memory.wf (writeBytes m a bs) = true := by
  induction bs with
  | nil => intro m a h; exact h
  | cons b bs ih => intro m a h; exact ih _ _ (wf_writeByte m a b h)

/-- Every byte outside the written range reads as before. -/
theorem readByte_writeBytes_outside (bs : List Byte) : ∀ (m : List Host.Cell) (a k : Nat),
    k < a ∨ a + bs.length ≤ k → readByte (writeBytes m a bs) k = readByte m k := by
  induction bs with
  | nil => intros; rfl
  | cons b bs ih =>
    intro m a k h
    simp only [List.length_cons] at h
    rw [writeBytes, ih _ _ _ (by omega), readByte_writeByte, if_neg (by omega)]

/-- Byte i of the written range reads as byte i of what was written. -/
theorem readByte_writeBytes_inside (bs : List Byte) : ∀ (m : List Host.Cell) (a i : Nat) (h : i < bs.length),
    readByte (writeBytes m a bs) (a + i) = bs[i] := by
  induction bs with
  | nil => intro _ _ _ h; simp at h
  | cons b bs ih =>
    intro m a i h
    cases i with
    | zero =>
      rw [writeBytes, readByte_writeBytes_outside _ _ _ _ (by omega), readByte_writeByte, if_pos (by omega)]
      rfl
    | succ i =>
      have := ih (writeByte m a b) (a + 1) i (by simpa using h)
      rw [writeBytes, show a + (i + 1) = a + 1 + i by omega, this]
      rfl

/-! ## Ranges -/

theorem mem_rangeFrom (n : Nat) : ∀ lo k, k ∈ rangeFrom lo n ↔ lo ≤ k ∧ k < lo + n := by
  induction n with
  | zero =>
    intro lo k
    have : ¬ (lo ≤ k ∧ k < lo + 0) := by omega
    simp only [rangeFrom, List.not_mem_nil, this]
  | succ n ih => intro lo k; simp only [rangeFrom, List.mem_cons, ih]; omega

theorem mem_upto (n k : Nat) : k ∈ upto n ↔ k < n := by simp [upto, mem_rangeFrom]

theorem length_rangeFrom (n : Nat) : ∀ lo, (rangeFrom lo n).length = n := by
  induction n with
  | zero => intro; rfl
  | succ n ih => intro lo; simp [rangeFrom, ih]

theorem length_digits (w n : Nat) : ∀ v, (digits w n v).length = n := by
  induction n with
  | zero => intro; rfl
  | succ n ih => intro v; simp [digits, ih]

theorem length_toBytes (n v : Nat) : (toBytes n v).length = n := by simp [toBytes, length_digits]

/-! ## Scratchpad words -/

theorem wf_storeWord (c : Core) (a : Nat) (w : PWord) (h : Memory.wf c.spad = true) :
    Memory.wf (c.storeWord a w).spad = true := wf_writeBytes _ _ _ h

/-- Storing words keeps the canonical form. -/
theorem wf_storeWords (ws : List PWord) : ∀ (c : Core) (a : Nat), Memory.wf c.spad = true →
    Memory.wf (c.storeWords a ws).spad = true := by
  induction ws with
  | nil => intro c a h; exact h
  | cons w ws ih => intro c a h; exact ih _ _ (wf_storeWord c a w h)

/-- Storing words changes no byte outside their range. -/
theorem storeWords_outside (ws : List PWord) : ∀ (c : Core) (a k : Nat), k < a ∨ a + 4 * ws.length ≤ k →
    readByte (c.storeWords a ws).spad k = readByte c.spad k := by
  induction ws with
  | nil => intros; rfl
  | cons w ws ih =>
    intro c a k h
    simp only [List.length_cons] at h
    rw [Core.storeWords, ih _ _ _ (by omega)]
    exact readByte_writeBytes_outside _ _ _ _ (by rw [length_toBytes]; omega)

/-- Storing words changes nothing of a core but its scratchpad and the poison of its words. -/
theorem storeWords_eq (ws : List PWord) : ∀ (c : Core) (a : Nat),
    c.storeWords a ws = { c with spad := (c.storeWords a ws).spad, spadBad := (c.storeWords a ws).spadBad } := by
  induction ws with
  | nil => intro c a; rfl
  | cons w ws ih =>
    intro c a
    rw [Core.storeWords]
    conv => lhs; rw [ih]
    rfl

/-! ## HBM -/

theorem wf_rekey (s : State) (key : Option (Nat × Nat)) (b : Nat) (h : Memory.wf s.hbm = true) :
    Memory.wf (s.rekey key b).hbm = true := by
  unfold State.rekey
  split
  · exact h
  · exact wf_writeBytes _ _ _ h

/-- Writing HBM keeps the canonical form. -/
theorem wf_hbmWrite (s : State) (key : Option (Nat × Nat)) (a : Nat) (bs : List Byte) (h : Memory.wf s.hbm = true) :
    Memory.wf (s.hbmWrite key a bs).hbm = true := by
  unfold State.hbmWrite
  split
  · exact h
  · refine wf_writeBytes _ _ _ ?_
    generalize rangeFrom _ _ = l
    clear bs
    induction l generalizing s with
    | nil => exact h
    | cons b l ih => exact ih _ (wf_rekey s key b h)

end Sys2Proof.Machine
end

