-- ==== Sys2Proof/Laws/State.lean ====
section
/-! SUPPORT. One law per field and update of the state records: what an update leaves as it was, and what it puts in. -/
namespace Sys2Proof.Machine

/-! ## Writing a core of the package -/

@[simp] theorem State.core_setCore_same (s : State) (n : Nat) (c : Core) : (s.setCore n c).core n = c :=
  SMap.get_set_same _ _ _ _
theorem State.core_setCore (s : State) (n k : Nat) (c : Core) : (s.setCore n c).core k = if k = n then c else s.core k :=
  SMap.get_set _ _ _ _ _
@[simp] theorem State.core_setCore_other (s : State) {n k : Nat} (c : Core) (h : k ≠ n) : (s.setCore n c).core k = s.core k :=
  SMap.get_set_other _ _ _ h

@[simp] theorem State.setCore_phys (s : State) (n : Nat) (c : Core) : (s.setCore n c).phys = s.phys := rfl
@[simp] theorem State.setCore_agenda (s : State) (n : Nat) (c : Core) : (s.setCore n c).agenda = s.agenda := rfl
@[simp] theorem State.setCore_cur (s : State) (n : Nat) (c : Core) : (s.setCore n c).cur = s.cur := rfl
@[simp] theorem State.setCore_fresh (s : State) (n : Nat) (c : Core) : (s.setCore n c).fresh = s.fresh := rfl
@[simp] theorem State.setCore_kernels (s : State) (n : Nat) (c : Core) : (s.setCore n c).kernels = s.kernels := rfl
@[simp] theorem State.setCore_reports (s : State) (n : Nat) (c : Core) : (s.setCore n c).reports = s.reports := rfl
@[simp] theorem State.setCore_groups (s : State) (n : Nat) (c : Core) : (s.setCore n c).groups = s.groups := rfl
@[simp] theorem State.setCore_queues (s : State) (n : Nat) (c : Core) : (s.setCore n c).queues = s.queues := rfl
@[simp] theorem State.setCore_served (s : State) (n : Nat) (c : Core) : (s.setCore n c).served = s.served := rfl
@[simp] theorem State.setCore_plans (s : State) (n : Nat) (c : Core) : (s.setCore n c).plans = s.plans := rfl
@[simp] theorem State.setCore_exports (s : State) (n : Nat) (c : Core) : (s.setCore n c).exports = s.exports := rfl
@[simp] theorem State.setCore_hbm (s : State) (n : Nat) (c : Core) : (s.setCore n c).hbm = s.hbm := rfl
@[simp] theorem State.setCore_hbmKey (s : State) (n : Nat) (c : Core) : (s.setCore n c).hbmKey = s.hbmKey := rfl
@[simp] theorem State.setCore_hbmBad (s : State) (n : Nat) (c : Core) : (s.setCore n c).hbmBad = s.hbmBad := rfl
@[simp] theorem State.setCore_hbmWeak (s : State) (n : Nat) (c : Core) : (s.setCore n c).hbmWeak = s.hbmWeak := rfl
@[simp] theorem State.setCore_hbmLog (s : State) (n : Nat) (c : Core) : (s.setCore n c).hbmLog = s.hbmLog := rfl
@[simp] theorem State.setCore_channels (s : State) (n : Nat) (c : Core) : (s.setCore n c).channels = s.channels := rfl
@[simp] theorem State.setCore_hostMem (s : State) (n : Nat) (c : Core) : (s.setCore n c).hostMem = s.hostMem := rfl
@[simp] theorem State.setCore_net (s : State) (n : Nat) (c : Core) : (s.setCore n c).net = s.net := rfl
@[simp] theorem State.setCore_portsDown (s : State) (n : Nat) (c : Core) : (s.setCore n c).portsDown = s.portsDown := rfl
@[simp] theorem State.setCore_d2dDown (s : State) (n : Nat) (c : Core) : (s.setCore n c).d2dDown = s.d2dDown := rfl
@[simp] theorem State.setCore_retransmit (s : State) (n : Nat) (c : Core) : (s.setCore n c).retransmit = s.retransmit := rfl
@[simp] theorem State.setCore_rebuilt (s : State) (n : Nat) (c : Core) : (s.setCore n c).rebuilt = s.rebuilt := rfl
@[simp] theorem State.setCore_peerPlans (s : State) (n : Nat) (c : Core) : (s.setCore n c).peerPlans = s.peerPlans := rfl
@[simp] theorem State.setCore_profiles (s : State) (n : Nat) (c : Core) : (s.setCore n c).profiles = s.profiles := rfl
@[simp] theorem State.setCore_phobos (s : State) (n : Nat) (c : Core) : (s.setCore n c).phobos = s.phobos := rfl
@[simp] theorem State.setCore_deimos (s : State) (n : Nat) (c : Core) : (s.setCore n c).deimos = s.deimos := rfl
@[simp] theorem State.setCore_journal (s : State) (n : Nat) (c : Core) : (s.setCore n c).journal = s.journal := rfl
@[simp] theorem State.setCore_deimosActive (s : State) (n : Nat) (c : Core) : (s.setCore n c).deimosActive = s.deimosActive := rfl
@[simp] theorem State.setCore_standby (s : State) (n : Nat) (c : Core) : (s.setCore n c).standby = s.standby := rfl
@[simp] theorem State.setCore_ready (s : State) (n : Nat) (c : Core) : (s.setCore n c).ready = s.ready := rfl
@[simp] theorem State.setCore_recovery (s : State) (n : Nat) (c : Core) : (s.setCore n c).recovery = s.recovery := rfl
@[simp] theorem State.setCore_heartbeats (s : State) (n : Nat) (c : Core) : (s.setCore n c).heartbeats = s.heartbeats := rfl
@[simp] theorem State.setCore_beatAt (s : State) (n : Nat) (c : Core) : (s.setCore n c).beatAt = s.beatAt := rfl
@[simp] theorem State.setCore_slotA (s : State) (n : Nat) (c : Core) : (s.setCore n c).slotA = s.slotA := rfl
@[simp] theorem State.setCore_slotB (s : State) (n : Nat) (c : Core) : (s.setCore n c).slotB = s.slotB := rfl
@[simp] theorem State.setCore_runsB (s : State) (n : Nat) (c : Core) : (s.setCore n c).runsB = s.runsB := rfl
@[simp] theorem State.setCore_probation (s : State) (n : Nat) (c : Core) : (s.setCore n c).probation = s.probation := rfl
@[simp] theorem State.setCore_probationAt (s : State) (n : Nat) (c : Core) : (s.setCore n c).probationAt = s.probationAt := rfl
@[simp] theorem State.setCore_session (s : State) (n : Nat) (c : Core) : (s.setCore n c).session = s.session := rfl
@[simp] theorem State.setCore_pkgset (s : State) (n : Nat) (c : Core) : (s.setCore n c).pkgset = s.pkgset := rfl
@[simp] theorem State.setCore_pkgnum (s : State) (n : Nat) (c : Core) : (s.setCore n c).pkgnum = s.pkgnum := rfl
@[simp] theorem State.setCore_ap4base (s : State) (n : Nat) (c : Core) : (s.setCore n c).ap4base = s.ap4base := rfl
@[simp] theorem State.setCore_bar4 (s : State) (n : Nat) (c : Core) : (s.setCore n c).bar4 = s.bar4 := rfl
@[simp] theorem State.setCore_dbgsel (s : State) (n : Nat) (c : Core) : (s.setCore n c).dbgsel = s.dbgsel := rfl
@[simp] theorem State.setCore_dbgstat (s : State) (n : Nat) (c : Core) : (s.setCore n c).dbgstat = s.dbgstat := rfl
@[simp] theorem State.setCore_dbgbuf (s : State) (n : Nat) (c : Core) : (s.setCore n c).dbgbuf = s.dbgbuf := rfl
@[simp] theorem State.setCore_outs (s : State) (n : Nat) (c : Core) : (s.setCore n c).outs = s.outs := rfl
@[simp] theorem State.setCore_scanNext (s : State) (n : Nat) (c : Core) : (s.setCore n c).scanNext = s.scanNext := rfl
@[simp] theorem State.setCore_scanning (s : State) (n : Nat) (c : Core) : (s.setCore n c).scanning = s.scanning := rfl
@[simp] theorem State.setCore_scanSince (s : State) (n : Nat) (c : Core) : (s.setCore n c).scanSince = s.scanSince := rfl
@[simp] theorem State.setCore_retired (s : State) (n : Nat) (c : Core) : (s.setCore n c).retired = s.retired := rfl
@[simp] theorem State.setCore_passes (s : State) (n : Nat) (c : Core) : (s.setCore n c).passes = s.passes := rfl
@[simp] theorem State.setCore_errlog (s : State) (n : Nat) (c : Core) : (s.setCore n c).errlog = s.errlog := rfl
@[simp] theorem State.setCore_tdi (s : State) (n : Nat) (c : Core) : (s.setCore n c).tdi = s.tdi := rfl
@[simp] theorem State.setCore_stopping (s : State) (n : Nat) (c : Core) : (s.setCore n c).stopping = s.stopping := rfl
@[simp] theorem State.setCore_wiping (s : State) (n : Nat) (c : Core) : (s.setCore n c).wiping = s.wiping := rfl
@[simp] theorem State.setCore_ide (s : State) (n : Nat) (c : Core) : (s.setCore n c).ide = s.ide := rfl
@[simp] theorem State.setCore_measure5 (s : State) (n : Nat) (c : Core) : (s.setCore n c).measure5 = s.measure5 := rfl
@[simp] theorem State.setCore_decode (s : State) (n : Nat) (c : Core) : (s.setCore n c).decode = s.decode := rfl
@[simp] theorem State.setCore_msix (s : State) (n : Nat) (c : Core) : (s.setCore n c).msix = s.msix := rfl
@[simp] theorem State.setCore_config (s : State) (n : Nat) (c : Core) : (s.setCore n c).config = s.config := rfl
@[simp] theorem State.setCore_identity (s : State) (n : Nat) (c : Core) : (s.setCore n c).identity = s.identity := rfl
@[simp] theorem State.setCore_certificate (s : State) (n : Nat) (c : Core) : (s.setCore n c).certificate = s.certificate := rfl
@[simp] theorem State.setCore_agreed (s : State) (n : Nat) (c : Core) : (s.setCore n c).agreed = s.agreed := rfl
@[simp] theorem State.setCore_lifecycle (s : State) (n : Nat) (c : Core) : (s.setCore n c).lifecycle = s.lifecycle := rfl
@[simp] theorem State.setCore_gen0 (s : State) (n : Nat) (c : Core) : (s.setCore n c).gen0 = s.gen0 := rfl
@[simp] theorem State.setCore_genT (s : State) (n : Nat) (c : Core) : (s.setCore n c).genT = s.genT := rfl
@[simp] theorem State.setCore_zeroFill (s : State) (n : Nat) (c : Core) : (s.setCore n c).zeroFill = s.zeroFill := rfl
@[simp] theorem State.setCore_clearing (s : State) (n : Nat) (c : Core) : (s.setCore n c).clearing = s.clearing := rfl
@[simp] theorem State.setCore_tenantPairs (s : State) (n : Nat) (c : Core) : (s.setCore n c).tenantPairs = s.tenantPairs := rfl
@[simp] theorem State.setCore_freq (s : State) (n : Nat) (c : Core) : (s.setCore n c).freq = s.freq := rfl
@[simp] theorem State.setCore_thermal (s : State) (n : Nat) (c : Core) : (s.setCore n c).thermal = s.thermal := rfl
@[simp] theorem State.setCore_stepAt (s : State) (n : Nat) (c : Core) : (s.setCore n c).stepAt = s.stepAt := rfl
@[simp] theorem State.setCore_lent (s : State) (n : Nat) (c : Core) : (s.setCore n c).lent = s.lent := rfl
@[simp] theorem State.setCore_d2dLost (s : State) (n : Nat) (c : Core) : (s.setCore n c).d2dLost = s.d2dLost := rfl
@[simp] theorem State.setCore_fireAnswers (s : State) (n : Nat) (c : Core) : (s.setCore n c).fireAnswers = s.fireAnswers := rfl

/-! ## Writing a queue -/

@[simp] theorem State.queue_setQueue_same (s : State) (n : Nat) (q : Queue) : (s.setQueue n q).queue n = q :=
  SMap.get_set_same _ _ _ _
theorem State.queue_setQueue (s : State) (n k : Nat) (q : Queue) : (s.setQueue n q).queue k = if k = n then q else s.queue k :=
  SMap.get_set _ _ _ _ _
@[simp] theorem State.core_setQueue (s : State) (n k : Nat) (q : Queue) : (s.setQueue n q).core k = s.core k := rfl

@[simp] theorem State.setQueue_phys (s : State) (n : Nat) (q : Queue) : (s.setQueue n q).phys = s.phys := rfl
@[simp] theorem State.setQueue_agenda (s : State) (n : Nat) (q : Queue) : (s.setQueue n q).agenda = s.agenda := rfl
@[simp] theorem State.setQueue_cur (s : State) (n : Nat) (q : Queue) : (s.setQueue n q).cur = s.cur := rfl
@[simp] theorem State.setQueue_fresh (s : State) (n : Nat) (q : Queue) : (s.setQueue n q).fresh = s.fresh := rfl
@[simp] theorem State.setQueue_cores (s : State) (n : Nat) (q : Queue) : (s.setQueue n q).cores = s.cores := rfl
@[simp] theorem State.setQueue_kernels (s : State) (n : Nat) (q : Queue) : (s.setQueue n q).kernels = s.kernels := rfl
@[simp] theorem State.setQueue_reports (s : State) (n : Nat) (q : Queue) : (s.setQueue n q).reports = s.reports := rfl
@[simp] theorem State.setQueue_groups (s : State) (n : Nat) (q : Queue) : (s.setQueue n q).groups = s.groups := rfl
@[simp] theorem State.setQueue_served (s : State) (n : Nat) (q : Queue) : (s.setQueue n q).served = s.served := rfl
@[simp] theorem State.setQueue_plans (s : State) (n : Nat) (q : Queue) : (s.setQueue n q).plans = s.plans := rfl
@[simp] theorem State.setQueue_exports (s : State) (n : Nat) (q : Queue) : (s.setQueue n q).exports = s.exports := rfl
@[simp] theorem State.setQueue_hbm (s : State) (n : Nat) (q : Queue) : (s.setQueue n q).hbm = s.hbm := rfl
@[simp] theorem State.setQueue_hbmKey (s : State) (n : Nat) (q : Queue) : (s.setQueue n q).hbmKey = s.hbmKey := rfl
@[simp] theorem State.setQueue_hbmBad (s : State) (n : Nat) (q : Queue) : (s.setQueue n q).hbmBad = s.hbmBad := rfl
@[simp] theorem State.setQueue_hbmWeak (s : State) (n : Nat) (q : Queue) : (s.setQueue n q).hbmWeak = s.hbmWeak := rfl
@[simp] theorem State.setQueue_hbmLog (s : State) (n : Nat) (q : Queue) : (s.setQueue n q).hbmLog = s.hbmLog := rfl
@[simp] theorem State.setQueue_channels (s : State) (n : Nat) (q : Queue) : (s.setQueue n q).channels = s.channels := rfl
@[simp] theorem State.setQueue_hostMem (s : State) (n : Nat) (q : Queue) : (s.setQueue n q).hostMem = s.hostMem := rfl
@[simp] theorem State.setQueue_net (s : State) (n : Nat) (q : Queue) : (s.setQueue n q).net = s.net := rfl
@[simp] theorem State.setQueue_portsDown (s : State) (n : Nat) (q : Queue) : (s.setQueue n q).portsDown = s.portsDown := rfl
@[simp] theorem State.setQueue_d2dDown (s : State) (n : Nat) (q : Queue) : (s.setQueue n q).d2dDown = s.d2dDown := rfl
@[simp] theorem State.setQueue_retransmit (s : State) (n : Nat) (q : Queue) : (s.setQueue n q).retransmit = s.retransmit := rfl
@[simp] theorem State.setQueue_rebuilt (s : State) (n : Nat) (q : Queue) : (s.setQueue n q).rebuilt = s.rebuilt := rfl
@[simp] theorem State.setQueue_peerPlans (s : State) (n : Nat) (q : Queue) : (s.setQueue n q).peerPlans = s.peerPlans := rfl
@[simp] theorem State.setQueue_profiles (s : State) (n : Nat) (q : Queue) : (s.setQueue n q).profiles = s.profiles := rfl
@[simp] theorem State.setQueue_phobos (s : State) (n : Nat) (q : Queue) : (s.setQueue n q).phobos = s.phobos := rfl
@[simp] theorem State.setQueue_deimos (s : State) (n : Nat) (q : Queue) : (s.setQueue n q).deimos = s.deimos := rfl
@[simp] theorem State.setQueue_journal (s : State) (n : Nat) (q : Queue) : (s.setQueue n q).journal = s.journal := rfl
@[simp] theorem State.setQueue_deimosActive (s : State) (n : Nat) (q : Queue) : (s.setQueue n q).deimosActive = s.deimosActive := rfl
@[simp] theorem State.setQueue_standby (s : State) (n : Nat) (q : Queue) : (s.setQueue n q).standby = s.standby := rfl
@[simp] theorem State.setQueue_ready (s : State) (n : Nat) (q : Queue) : (s.setQueue n q).ready = s.ready := rfl
@[simp] theorem State.setQueue_recovery (s : State) (n : Nat) (q : Queue) : (s.setQueue n q).recovery = s.recovery := rfl
@[simp] theorem State.setQueue_heartbeats (s : State) (n : Nat) (q : Queue) : (s.setQueue n q).heartbeats = s.heartbeats := rfl
@[simp] theorem State.setQueue_beatAt (s : State) (n : Nat) (q : Queue) : (s.setQueue n q).beatAt = s.beatAt := rfl
@[simp] theorem State.setQueue_slotA (s : State) (n : Nat) (q : Queue) : (s.setQueue n q).slotA = s.slotA := rfl
@[simp] theorem State.setQueue_slotB (s : State) (n : Nat) (q : Queue) : (s.setQueue n q).slotB = s.slotB := rfl
@[simp] theorem State.setQueue_runsB (s : State) (n : Nat) (q : Queue) : (s.setQueue n q).runsB = s.runsB := rfl
@[simp] theorem State.setQueue_probation (s : State) (n : Nat) (q : Queue) : (s.setQueue n q).probation = s.probation := rfl
@[simp] theorem State.setQueue_probationAt (s : State) (n : Nat) (q : Queue) : (s.setQueue n q).probationAt = s.probationAt := rfl
@[simp] theorem State.setQueue_session (s : State) (n : Nat) (q : Queue) : (s.setQueue n q).session = s.session := rfl
@[simp] theorem State.setQueue_pkgset (s : State) (n : Nat) (q : Queue) : (s.setQueue n q).pkgset = s.pkgset := rfl
@[simp] theorem State.setQueue_pkgnum (s : State) (n : Nat) (q : Queue) : (s.setQueue n q).pkgnum = s.pkgnum := rfl
@[simp] theorem State.setQueue_ap4base (s : State) (n : Nat) (q : Queue) : (s.setQueue n q).ap4base = s.ap4base := rfl
@[simp] theorem State.setQueue_bar4 (s : State) (n : Nat) (q : Queue) : (s.setQueue n q).bar4 = s.bar4 := rfl
@[simp] theorem State.setQueue_dbgsel (s : State) (n : Nat) (q : Queue) : (s.setQueue n q).dbgsel = s.dbgsel := rfl
@[simp] theorem State.setQueue_dbgstat (s : State) (n : Nat) (q : Queue) : (s.setQueue n q).dbgstat = s.dbgstat := rfl
@[simp] theorem State.setQueue_dbgbuf (s : State) (n : Nat) (q : Queue) : (s.setQueue n q).dbgbuf = s.dbgbuf := rfl
@[simp] theorem State.setQueue_outs (s : State) (n : Nat) (q : Queue) : (s.setQueue n q).outs = s.outs := rfl
@[simp] theorem State.setQueue_scanNext (s : State) (n : Nat) (q : Queue) : (s.setQueue n q).scanNext = s.scanNext := rfl
@[simp] theorem State.setQueue_scanning (s : State) (n : Nat) (q : Queue) : (s.setQueue n q).scanning = s.scanning := rfl
@[simp] theorem State.setQueue_scanSince (s : State) (n : Nat) (q : Queue) : (s.setQueue n q).scanSince = s.scanSince := rfl
@[simp] theorem State.setQueue_retired (s : State) (n : Nat) (q : Queue) : (s.setQueue n q).retired = s.retired := rfl
@[simp] theorem State.setQueue_passes (s : State) (n : Nat) (q : Queue) : (s.setQueue n q).passes = s.passes := rfl
@[simp] theorem State.setQueue_errlog (s : State) (n : Nat) (q : Queue) : (s.setQueue n q).errlog = s.errlog := rfl
@[simp] theorem State.setQueue_tdi (s : State) (n : Nat) (q : Queue) : (s.setQueue n q).tdi = s.tdi := rfl
@[simp] theorem State.setQueue_stopping (s : State) (n : Nat) (q : Queue) : (s.setQueue n q).stopping = s.stopping := rfl
@[simp] theorem State.setQueue_wiping (s : State) (n : Nat) (q : Queue) : (s.setQueue n q).wiping = s.wiping := rfl
@[simp] theorem State.setQueue_ide (s : State) (n : Nat) (q : Queue) : (s.setQueue n q).ide = s.ide := rfl
@[simp] theorem State.setQueue_measure5 (s : State) (n : Nat) (q : Queue) : (s.setQueue n q).measure5 = s.measure5 := rfl
@[simp] theorem State.setQueue_decode (s : State) (n : Nat) (q : Queue) : (s.setQueue n q).decode = s.decode := rfl
@[simp] theorem State.setQueue_msix (s : State) (n : Nat) (q : Queue) : (s.setQueue n q).msix = s.msix := rfl
@[simp] theorem State.setQueue_config (s : State) (n : Nat) (q : Queue) : (s.setQueue n q).config = s.config := rfl
@[simp] theorem State.setQueue_identity (s : State) (n : Nat) (q : Queue) : (s.setQueue n q).identity = s.identity := rfl
@[simp] theorem State.setQueue_certificate (s : State) (n : Nat) (q : Queue) : (s.setQueue n q).certificate = s.certificate := rfl
@[simp] theorem State.setQueue_agreed (s : State) (n : Nat) (q : Queue) : (s.setQueue n q).agreed = s.agreed := rfl
@[simp] theorem State.setQueue_lifecycle (s : State) (n : Nat) (q : Queue) : (s.setQueue n q).lifecycle = s.lifecycle := rfl
@[simp] theorem State.setQueue_gen0 (s : State) (n : Nat) (q : Queue) : (s.setQueue n q).gen0 = s.gen0 := rfl
@[simp] theorem State.setQueue_genT (s : State) (n : Nat) (q : Queue) : (s.setQueue n q).genT = s.genT := rfl
@[simp] theorem State.setQueue_zeroFill (s : State) (n : Nat) (q : Queue) : (s.setQueue n q).zeroFill = s.zeroFill := rfl
@[simp] theorem State.setQueue_clearing (s : State) (n : Nat) (q : Queue) : (s.setQueue n q).clearing = s.clearing := rfl
@[simp] theorem State.setQueue_tenantPairs (s : State) (n : Nat) (q : Queue) : (s.setQueue n q).tenantPairs = s.tenantPairs := rfl
@[simp] theorem State.setQueue_freq (s : State) (n : Nat) (q : Queue) : (s.setQueue n q).freq = s.freq := rfl
@[simp] theorem State.setQueue_thermal (s : State) (n : Nat) (q : Queue) : (s.setQueue n q).thermal = s.thermal := rfl
@[simp] theorem State.setQueue_stepAt (s : State) (n : Nat) (q : Queue) : (s.setQueue n q).stepAt = s.stepAt := rfl
@[simp] theorem State.setQueue_lent (s : State) (n : Nat) (q : Queue) : (s.setQueue n q).lent = s.lent := rfl
@[simp] theorem State.setQueue_d2dLost (s : State) (n : Nat) (q : Queue) : (s.setQueue n q).d2dLost = s.d2dLost := rfl
@[simp] theorem State.setQueue_fireAnswers (s : State) (n : Nat) (q : Queue) : (s.setQueue n q).fireAnswers = s.fireAnswers := rfl

/-! ## Writing a kernel's record -/

@[simp] theorem State.core_setKernel (s : State) (n : Nat) (k : Kernel) : (s.setKernel k).core n = s.core n := rfl

@[simp] theorem State.setKernel_phys (s : State) (k : Kernel) : (s.setKernel k).phys = s.phys := rfl
@[simp] theorem State.setKernel_agenda (s : State) (k : Kernel) : (s.setKernel k).agenda = s.agenda := rfl
@[simp] theorem State.setKernel_cur (s : State) (k : Kernel) : (s.setKernel k).cur = s.cur := rfl
@[simp] theorem State.setKernel_fresh (s : State) (k : Kernel) : (s.setKernel k).fresh = s.fresh := rfl
@[simp] theorem State.setKernel_cores (s : State) (k : Kernel) : (s.setKernel k).cores = s.cores := rfl
@[simp] theorem State.setKernel_reports (s : State) (k : Kernel) : (s.setKernel k).reports = s.reports := rfl
@[simp] theorem State.setKernel_groups (s : State) (k : Kernel) : (s.setKernel k).groups = s.groups := rfl
@[simp] theorem State.setKernel_queues (s : State) (k : Kernel) : (s.setKernel k).queues = s.queues := rfl
@[simp] theorem State.setKernel_served (s : State) (k : Kernel) : (s.setKernel k).served = s.served := rfl
@[simp] theorem State.setKernel_plans (s : State) (k : Kernel) : (s.setKernel k).plans = s.plans := rfl
@[simp] theorem State.setKernel_exports (s : State) (k : Kernel) : (s.setKernel k).exports = s.exports := rfl
@[simp] theorem State.setKernel_hbm (s : State) (k : Kernel) : (s.setKernel k).hbm = s.hbm := rfl
@[simp] theorem State.setKernel_hbmKey (s : State) (k : Kernel) : (s.setKernel k).hbmKey = s.hbmKey := rfl
@[simp] theorem State.setKernel_hbmBad (s : State) (k : Kernel) : (s.setKernel k).hbmBad = s.hbmBad := rfl
@[simp] theorem State.setKernel_hbmWeak (s : State) (k : Kernel) : (s.setKernel k).hbmWeak = s.hbmWeak := rfl
@[simp] theorem State.setKernel_hbmLog (s : State) (k : Kernel) : (s.setKernel k).hbmLog = s.hbmLog := rfl
@[simp] theorem State.setKernel_channels (s : State) (k : Kernel) : (s.setKernel k).channels = s.channels := rfl
@[simp] theorem State.setKernel_hostMem (s : State) (k : Kernel) : (s.setKernel k).hostMem = s.hostMem := rfl
@[simp] theorem State.setKernel_net (s : State) (k : Kernel) : (s.setKernel k).net = s.net := rfl
@[simp] theorem State.setKernel_portsDown (s : State) (k : Kernel) : (s.setKernel k).portsDown = s.portsDown := rfl
@[simp] theorem State.setKernel_d2dDown (s : State) (k : Kernel) : (s.setKernel k).d2dDown = s.d2dDown := rfl
@[simp] theorem State.setKernel_retransmit (s : State) (k : Kernel) : (s.setKernel k).retransmit = s.retransmit := rfl
@[simp] theorem State.setKernel_rebuilt (s : State) (k : Kernel) : (s.setKernel k).rebuilt = s.rebuilt := rfl
@[simp] theorem State.setKernel_peerPlans (s : State) (k : Kernel) : (s.setKernel k).peerPlans = s.peerPlans := rfl
@[simp] theorem State.setKernel_profiles (s : State) (k : Kernel) : (s.setKernel k).profiles = s.profiles := rfl
@[simp] theorem State.setKernel_phobos (s : State) (k : Kernel) : (s.setKernel k).phobos = s.phobos := rfl
@[simp] theorem State.setKernel_deimos (s : State) (k : Kernel) : (s.setKernel k).deimos = s.deimos := rfl
@[simp] theorem State.setKernel_journal (s : State) (k : Kernel) : (s.setKernel k).journal = s.journal := rfl
@[simp] theorem State.setKernel_deimosActive (s : State) (k : Kernel) : (s.setKernel k).deimosActive = s.deimosActive := rfl
@[simp] theorem State.setKernel_standby (s : State) (k : Kernel) : (s.setKernel k).standby = s.standby := rfl
@[simp] theorem State.setKernel_ready (s : State) (k : Kernel) : (s.setKernel k).ready = s.ready := rfl
@[simp] theorem State.setKernel_recovery (s : State) (k : Kernel) : (s.setKernel k).recovery = s.recovery := rfl
@[simp] theorem State.setKernel_heartbeats (s : State) (k : Kernel) : (s.setKernel k).heartbeats = s.heartbeats := rfl
@[simp] theorem State.setKernel_beatAt (s : State) (k : Kernel) : (s.setKernel k).beatAt = s.beatAt := rfl
@[simp] theorem State.setKernel_slotA (s : State) (k : Kernel) : (s.setKernel k).slotA = s.slotA := rfl
@[simp] theorem State.setKernel_slotB (s : State) (k : Kernel) : (s.setKernel k).slotB = s.slotB := rfl
@[simp] theorem State.setKernel_runsB (s : State) (k : Kernel) : (s.setKernel k).runsB = s.runsB := rfl
@[simp] theorem State.setKernel_probation (s : State) (k : Kernel) : (s.setKernel k).probation = s.probation := rfl
@[simp] theorem State.setKernel_probationAt (s : State) (k : Kernel) : (s.setKernel k).probationAt = s.probationAt := rfl
@[simp] theorem State.setKernel_session (s : State) (k : Kernel) : (s.setKernel k).session = s.session := rfl
@[simp] theorem State.setKernel_pkgset (s : State) (k : Kernel) : (s.setKernel k).pkgset = s.pkgset := rfl
@[simp] theorem State.setKernel_pkgnum (s : State) (k : Kernel) : (s.setKernel k).pkgnum = s.pkgnum := rfl
@[simp] theorem State.setKernel_ap4base (s : State) (k : Kernel) : (s.setKernel k).ap4base = s.ap4base := rfl
@[simp] theorem State.setKernel_bar4 (s : State) (k : Kernel) : (s.setKernel k).bar4 = s.bar4 := rfl
@[simp] theorem State.setKernel_dbgsel (s : State) (k : Kernel) : (s.setKernel k).dbgsel = s.dbgsel := rfl
@[simp] theorem State.setKernel_dbgstat (s : State) (k : Kernel) : (s.setKernel k).dbgstat = s.dbgstat := rfl
@[simp] theorem State.setKernel_dbgbuf (s : State) (k : Kernel) : (s.setKernel k).dbgbuf = s.dbgbuf := rfl
@[simp] theorem State.setKernel_outs (s : State) (k : Kernel) : (s.setKernel k).outs = s.outs := rfl
@[simp] theorem State.setKernel_scanNext (s : State) (k : Kernel) : (s.setKernel k).scanNext = s.scanNext := rfl
@[simp] theorem State.setKernel_scanning (s : State) (k : Kernel) : (s.setKernel k).scanning = s.scanning := rfl
@[simp] theorem State.setKernel_scanSince (s : State) (k : Kernel) : (s.setKernel k).scanSince = s.scanSince := rfl
@[simp] theorem State.setKernel_retired (s : State) (k : Kernel) : (s.setKernel k).retired = s.retired := rfl
@[simp] theorem State.setKernel_passes (s : State) (k : Kernel) : (s.setKernel k).passes = s.passes := rfl
@[simp] theorem State.setKernel_errlog (s : State) (k : Kernel) : (s.setKernel k).errlog = s.errlog := rfl
@[simp] theorem State.setKernel_tdi (s : State) (k : Kernel) : (s.setKernel k).tdi = s.tdi := rfl
@[simp] theorem State.setKernel_stopping (s : State) (k : Kernel) : (s.setKernel k).stopping = s.stopping := rfl
@[simp] theorem State.setKernel_wiping (s : State) (k : Kernel) : (s.setKernel k).wiping = s.wiping := rfl
@[simp] theorem State.setKernel_ide (s : State) (k : Kernel) : (s.setKernel k).ide = s.ide := rfl
@[simp] theorem State.setKernel_measure5 (s : State) (k : Kernel) : (s.setKernel k).measure5 = s.measure5 := rfl
@[simp] theorem State.setKernel_decode (s : State) (k : Kernel) : (s.setKernel k).decode = s.decode := rfl
@[simp] theorem State.setKernel_msix (s : State) (k : Kernel) : (s.setKernel k).msix = s.msix := rfl
@[simp] theorem State.setKernel_config (s : State) (k : Kernel) : (s.setKernel k).config = s.config := rfl
@[simp] theorem State.setKernel_identity (s : State) (k : Kernel) : (s.setKernel k).identity = s.identity := rfl
@[simp] theorem State.setKernel_certificate (s : State) (k : Kernel) : (s.setKernel k).certificate = s.certificate := rfl
@[simp] theorem State.setKernel_agreed (s : State) (k : Kernel) : (s.setKernel k).agreed = s.agreed := rfl
@[simp] theorem State.setKernel_lifecycle (s : State) (k : Kernel) : (s.setKernel k).lifecycle = s.lifecycle := rfl
@[simp] theorem State.setKernel_gen0 (s : State) (k : Kernel) : (s.setKernel k).gen0 = s.gen0 := rfl
@[simp] theorem State.setKernel_genT (s : State) (k : Kernel) : (s.setKernel k).genT = s.genT := rfl
@[simp] theorem State.setKernel_zeroFill (s : State) (k : Kernel) : (s.setKernel k).zeroFill = s.zeroFill := rfl
@[simp] theorem State.setKernel_clearing (s : State) (k : Kernel) : (s.setKernel k).clearing = s.clearing := rfl
@[simp] theorem State.setKernel_tenantPairs (s : State) (k : Kernel) : (s.setKernel k).tenantPairs = s.tenantPairs := rfl
@[simp] theorem State.setKernel_freq (s : State) (k : Kernel) : (s.setKernel k).freq = s.freq := rfl
@[simp] theorem State.setKernel_thermal (s : State) (k : Kernel) : (s.setKernel k).thermal = s.thermal := rfl
@[simp] theorem State.setKernel_stepAt (s : State) (k : Kernel) : (s.setKernel k).stepAt = s.stepAt := rfl
@[simp] theorem State.setKernel_lent (s : State) (k : Kernel) : (s.setKernel k).lent = s.lent := rfl
@[simp] theorem State.setKernel_d2dLost (s : State) (k : Kernel) : (s.setKernel k).d2dLost = s.d2dLost := rfl
@[simp] theorem State.setKernel_fireAnswers (s : State) (k : Kernel) : (s.setKernel k).fireAnswers = s.fireAnswers := rfl

/-! ## Putting something in flight -/

@[simp] theorem Core.later_inflight (c : Core) (p : Pipe) (lt : Nat) (d : Option Port) (x : Act) :
    (c.later p lt d x).a.inflight = c.a.inflight ++
      [{ lt := lt, issue := c.now, pipe := p, word := c.cx.word, dst := d, ready := !c.slow, act := x }] := rfl
@[simp] theorem Core.later_now (c : Core) (p : Pipe) (lt : Nat) (d : Option Port) (x : Act) : (c.later p lt d x).now = c.now := rfl

@[simp] theorem Core.later_run (c : Core) (p : Pipe) (lt : Nat) (d : Option Port) (x : Act) : (c.later p lt d x).run = c.run := rfl
@[simp] theorem Core.later_kernel (c : Core) (p : Pipe) (lt : Nat) (d : Option Port) (x : Act) : (c.later p lt d x).kernel = c.kernel := rfl
@[simp] theorem Core.later_lcore (c : Core) (p : Pipe) (lt : Nat) (d : Option Port) (x : Act) : (c.later p lt d x).lcore = c.lcore := rfl
@[simp] theorem Core.later_die (c : Core) (p : Pipe) (lt : Nat) (d : Option Port) (x : Act) : (c.later p lt d x).die = c.die := rfl
@[simp] theorem Core.later_ck (c : Core) (p : Pipe) (lt : Nat) (d : Option Port) (x : Act) : (c.later p lt d x).ck = c.ck := rfl
@[simp] theorem Core.later_cx (c : Core) (p : Pipe) (lt : Nat) (d : Option Port) (x : Act) : (c.later p lt d x).cx = c.cx := rfl
@[simp] theorem Core.later_win0 (c : Core) (p : Pipe) (lt : Nat) (d : Option Port) (x : Act) : (c.later p lt d x).win0 = c.win0 := rfl
@[simp] theorem Core.later_win1 (c : Core) (p : Pipe) (lt : Nat) (d : Option Port) (x : Act) : (c.later p lt d x).win1 = c.win1 := rfl
@[simp] theorem Core.later_gslot (c : Core) (p : Pipe) (lt : Nat) (d : Option Port) (x : Act) : (c.later p lt d x).gslot = c.gslot := rfl
@[simp] theorem Core.later_calendar (c : Core) (p : Pipe) (lt : Nat) (d : Option Port) (x : Act) : (c.later p lt d x).calendar = c.calendar := rfl
@[simp] theorem Core.later_budget (c : Core) (p : Pipe) (lt : Nat) (d : Option Port) (x : Act) : (c.later p lt d x).budget = c.budget := rfl
@[simp] theorem Core.later_launchBudget (c : Core) (p : Pipe) (lt : Nat) (d : Option Port) (x : Act) : (c.later p lt d x).launchBudget = c.launchBudget := rfl
@[simp] theorem Core.later_dbgctl (c : Core) (p : Pipe) (lt : Nat) (d : Option Port) (x : Act) : (c.later p lt d x).dbgctl = c.dbgctl := rfl
@[simp] theorem Core.later_brkskip (c : Core) (p : Pipe) (lt : Nat) (d : Option Port) (x : Act) : (c.later p lt d x).brkskip = c.brkskip := rfl
@[simp] theorem Core.later_debugHold (c : Core) (p : Pipe) (lt : Nat) (d : Option Port) (x : Act) : (c.later p lt d x).debugHold = c.debugHold := rfl
@[simp] theorem Core.later_freezes (c : Core) (p : Pipe) (lt : Nat) (d : Option Port) (x : Act) : (c.later p lt d x).freezes = c.freezes := rfl
@[simp] theorem Core.later_gstale (c : Core) (p : Pipe) (lt : Nat) (d : Option Port) (x : Act) : (c.later p lt d x).gstale = c.gstale := rfl
@[simp] theorem Core.later_passno (c : Core) (p : Pipe) (lt : Nat) (d : Option Port) (x : Act) : (c.later p lt d x).passno = c.passno := rfl
@[simp] theorem Core.later_spad (c : Core) (p : Pipe) (lt : Nat) (d : Option Port) (x : Act) : (c.later p lt d x).spad = c.spad := rfl
@[simp] theorem Core.later_spadBad (c : Core) (p : Pipe) (lt : Nat) (d : Option Port) (x : Act) : (c.later p lt d x).spadBad = c.spadBad := rfl
@[simp] theorem Core.later_soft (c : Core) (p : Pipe) (lt : Nat) (d : Option Port) (x : Act) : (c.later p lt d x).soft = c.soft := rfl
@[simp] theorem Core.later_filled (c : Core) (p : Pipe) (lt : Nat) (d : Option Port) (x : Act) : (c.later p lt d x).filled = c.filled := rfl
@[simp] theorem Core.later_mx (c : Core) (p : Pipe) (lt : Nat) (d : Option Port) (x : Act) : (c.later p lt d x).mx = c.mx := rfl
@[simp] theorem Core.later_seq (c : Core) (p : Pipe) (lt : Nat) (d : Option Port) (x : Act) : (c.later p lt d x).seq = c.seq := rfl
@[simp] theorem Core.later_copies (c : Core) (p : Pipe) (lt : Nat) (d : Option Port) (x : Act) : (c.later p lt d x).copies = c.copies := rfl
@[simp] theorem Core.later_nextId (c : Core) (p : Pipe) (lt : Nat) (d : Option Port) (x : Act) : (c.later p lt d x).nextId = c.nextId := rfl
@[simp] theorem Core.later_qwp (c : Core) (p : Pipe) (lt : Nat) (d : Option Port) (x : Act) : (c.later p lt d x).qwp = c.qwp := rfl
@[simp] theorem Core.later_landing (c : Core) (p : Pipe) (lt : Nat) (d : Option Port) (x : Act) : (c.later p lt d x).landing = c.landing := rfl
@[simp] theorem Core.later_takenIn (c : Core) (p : Pipe) (lt : Nat) (d : Option Port) (x : Act) : (c.later p lt d x).takenIn = c.takenIn := rfl
@[simp] theorem Core.later_journal (c : Core) (p : Pipe) (lt : Nat) (d : Option Port) (x : Act) : (c.later p lt d x).journal = c.journal := rfl
@[simp] theorem Core.later_tlb (c : Core) (p : Pipe) (lt : Nat) (d : Option Port) (x : Act) : (c.later p lt d x).tlb = c.tlb := rfl
@[simp] theorem Core.later_pairs (c : Core) (p : Pipe) (lt : Nat) (d : Option Port) (x : Act) : (c.later p lt d x).pairs = c.pairs := rfl
@[simp] theorem Core.later_disagree (c : Core) (p : Pipe) (lt : Nat) (d : Option Port) (x : Act) : (c.later p lt d x).disagree = c.disagree := rfl
@[simp] theorem Core.later_icache (c : Core) (p : Pipe) (lt : Nat) (d : Option Port) (x : Act) : (c.later p lt d x).icache = c.icache := rfl
@[simp] theorem Core.later_ahead (c : Core) (p : Pipe) (lt : Nat) (d : Option Port) (x : Act) : (c.later p lt d x).ahead = c.ahead := rfl
@[simp] theorem Core.later_absent (c : Core) (p : Pipe) (lt : Nat) (d : Option Port) (x : Act) : (c.later p lt d x).absent = c.absent := rfl
@[simp] theorem Core.later_entryPc (c : Core) (p : Pipe) (lt : Nat) (d : Option Port) (x : Act) : (c.later p lt d x).entryPc = c.entryPc := rfl
@[simp] theorem Core.later_ampLog (c : Core) (p : Pipe) (lt : Nat) (d : Option Port) (x : Act) : (c.later p lt d x).ampLog = c.ampLog := rfl
@[simp] theorem Core.later_ampBuf (c : Core) (p : Pipe) (lt : Nat) (d : Option Port) (x : Act) : (c.later p lt d x).ampBuf = c.ampBuf := rfl
@[simp] theorem Core.later_rewinds (c : Core) (p : Pipe) (lt : Nat) (d : Option Port) (x : Act) : (c.later p lt d x).rewinds = c.rewinds := rfl
@[simp] theorem Core.later_requeues (c : Core) (p : Pipe) (lt : Nat) (d : Option Port) (x : Act) : (c.later p lt d x).requeues = c.requeues := rfl
@[simp] theorem Core.later_twin (c : Core) (p : Pipe) (lt : Nat) (d : Option Port) (x : Act) : (c.later p lt d x).twin = c.twin := rfl
@[simp] theorem Core.later_pend (c : Core) (p : Pipe) (lt : Nat) (d : Option Port) (x : Act) : (c.later p lt d x).pend = c.pend := rfl
@[simp] theorem Core.later_held (c : Core) (p : Pipe) (lt : Nat) (d : Option Port) (x : Act) : (c.later p lt d x).held = c.held := rfl
@[simp] theorem Core.later_pairWait (c : Core) (p : Pipe) (lt : Nat) (d : Option Port) (x : Act) : (c.later p lt d x).pairWait = c.pairWait := rfl
@[simp] theorem Core.later_corrupt (c : Core) (p : Pipe) (lt : Nat) (d : Option Port) (x : Act) : (c.later p lt d x).corrupt = c.corrupt := rfl
@[simp] theorem Core.later_refetch (c : Core) (p : Pipe) (lt : Nat) (d : Option Port) (x : Act) : (c.later p lt d x).refetch = c.refetch := rfl
@[simp] theorem Core.later_slow (c : Core) (p : Pipe) (lt : Nat) (d : Option Port) (x : Act) : (c.later p lt d x).slow = c.slow := rfl
@[simp] theorem Core.later_haltLt (c : Core) (p : Pipe) (lt : Nat) (d : Option Port) (x : Act) : (c.later p lt d x).haltLt = c.haltLt := rfl

/-! ## The architectural registers while something is put in flight -/

@[simp] theorem Core.later_a_pc (c : Core) (p : Pipe) (lt : Nat) (d : Option Port) (x : Act) : (c.later p lt d x).a.pc = c.a.pc := rfl
@[simp] theorem Core.later_a_lt (c : Core) (p : Pipe) (lt : Nat) (d : Option Port) (x : Act) : (c.later p lt d x).a.lt = c.a.lt := rfl
@[simp] theorem Core.later_a_next (c : Core) (p : Pipe) (lt : Nat) (d : Option Port) (x : Act) : (c.later p lt d x).a.next = c.a.next := rfl
@[simp] theorem Core.later_a_entry (c : Core) (p : Pipe) (lt : Nat) (d : Option Port) (x : Act) : (c.later p lt d x).a.entry = c.a.entry := rfl
@[simp] theorem Core.later_a_again (c : Core) (p : Pipe) (lt : Nat) (d : Option Port) (x : Act) : (c.later p lt d x).a.again = c.a.again := rfl
@[simp] theorem Core.later_a_taken (c : Core) (p : Pipe) (lt : Nat) (d : Option Port) (x : Act) : (c.later p lt d x).a.taken = c.a.taken := rfl
@[simp] theorem Core.later_a_queues (c : Core) (p : Pipe) (lt : Nat) (d : Option Port) (x : Act) : (c.later p lt d x).a.queues = c.a.queues := rfl
@[simp] theorem Core.later_a_latches (c : Core) (p : Pipe) (lt : Nat) (d : Option Port) (x : Act) : (c.later p lt d x).a.latches = c.a.latches := rfl
@[simp] theorem Core.later_a_m (c : Core) (p : Pipe) (lt : Nat) (d : Option Port) (x : Act) : (c.later p lt d x).a.m = c.a.m := rfl
@[simp] theorem Core.later_a_sys (c : Core) (p : Pipe) (lt : Nat) (d : Option Port) (x : Act) : (c.later p lt d x).a.sys = c.a.sys := rfl
@[simp] theorem Core.later_a_before (c : Core) (p : Pipe) (lt : Nat) (d : Option Port) (x : Act) : (c.later p lt d x).a.before = c.a.before := rfl
@[simp] theorem Core.later_a_loops (c : Core) (p : Pipe) (lt : Nat) (d : Option Port) (x : Act) : (c.later p lt d x).a.loops = c.a.loops := rfl
@[simp] theorem Core.later_a_rdv (c : Core) (p : Pipe) (lt : Nat) (d : Option Port) (x : Act) : (c.later p lt d x).a.rdv = c.a.rdv := rfl
@[simp] theorem Core.later_a_step (c : Core) (p : Pipe) (lt : Nat) (d : Option Port) (x : Act) : (c.later p lt d x).a.step = c.a.step := rfl
@[simp] theorem Core.later_a_steps (c : Core) (p : Pipe) (lt : Nat) (d : Option Port) (x : Act) : (c.later p lt d x).a.steps = c.a.steps := rfl
@[simp] theorem Core.later_a_segLt (c : Core) (p : Pipe) (lt : Nat) (d : Option Port) (x : Act) : (c.later p lt d x).a.segLt = c.a.segLt := rfl
@[simp] theorem Core.later_a_superLt (c : Core) (p : Pipe) (lt : Nat) (d : Option Port) (x : Act) : (c.later p lt d x).a.superLt = c.a.superLt := rfl
@[simp] theorem Core.later_a_superNext (c : Core) (p : Pipe) (lt : Nat) (d : Option Port) (x : Act) : (c.later p lt d x).a.superNext = c.a.superNext := rfl
@[simp] theorem Core.later_a_out (c : Core) (p : Pipe) (lt : Nat) (d : Option Port) (x : Act) : (c.later p lt d x).a.out = c.a.out := rfl
@[simp] theorem Core.later_a_bufs (c : Core) (p : Pipe) (lt : Nat) (d : Option Port) (x : Act) : (c.later p lt d x).a.bufs = c.a.bufs := rfl
@[simp] theorem Core.later_a_chan (c : Core) (p : Pipe) (lt : Nat) (d : Option Port) (x : Act) : (c.later p lt d x).a.chan = c.a.chan := rfl
@[simp] theorem Core.later_a_sendLt (c : Core) (p : Pipe) (lt : Nat) (d : Option Port) (x : Act) : (c.later p lt d x).a.sendLt = c.a.sendLt := rfl
@[simp] theorem Core.later_a_binds (c : Core) (p : Pipe) (lt : Nat) (d : Option Port) (x : Act) : (c.later p lt d x).a.binds = c.a.binds := rfl
@[simp] theorem Core.later_a_fences (c : Core) (p : Pipe) (lt : Nat) (d : Option Port) (x : Act) : (c.later p lt d x).a.fences = c.a.fences := rfl
@[simp] theorem Core.later_a_points (c : Core) (p : Pipe) (lt : Nat) (d : Option Port) (x : Act) : (c.later p lt d x).a.points = c.a.points := rfl
@[simp] theorem Core.later_a_bars (c : Core) (p : Pipe) (lt : Nat) (d : Option Port) (x : Act) : (c.later p lt d x).a.bars = c.a.bars := rfl
@[simp] theorem Core.later_a_pseq (c : Core) (p : Pipe) (lt : Nat) (d : Option Port) (x : Act) : (c.later p lt d x).a.pseq = c.a.pseq := rfl
@[simp] theorem Core.later_a_brec (c : Core) (p : Pipe) (lt : Nat) (d : Option Port) (x : Act) : (c.later p lt d x).a.brec = c.a.brec := rfl
@[simp] theorem Core.later_a_arrayFree (c : Core) (p : Pipe) (lt : Nat) (d : Option Port) (x : Act) : (c.later p lt d x).a.arrayFree = c.a.arrayFree := rfl
@[simp] theorem Core.later_a_mxBusy (c : Core) (p : Pipe) (lt : Nat) (d : Option Port) (x : Act) : (c.later p lt d x).a.mxBusy = c.a.mxBusy := rfl
@[simp] theorem Core.later_a_ampBusy (c : Core) (p : Pipe) (lt : Nat) (d : Option Port) (x : Act) : (c.later p lt d x).a.ampBusy = c.a.ampBusy := rfl
@[simp] theorem Core.later_a_ampSlice (c : Core) (p : Pipe) (lt : Nat) (d : Option Port) (x : Act) : (c.later p lt d x).a.ampSlice = c.a.ampSlice := rfl
@[simp] theorem Core.later_a_v0Free (c : Core) (p : Pipe) (lt : Nat) (d : Option Port) (x : Act) : (c.later p lt d x).a.v0Free = c.a.v0Free := rfl
@[simp] theorem Core.later_a_v1Free (c : Core) (p : Pipe) (lt : Nat) (d : Option Port) (x : Act) : (c.later p lt d x).a.v1Free = c.a.v1Free := rfl
@[simp] theorem Core.later_a_slots (c : Core) (p : Pipe) (lt : Nat) (d : Option Port) (x : Act) : (c.later p lt d x).a.slots = c.a.slots := rfl
@[simp] theorem Core.later_a_ampSeq (c : Core) (p : Pipe) (lt : Nat) (d : Option Port) (x : Act) : (c.later p lt d x).a.ampSeq = c.a.ampSeq := rfl
@[simp] theorem Core.later_a_ampCount (c : Core) (p : Pipe) (lt : Nat) (d : Option Port) (x : Act) : (c.later p lt d x).a.ampCount = c.a.ampCount := rfl
@[simp] theorem Core.later_a_trapcode (c : Core) (p : Pipe) (lt : Nat) (d : Option Port) (x : Act) : (c.later p lt d x).a.trapcode = c.a.trapcode := rfl
@[simp] theorem Core.later_a_trappc (c : Core) (p : Pipe) (lt : Nat) (d : Option Port) (x : Act) : (c.later p lt d x).a.trappc = c.a.trappc := rfl
@[simp] theorem Core.later_a_faultaddr (c : Core) (p : Pipe) (lt : Nat) (d : Option Port) (x : Act) : (c.later p lt d x).a.faultaddr = c.a.faultaddr := rfl
@[simp] theorem Core.later_a_traplt (c : Core) (p : Pipe) (lt : Nat) (d : Option Port) (x : Act) : (c.later p lt d x).a.traplt = c.a.traplt := rfl

/-! ## The moment a word retires -/

@[simp] theorem Core.retireAt_now (c : Core) (lt : Nat) : (c.retireAt lt).now = c.now := rfl

@[simp] theorem Core.retireAt_run (c : Core) (lt : Nat) : (c.retireAt lt).run = c.run := rfl
@[simp] theorem Core.retireAt_kernel (c : Core) (lt : Nat) : (c.retireAt lt).kernel = c.kernel := rfl
@[simp] theorem Core.retireAt_lcore (c : Core) (lt : Nat) : (c.retireAt lt).lcore = c.lcore := rfl
@[simp] theorem Core.retireAt_die (c : Core) (lt : Nat) : (c.retireAt lt).die = c.die := rfl
@[simp] theorem Core.retireAt_a (c : Core) (lt : Nat) : (c.retireAt lt).a = c.a := rfl
@[simp] theorem Core.retireAt_ck (c : Core) (lt : Nat) : (c.retireAt lt).ck = c.ck := rfl
@[simp] theorem Core.retireAt_win0 (c : Core) (lt : Nat) : (c.retireAt lt).win0 = c.win0 := rfl
@[simp] theorem Core.retireAt_win1 (c : Core) (lt : Nat) : (c.retireAt lt).win1 = c.win1 := rfl
@[simp] theorem Core.retireAt_gslot (c : Core) (lt : Nat) : (c.retireAt lt).gslot = c.gslot := rfl
@[simp] theorem Core.retireAt_calendar (c : Core) (lt : Nat) : (c.retireAt lt).calendar = c.calendar := rfl
@[simp] theorem Core.retireAt_budget (c : Core) (lt : Nat) : (c.retireAt lt).budget = c.budget := rfl
@[simp] theorem Core.retireAt_launchBudget (c : Core) (lt : Nat) : (c.retireAt lt).launchBudget = c.launchBudget := rfl
@[simp] theorem Core.retireAt_dbgctl (c : Core) (lt : Nat) : (c.retireAt lt).dbgctl = c.dbgctl := rfl
@[simp] theorem Core.retireAt_brkskip (c : Core) (lt : Nat) : (c.retireAt lt).brkskip = c.brkskip := rfl
@[simp] theorem Core.retireAt_debugHold (c : Core) (lt : Nat) : (c.retireAt lt).debugHold = c.debugHold := rfl
@[simp] theorem Core.retireAt_freezes (c : Core) (lt : Nat) : (c.retireAt lt).freezes = c.freezes := rfl
@[simp] theorem Core.retireAt_gstale (c : Core) (lt : Nat) : (c.retireAt lt).gstale = c.gstale := rfl
@[simp] theorem Core.retireAt_passno (c : Core) (lt : Nat) : (c.retireAt lt).passno = c.passno := rfl
@[simp] theorem Core.retireAt_spad (c : Core) (lt : Nat) : (c.retireAt lt).spad = c.spad := rfl
@[simp] theorem Core.retireAt_spadBad (c : Core) (lt : Nat) : (c.retireAt lt).spadBad = c.spadBad := rfl
@[simp] theorem Core.retireAt_soft (c : Core) (lt : Nat) : (c.retireAt lt).soft = c.soft := rfl
@[simp] theorem Core.retireAt_filled (c : Core) (lt : Nat) : (c.retireAt lt).filled = c.filled := rfl
@[simp] theorem Core.retireAt_mx (c : Core) (lt : Nat) : (c.retireAt lt).mx = c.mx := rfl
@[simp] theorem Core.retireAt_seq (c : Core) (lt : Nat) : (c.retireAt lt).seq = c.seq := rfl
@[simp] theorem Core.retireAt_copies (c : Core) (lt : Nat) : (c.retireAt lt).copies = c.copies := rfl
@[simp] theorem Core.retireAt_nextId (c : Core) (lt : Nat) : (c.retireAt lt).nextId = c.nextId := rfl
@[simp] theorem Core.retireAt_qwp (c : Core) (lt : Nat) : (c.retireAt lt).qwp = c.qwp := rfl
@[simp] theorem Core.retireAt_landing (c : Core) (lt : Nat) : (c.retireAt lt).landing = c.landing := rfl
@[simp] theorem Core.retireAt_takenIn (c : Core) (lt : Nat) : (c.retireAt lt).takenIn = c.takenIn := rfl
@[simp] theorem Core.retireAt_journal (c : Core) (lt : Nat) : (c.retireAt lt).journal = c.journal := rfl
@[simp] theorem Core.retireAt_tlb (c : Core) (lt : Nat) : (c.retireAt lt).tlb = c.tlb := rfl
@[simp] theorem Core.retireAt_pairs (c : Core) (lt : Nat) : (c.retireAt lt).pairs = c.pairs := rfl
@[simp] theorem Core.retireAt_disagree (c : Core) (lt : Nat) : (c.retireAt lt).disagree = c.disagree := rfl
@[simp] theorem Core.retireAt_icache (c : Core) (lt : Nat) : (c.retireAt lt).icache = c.icache := rfl
@[simp] theorem Core.retireAt_ahead (c : Core) (lt : Nat) : (c.retireAt lt).ahead = c.ahead := rfl
@[simp] theorem Core.retireAt_absent (c : Core) (lt : Nat) : (c.retireAt lt).absent = c.absent := rfl
@[simp] theorem Core.retireAt_entryPc (c : Core) (lt : Nat) : (c.retireAt lt).entryPc = c.entryPc := rfl
@[simp] theorem Core.retireAt_ampLog (c : Core) (lt : Nat) : (c.retireAt lt).ampLog = c.ampLog := rfl
@[simp] theorem Core.retireAt_ampBuf (c : Core) (lt : Nat) : (c.retireAt lt).ampBuf = c.ampBuf := rfl
@[simp] theorem Core.retireAt_rewinds (c : Core) (lt : Nat) : (c.retireAt lt).rewinds = c.rewinds := rfl
@[simp] theorem Core.retireAt_requeues (c : Core) (lt : Nat) : (c.retireAt lt).requeues = c.requeues := rfl
@[simp] theorem Core.retireAt_twin (c : Core) (lt : Nat) : (c.retireAt lt).twin = c.twin := rfl
@[simp] theorem Core.retireAt_pend (c : Core) (lt : Nat) : (c.retireAt lt).pend = c.pend := rfl
@[simp] theorem Core.retireAt_held (c : Core) (lt : Nat) : (c.retireAt lt).held = c.held := rfl
@[simp] theorem Core.retireAt_pairWait (c : Core) (lt : Nat) : (c.retireAt lt).pairWait = c.pairWait := rfl
@[simp] theorem Core.retireAt_corrupt (c : Core) (lt : Nat) : (c.retireAt lt).corrupt = c.corrupt := rfl
@[simp] theorem Core.retireAt_refetch (c : Core) (lt : Nat) : (c.retireAt lt).refetch = c.refetch := rfl
@[simp] theorem Core.retireAt_slow (c : Core) (lt : Nat) : (c.retireAt lt).slow = c.slow := rfl
@[simp] theorem Core.retireAt_haltLt (c : Core) (lt : Nat) : (c.retireAt lt).haltLt = c.haltLt := rfl

end Sys2Proof.Machine
end

