-- ==== Sys2Proof/Laws/Operands.lean ====
section
/-! SUPPORT. What the shared operations of an instruction word do, each said once: reading a source, delivering a result, issuing
a word, taking a trap. -/
namespace Sys2Proof.Machine

/-! ## Reading a source (R104, R107) -/

/-- Reading a queue changes nothing of the core but its queues. -/
theorem Core.readQueue_eq {c c' : Core} {p : Port} {k : Bool} {v : Val} (h : c.readQueue p k = .ok (v, c')) :
    c' = { c with a := { c.a with queues := c'.a.queues } } := by
  unfold Core.readQueue at h
  split at h
  · cases h
  · cases k <;> (cases h; rfl)

/-- Reading a scalar source changes nothing of the core but its queues. -/
theorem Core.readS_eq {c c' : Core} {a : Src} {x : W64} (h : c.readS a = .ok (x, c')) :
    c' = { c with a := { c.a with queues := c'.a.queues } } := by
  unfold Core.readS at h
  split at h
  · dsimp only at h
    split at h
    · cases h; rfl
    · cases h
  · cases h; rfl
  · cases h; rfl
  · cases h; rfl
  · cases h; rfl
  · cases h; rfl
  · split at h
    · next hq => cases h; exact Core.readQueue_eq hq
    · cases h

/-- Reading a vector source changes nothing of the core but its queues. -/
theorem Core.readV_eq {c c' : Core} {a : Src} {v : Val} (h : c.readV a = .ok (v, c')) :
    c' = { c with a := { c.a with queues := c'.a.queues } } := by
  unfold Core.readV at h
  split at h <;> first
    | exact Core.readQueue_eq h
    | (simp only [Except.ok.injEq, Prod.mk.injEq] at h
       obtain ⟨-, rfl⟩ := h
       rfl)

/-- Reading an operand of either class changes nothing of the core but its queues. -/
theorem Core.readAny_eq {c c' : Core} {a : Src} {r : Bool × Val} (h : c.readAny a = .ok (r, c')) :
    c' = { c with a := { c.a with queues := c'.a.queues } } := by
  unfold Core.readAny at h
  generalize (a.port.vectorSrc && !(a.port.scalarSrc) || _) = b at h
  cases b
  · cases hv : c.readS a with
    | ok v => simp only [hv] at h; cases h; exact Core.readS_eq hv
    | error t => simp only [hv] at h; cases h
  · cases hv : c.readV a with
    | ok v => simp only [hv] at h; cases h; exact Core.readV_eq hv
    | error t => simp only [hv] at h; cases h

/-- A read that does not peek takes the head entry off its queue and leaves every other queue alone. -/
theorem Core.readQueue_pops {c c' : Core} {p : Port} {v : Val} (h : c.readQueue p false = .ok (v, c')) :
    c.a.landed p = v :: c'.a.landed p ∧ ∀ q, Port.num q ≠ Port.num p → c'.a.landed q = c.a.landed q := by
  unfold Core.readQueue at h
  split at h
  · cases h
  · next v' r hq =>
    cases h
    refine ⟨?_, fun q hne => ?_⟩
    · rw [hq]
      simp [Arch.landed, Arch.setLanded, SMap.get_set]
    · simp [Arch.landed, Arch.setLanded, SMap.get_set, hne]

/-- A peek leaves the core as it was. -/
theorem Core.readQueue_peeks {c c' : Core} {p : Port} {v : Val} (h : c.readQueue p true = .ok (v, c')) : c' = c := by
  unfold Core.readQueue at h
  split at h
  · cases h
  · cases h; rfl

/-! ## Delivering a result (R105, R109) -/

theorem Core.deliver_eq (c : Core) (p : Pipe) (l : Option Latch) (d : Port) (v : Val) (lat : Nat) :
    c.deliver p l d v lat =
      (c.later p (c.now + lat) (if Port.reserves d then some d else none) (.land d l v)).retireAt (c.now + lat) := rfl

@[simp] theorem Core.deliver_run (c : Core) (p : Pipe) (l : Option Latch) (d : Port) (v : Val) (lat : Nat) :
    (c.deliver p l d v lat).run = c.run := rfl
@[simp] theorem Core.deliver_now (c : Core) (p : Pipe) (l : Option Latch) (d : Port) (v : Val) (lat : Nat) :
    (c.deliver p l d v lat).now = c.now := rfl
@[simp] theorem Core.deliver_inflight (c : Core) (p : Pipe) (l : Option Latch) (d : Port) (v : Val) (lat : Nat) :
    (c.deliver p l d v lat).a.inflight = c.a.inflight ++
      [{ lt := c.now + lat, issue := c.now, pipe := p, word := c.cx.word, dst := if Port.reserves d then some d else none,
         ready := !c.slow, act := .land d l v }] := rfl
@[simp] theorem Core.deliverS_inflight (c : Core) (d : Port) (v : W64) (lat : Nat) :
    (c.deliverS d v lat).a.inflight = c.a.inflight ++
      [{ lt := c.now + lat, issue := c.now, pipe := .s, word := c.cx.word, dst := if Port.reserves d then some d else none,
         ready := !c.slow, act := .land d (some .s) (Val.ofScalar v) }] := rfl
@[simp] theorem Core.deliverS_run (c : Core) (d : Port) (v : W64) (lat : Nat) : (c.deliverS d v lat).run = c.run := rfl

/-! ## After a word -/

@[simp] theorem Core.spent_run (i : Instr) (k : Nat) (c : Core) : (c.spent i k).run = c.run := rfl

@[simp] theorem Arch.occupy_inflight (a : Arch) (p : Pipe) (n : Nat) : (a.occupy p n).inflight = a.inflight := by
  cases p <;> rfl

@[simp] theorem Core.spent_inflight (i : Instr) (k : Nat) (c : Core) : (c.spent i k).a.inflight = c.a.inflight := by
  unfold Core.spent
  dsimp only
  split
  · exact Arch.occupy_inflight _ _ _
  · rfl

/-! ## Issuing a word (R40, R386) -/

/-- The three ways of issuing a word: its own checks trap, its effect traps, or its core has changed. -/
theorem issue_next {i : Instr} {body : Body} {s t : State} (h : issue i body s = .next t) :
    (∃ x, t = takeTrap s.cur x s) ∨
    (Instr.wordTrap? i (s.core s.cur) = none ∧
      ∃ c, body s ((s.core s.cur).retireAt (s.core s.cur).now) = .ok c ∧
        t = s.setCore s.cur (c.spent i (Instr.occupancy i (s.core s.cur).fmt))) := by
  unfold issue at h
  dsimp only at h
  split at h
  · cases h; exact .inl ⟨_, rfl⟩
  · next hw =>
    split at h
    · next c hb => cases h; exact .inr ⟨hw, c, hb, rfl⟩
    · cases h; exact .inl ⟨_, rfl⟩

/-- A word is never refused and never faults. -/
theorem issue_total (i : Instr) (body : Body) (s : State) : ∃ t, issue i body s = .next t := by
  unfold issue
  dsimp only
  split
  · exact ⟨_, rfl⟩
  · split <;> exact ⟨_, rfl⟩

/-- A word that passes its checks and whose effect is defined has it. -/
theorem issue_of_ok {i : Instr} {body : Body} {s : State} {c : Core} (hw : Instr.wordTrap? i (s.core s.cur) = none)
    (hb : body s ((s.core s.cur).retireAt (s.core s.cur).now) = .ok c) :
    issue i body s = .next (s.setCore s.cur (c.spent i (Instr.occupancy i (s.core s.cur).fmt))) := by
  unfold issue
  simp only [hw, hb]

/-! ## Taking a trap (R386) -/

theorem State.core_congr {s t : State} (h : s.cores = t.cores) (n : Nat) : s.core n = t.core n := by
  unfold State.core
  rw [h]

@[simp] theorem Core.unload_run (c : Core) (t : Trap) : (c.unload t).run = c.run := rfl
@[simp] theorem Core.trapped_run (c : Core) (t : Trap) : (c.trapped t).run = .trapped := rfl
@[simp] theorem Core.trapped_a (c : Core) (t : Trap) : (c.trapped t).a =
    { c.a with trapcode := t.code.num, trappc := c.a.pc, faultaddr := t.addr, traplt := c.a.next } := rfl
@[simp] theorem Core.unload_a (c : Core) (t : Trap) : (c.unload t).a = c.a := rfl
@[simp] theorem Core.unload_spad (c : Core) (t : Trap) : (c.unload t).spad = c.spad := rfl
@[simp] theorem Core.trapped_spad (c : Core) (t : Trap) : (c.trapped t).spad = c.spad := Core.unload_spad c t

/-- Taking a trap changes one core and appends one report. -/
theorem takeTrap_package (n : Nat) (x : Trap) (s : State) :
    takeTrap n x s = { s with cores := (takeTrap n x s).cores, reports := (takeTrap n x s).reports } := rfl

theorem takeTrap_core (n : Nat) (x : Trap) (s : State) : (takeTrap n x s).core n = (s.core n).trapped x :=
  (State.core_congr rfl n).trans (State.core_setCore_same s n ((s.core n).trapped x))

theorem takeTrap_core_other (n k : Nat) (x : Trap) (s : State) (h : k ≠ n) : (takeTrap n x s).core k = s.core k :=
  (State.core_congr rfl k).trans (State.core_setCore_other s ((s.core n).trapped x) h)

/-- A word changes nothing of the package but its own core and the trap reports. -/
theorem issue_package {i : Instr} {body : Body} {s t : State} (h : issue i body s = .next t) :
    t = { s with cores := t.cores, reports := t.reports } ∧ ∀ k, k ≠ s.cur → t.core k = s.core k := by
  rcases issue_next h with ⟨x, rfl⟩ | ⟨-, c, -, rfl⟩
  · exact ⟨takeTrap_package _ _ _, fun k hk => takeTrap_core_other _ _ _ _ hk⟩
  · exact ⟨rfl, fun k hk => State.core_setCore_other s _ hk⟩

end Sys2Proof.Machine
end

