-- ==== Sys2Proof/Laws/PerInstr.lean ====
section
/-! SUPPORT. Statements made of every instruction, one lemma per constructor. -/
namespace Sys2Proof.Laws.ChainBit

/-- R34, R37: bit 31 of an instruction's word is its chain bit. -/
def Statement (i : Instr) : Prop := ∀ w, i.encode = some w → chainBit w = i.chain

/-- Bit 31 of a word built from its parts. -/
theorem chain_encWord (c : Bool) (op : BitVec 8) (p : BitVec 23) : chainBit (encWord c op p) = c := by
  show (BitVec.ofBool c ++ op ++ p).getLsbD 31 = c
  rw [BitVec.getLsbD_append, BitVec.getLsbD_append]
  cases c <;> rfl

/-- A word made by one of the formats. -/
theorem of_word {i : Instr} {c : Bool} {op : BitVec 8} {p : BitVec 23} (he : i.encode = some (encWord c op p)) (hc : i.chain = c) :
    Statement i := by
  intro w h
  rw [he] at h
  cases h
  rw [chain_encWord, hc]

/-- A row without a word. -/
theorem of_none {i : Instr} (he : i.encode = none) : Statement i := by
  intro w h
  rw [he] at h
  cases h

theorem pfxImm (p : BitVec 23) : Statement (.pfxImm p) := of_word rfl rfl
theorem pfxFmt (e : Bool) (r : BitVec 2) (n : BitVec 4) : Statement (.pfxFmt e r n) := of_word rfl rfl
theorem pfxTs (d : BitVec 23) : Statement (.pfxTs d) := of_word rfl rfl
theorem pfxRow (s l : Bool) : Statement (.pfxRow s l) := of_word rfl rfl
theorem sfxArv (c : Bool) (a : BitVec 19) : Statement (.sfxArv c a) := of_word rfl rfl
theorem mov (c : Bool) (d : Port) (a : Src) : Statement (.mov c d a) := of_word rfl rfl
theorem vmov (c : Bool) (d : Port) (a : Src) : Statement (.vmov c d a) := of_word rfl rfl
theorem movi (c : Bool) (d : Port) (i : BitVec 16) : Statement (.movi c d i) := of_word rfl rfl
theorem qdrop (c : Bool) (q : Port) (n : BitVec 8) : Statement (.qdrop c q n) := of_word rfl rfl
theorem qlen (c : Bool) (d : Port) (q : Port) : Statement (.qlen c d q) := of_word rfl rfl
theorem vbcast (c : Bool) (d : Port) (a : Src) (b : Src) : Statement (.vbcast c d a b) := of_word rfl rfl
theorem vext (c : Bool) (d : Port) (a : Src) (i : BitVec 8) : Statement (.vext c d a i) := of_word rfl rfl
theorem vins (c : Bool) (d : Port) (a : Src) (i : BitVec 8) : Statement (.vins c d a i) := of_word rfl rfl
theorem add (c : Bool) (d : Port) (a : Src) (b : Src) : Statement (.add c d a b) := of_word rfl rfl
theorem sub (c : Bool) (d : Port) (a : Src) (b : Src) : Statement (.sub c d a b) := of_word rfl rfl
theorem mul (c : Bool) (d : Port) (a : Src) (b : Src) : Statement (.mul c d a b) := of_word rfl rfl
theorem mulh (c : Bool) (d : Port) (a : Src) (b : Src) : Statement (.mulh c d a b) := of_word rfl rfl
theorem and (c : Bool) (d : Port) (a : Src) (b : Src) : Statement (.and c d a b) := of_word rfl rfl
theorem or (c : Bool) (d : Port) (a : Src) (b : Src) : Statement (.or c d a b) := of_word rfl rfl
theorem xor (c : Bool) (d : Port) (a : Src) (b : Src) : Statement (.xor c d a b) := of_word rfl rfl
theorem shl (c : Bool) (d : Port) (a : Src) (b : Src) : Statement (.shl c d a b) := of_word rfl rfl
theorem shr (c : Bool) (d : Port) (a : Src) (b : Src) : Statement (.shr c d a b) := of_word rfl rfl
theorem sra (c : Bool) (d : Port) (a : Src) (b : Src) : Statement (.sra c d a b) := of_word rfl rfl
theorem min (c : Bool) (d : Port) (a : Src) (b : Src) : Statement (.min c d a b) := of_word rfl rfl
theorem max (c : Bool) (d : Port) (a : Src) (b : Src) : Statement (.max c d a b) := of_word rfl rfl
theorem ceq (c : Bool) (d : Port) (a : Src) (b : Src) : Statement (.ceq c d a b) := of_word rfl rfl
theorem clt (c : Bool) (d : Port) (a : Src) (b : Src) : Statement (.clt c d a b) := of_word rfl rfl
theorem cltu (c : Bool) (d : Port) (a : Src) (b : Src) : Statement (.cltu c d a b) := of_word rfl rfl
theorem sel (c : Bool) (d : Port) (a : Src) (b : Src) : Statement (.sel c d a b) := of_word rfl rfl
theorem addi (c : Bool) (d : Port) (a : Src) (i : BitVec 8) : Statement (.addi c d a i) := of_word rfl rfl
theorem clz (c : Bool) (d : Port) (a : Src) : Statement (.clz c d a) := of_word rfl rfl
theorem popc (c : Bool) (d : Port) (a : Src) : Statement (.popc c d a) := of_word rfl rfl
theorem bfx (c : Bool) (d : Port) (a : Src) (b : Src) : Statement (.bfx c d a b) := of_word rfl rfl
theorem br (c : Bool) (o : BitVec 15) : Statement (.br c o) := of_word rfl rfl
theorem brz (c : Bool) (k : Src) (o : BitVec 15) : Statement (.brz c k o) := of_word rfl rfl
theorem brnz (c : Bool) (k : Src) (o : BitVec 15) : Statement (.brnz c k o) := of_word rfl rfl
theorem call (c : Bool) (o : BitVec 15) : Statement (.call c o) := of_word rfl rfl
theorem ret (c : Bool) (s : Src) : Statement (.ret c s) := of_word rfl rfl
theorem loop (c : Bool) (k : Src) (o : BitVec 15) : Statement (.loop c k o) := of_word rfl rfl
theorem loopf (c : Bool) (k : Src) (o : BitVec 15) : Statement (.loopf c k o) := of_word rfl rfl
theorem nop (c : Bool) (n : BitVec 16) : Statement (.nop c n) := of_word rfl rfl
theorem waitlt (c : Bool) (a : Src) : Statement (.waitlt c a) := of_word rfl rfl
theorem step (c : Bool) (b : BitVec 16) : Statement (.step c b) := of_word rfl rfl
theorem rdv (c : Bool) (g : BitVec 8) : Statement (.rdv c g) := of_word rfl rfl
theorem halt (c : Bool) (n : BitVec 16) : Statement (.halt c n) := of_word rfl rfl
theorem vadd (c : Bool) (d : Port) (a : Src) (b : Src) : Statement (.vadd c d a b) := of_word rfl rfl
theorem vsub (c : Bool) (d : Port) (a : Src) (b : Src) : Statement (.vsub c d a b) := of_word rfl rfl
theorem vmul (c : Bool) (d : Port) (a : Src) (b : Src) : Statement (.vmul c d a b) := of_word rfl rfl
theorem vfma (c : Bool) (d : Port) (a : Src) (b : Src) : Statement (.vfma c d a b) := of_word rfl rfl
theorem vfms (c : Bool) (d : Port) (a : Src) (b : Src) : Statement (.vfms c d a b) := of_word rfl rfl
theorem vmin (c : Bool) (d : Port) (a : Src) (b : Src) : Statement (.vmin c d a b) := of_word rfl rfl
theorem vmax (c : Bool) (d : Port) (a : Src) (b : Src) : Statement (.vmax c d a b) := of_word rfl rfl
theorem vabs (c : Bool) (d : Port) (a : Src) : Statement (.vabs c d a) := of_word rfl rfl
theorem vand (c : Bool) (d : Port) (a : Src) (b : Src) : Statement (.vand c d a b) := of_word rfl rfl
theorem vor (c : Bool) (d : Port) (a : Src) (b : Src) : Statement (.vor c d a b) := of_word rfl rfl
theorem vxor (c : Bool) (d : Port) (a : Src) (b : Src) : Statement (.vxor c d a b) := of_word rfl rfl
theorem vshl (c : Bool) (d : Port) (a : Src) (b : Src) : Statement (.vshl c d a b) := of_word rfl rfl
theorem vshr (c : Bool) (d : Port) (a : Src) (b : Src) : Statement (.vshr c d a b) := of_word rfl rfl
theorem vceq (c : Bool) (d : Port) (a : Src) (b : Src) : Statement (.vceq c d a b) := of_word rfl rfl
theorem vclt (c : Bool) (d : Port) (a : Src) (b : Src) : Statement (.vclt c d a b) := of_word rfl rfl
theorem vsel (c : Bool) (d : Port) (a : Src) (b : Src) : Statement (.vsel c d a b) := of_word rfl rfl
theorem vrcp (c : Bool) (d : Port) (a : Src) : Statement (.vrcp c d a) := of_word rfl rfl
theorem vrsq (c : Bool) (d : Port) (a : Src) : Statement (.vrsq c d a) := of_word rfl rfl
theorem vexp2 (c : Bool) (d : Port) (a : Src) : Statement (.vexp2 c d a) := of_word rfl rfl
theorem vlog2 (c : Bool) (d : Port) (a : Src) : Statement (.vlog2 c d a) := of_word rfl rfl
theorem vred (c : Bool) (d : Port) (a : Src) : Statement (.vred c d a) := of_word rfl rfl
theorem vredx (c : Bool) (d : Port) (a : Src) : Statement (.vredx c d a) := of_word rfl rfl
theorem vperm (c : Bool) (d : Port) (a : Src) (b : Src) : Statement (.vperm c d a b) := of_word rfl rfl
theorem vcomp (c : Bool) (d : Port) (a : Src) : Statement (.vcomp c d a) := of_word rfl rfl
theorem vhash (c : Bool) (d : Port) (a : Src) (b : Src) : Statement (.vhash c d a b) := of_word rfl rfl
theorem vlane (c : Bool) (d : Port) (a : Src) (b : Src) : Statement (.vlane c d a b) := of_word rfl rfl
theorem vcvt (c : Bool) (d : Port) (a : Src) (b : Src) : Statement (.vcvt c d a b) := of_word rfl rfl
theorem vquant (c : Bool) (d : Port) (a : Src) (b : Src) : Statement (.vquant c d a b) := of_word rfl rfl
theorem vdequant (c : Bool) (d : Port) (a : Src) (b : Src) : Statement (.vdequant c d a b) := of_word rfl rfl
theorem vscale (c : Bool) (d : Port) (a : Src) (b : Src) : Statement (.vscale c d a b) := of_word rfl rfl
theorem vpack (c : Bool) (d : Port) (a : Src) (b : Src) : Statement (.vpack c d a b) := of_word rfl rfl
theorem vunpack (c : Bool) (d : Port) (a : Src) (b : Src) : Statement (.vunpack c d a b) := of_word rfl rfl
theorem vcvts (c : Bool) (d : Port) (a : Src) (b : Src) : Statement (.vcvts c d a b) := of_word rfl rfl
theorem mxLdb (c : Bool) (a : Src) : Statement (.mxLdb c a) := of_word rfl rfl
theorem mxLdbs (c : Bool) (a : Src) : Statement (.mxLdbs c a) := of_word rfl rfl
theorem mxLds (c : Bool) (a : Src) (b : Src) : Statement (.mxLds c a b) := of_word rfl rfl
theorem mxPair (c : Bool) (a : Src) (b : Src) : Statement (.mxPair c a b) := of_word rfl rfl
theorem mxRun (c : Bool) (a : Src) (b : Src) : Statement (.mxRun c a b) := of_word rfl rfl
theorem mxClr (c : Bool) (a : Src) : Statement (.mxClr c a) := of_word rfl rfl
theorem mxRd (c : Bool) (d : Port) (a : Src) : Statement (.mxRd c d a) := of_word rfl rfl
theorem mxWr (c : Bool) (a : Src) (b : Src) : Statement (.mxWr c a b) := of_word rfl rfl
theorem mxEpi (c : Bool) (a : Src) (b : Src) : Statement (.mxEpi c a b) := of_word rfl rfl
theorem mxArow (c : Bool) (a : Src) (b : Src) : Statement (.mxArow c a b) := of_word rfl rfl
theorem mxSig (c : Bool) (d : Port) (a : Src) : Statement (.mxSig c d a) := of_word rfl rfl
theorem mxMode (c : Bool) (d : Port) (h : Bool) (o : Bool) : Statement (.mxMode c d h o) := of_word rfl rfl
theorem ld (c : Bool) (d : Port) (a : Src) (i : BitVec 8) : Statement (.ld c d a i) := of_word rfl rfl
theorem st (c : Bool) (a : Src) (b : Src) : Statement (.st c a b) := of_word rfl rfl
theorem vld (c : Bool) (d : Port) (a : Src) (i : BitVec 8) : Statement (.vld c d a i) := of_word rfl rfl
theorem vst (c : Bool) (a : Src) (b : Src) : Statement (.vst c a b) := of_word rfl rfl
theorem vgath (c : Bool) (d : Port) (a : Src) : Statement (.vgath c d a) := of_word rfl rfl
theorem vscat (c : Bool) (a : Src) (b : Src) : Statement (.vscat c a b) := of_word rfl rfl
theorem bdecl (c : Bool) (n : BitVec 7) (a : Src) (b : Src) : Statement (.bdecl c n a b) := of_word rfl rfl
theorem bset (c : Bool) (n : BitVec 7) (k : BitVec 8) : Statement (.bset c n k) := of_word rfl rfl
theorem atom (c : Bool) (d : Port) (a : Src) (b : Src) : Statement (.atom c d a b) := of_word rfl rfl
theorem vatom (c : Bool) (d : Port) (a : Src) (b : Src) : Statement (.vatom c d a b) := of_word rfl rfl
theorem bstat (c : Bool) (d : Port) (n : BitVec 8) : Statement (.bstat c d n) := of_word rfl rfl
theorem rgath (c : Bool) (d : Port) (a : Src) (b : Src) : Statement (.rgath c d a b) := of_word rfl rfl
theorem cpGet (c : Bool) (n : BitVec 3) (a : Src) (b : Src) : Statement (.cpGet c n a b) := of_word rfl rfl
theorem cpPut (c : Bool) (n : BitVec 3) (a : Src) (b : Src) : Statement (.cpPut c n a b) := of_word rfl rfl
theorem cpGath (c : Bool) (n : BitVec 3) (a : Src) (b : Src) : Statement (.cpGath c n a b) := of_word rfl rfl
theorem cpFill (c : Bool) (n : BitVec 3) (a : Src) (b : Src) : Statement (.cpFill c n a b) := of_word rfl rfl
theorem cpScrub (c : Bool) (n : BitVec 3) (a : Src) (b : Src) : Statement (.cpScrub c n a b) := of_word rfl rfl
theorem cpFence (c : Bool) (m : BitVec 8) : Statement (.cpFence c m) := of_word rfl rfl
theorem cpWait (c : Bool) (m : BitVec 8) : Statement (.cpWait c m) := of_word rfl rfl
theorem cpWp (c : Bool) (d : Port) (n : BitVec 8) : Statement (.cpWp c d n) := of_word rfl rfl
theorem cpBind (c : Bool) (n : BitVec 3) (a : Src) : Statement (.cpBind c n a) := of_word rfl rfl
theorem cpInv (c : Bool) (l : Bool) (w : BitVec 6) : Statement (.cpInv c l w) := of_word rfl rfl
theorem cpAmo (c : Bool) (n : BitVec 3) (a : Src) (b : Src) : Statement (.cpAmo c n a b) := of_word rfl rfl
theorem barInit (c : Bool) (d : Port) (a : Src) (b : Src) : Statement (.barInit c d a b) := of_word rfl rfl
theorem barArv (c : Bool) (a : Src) (b : Src) : Statement (.barArv c a b) := of_word rfl rfl
theorem barWait (c : Bool) (a : Src) (b : Src) : Statement (.barWait c a b) := of_word rfl rfl
theorem snd (c : Bool) (a : Src) (b : Src) : Statement (.snd c a b) := of_word rfl rfl
theorem rcv (c : Bool) (d : Port) (a : Src) : Statement (.rcv c d a) := of_word rfl rfl
theorem fence (c : Bool) (g : BitVec 8) (s : BitVec 2) : Statement (.fence c g s) := of_word rfl rfl
theorem acq (c : Bool) (g : BitVec 8) (s : BitVec 2) : Statement (.acq c g s) := of_word rfl rfl
theorem rel (c : Bool) (g : BitVec 8) (s : BitVec 2) : Statement (.rel c g s) := of_word rfl rfl
theorem ltrd (c : Bool) (d : Port) (s : BitVec 2) : Statement (.ltrd c d s) := of_word rfl rfl
theorem clBase (c : Bool) (a : Src) (b : Src) : Statement (.clBase c a b) := of_word rfl rfl
theorem clFire (c : Bool) (a : Src) : Statement (.clFire c a) := of_word rfl rfl
theorem clStat (c : Bool) (d : Port) (a : Src) (s : BitVec 8) : Statement (.clStat c d a s) := of_word rfl rfl
theorem pkSnd (c : Bool) (a : Src) (b : Src) : Statement (.pkSnd c a b) := of_word rfl rfl
theorem ampMap (c : Bool) (a : Src) (b : Src) : Statement (.ampMap c a b) := of_word rfl rfl
theorem ampGate (c : Bool) (a : Src) (b : Src) : Statement (.ampGate c a b) := of_word rfl rfl
theorem ampDiag (c : Bool) (a : Src) (b : Src) : Statement (.ampDiag c a b) := of_word rfl rfl
theorem ampCtl (c : Bool) (d : Port) (n : Bool) : Statement (.ampCtl c d n) := of_word rfl rfl
theorem ampSwap (c : Bool) (a : Src) : Statement (.ampSwap c a) := of_word rfl rfl
theorem ampNorm (c : Bool) (d : Port) (a : Src) (b : Src) : Statement (.ampNorm c d a b) := of_word rfl rfl
theorem ampProb (c : Bool) (d : Port) (a : Src) : Statement (.ampProb c d a) := of_word rfl rfl
theorem ampInit (c : Bool) (a : Src) (b : Src) : Statement (.ampInit c a b) := of_word rfl rfl
theorem qrTab (c : Bool) (a : Src) (b : Src) : Statement (.qrTab c a b) := of_word rfl rfl
theorem qrSeed (c : Bool) (a : Src) (b : Src) : Statement (.qrSeed c a b) := of_word rfl rfl
theorem qrGen (c : Bool) (d : Port) (a : Src) (b : Src) : Statement (.qrGen c d a b) := of_word rfl rfl
theorem qrGenf (c : Bool) (d : Port) (a : Src) (b : Src) : Statement (.qrGenf c d a b) := of_word rfl rfl
theorem qrSkip (c : Bool) (d : Port) (a : Src) (b : Src) : Statement (.qrSkip c d a b) := of_word rfl rfl
theorem trap (c : Bool) (k : BitVec 16) : Statement (.trap c k) := of_word rfl rfl
theorem brk (c : Bool) (k : BitVec 16) : Statement (.brk c k) := of_word rfl rfl
theorem icinv (c : Bool) (g : BitVec 8) (s : BitVec 2) : Statement (.icinv c g s) := of_word rfl rfl
theorem rdsys (c : Bool) (d : Port) (x : BitVec 8) : Statement (.rdsys c d x) := of_word rfl rfl
theorem wrsys (c : Bool) (d : Port) (a : Src) (x : BitVec 8) : Statement (.wrsys c d a x) := of_word rfl rfl
theorem resultLand (n k : Nat) : Statement (.resultLand n k) := of_none rfl
theorem sendArrival (k : Nat) : Statement (.sendArrival k) := of_none rfl
theorem timedBeatArrival (n id beat : Nat) : Statement (.timedBeatArrival n id beat) := of_none rfl
theorem copyStart (n id : Nat) : Statement (.copyStart n id) := of_none rfl
theorem copyBeatDone (n id beat : Nat) (data : Machine.BeatData) : Statement (.copyBeatDone n id beat data) := of_none rfl
theorem atsCompletion (n w granule : Nat) (v : AtsVerdict) : Statement (.atsCompletion n w granule v) := of_none rfl
theorem atsInvalidation (granule : Nat) : Statement (.atsInvalidation granule) := of_none rfl
theorem priResponse (n : Nat) (ok : Bool) : Statement (.priResponse n ok) := of_none rfl
theorem trapHandling : Statement (.trapHandling) := of_none rfl
theorem matrixTwinRerun (n : Nat) : Statement (.matrixTwinRerun n) := of_none rfl
theorem rdvRelease (n slot : Nat) : Statement (.rdvRelease n slot) := of_none rfl
theorem stepRelease (k : Nat) : Statement (.stepRelease k) := of_none rfl
theorem budgetExpiry (n : Nat) : Statement (.budgetExpiry n) := of_none rfl
theorem pairRowArrival (n : Nat) : Statement (.pairRowArrival n) := of_none rfl
theorem pairTimeout (n : Nat) : Statement (.pairTimeout n) := of_none rfl
theorem ampChunkArrival (n : Nat) (peer : Option AmpChunk) : Statement (.ampChunkArrival n peer) := of_none rfl
theorem coreHaltReport (n : Nat) : Statement (.coreHaltReport n) := of_none rfl
theorem kernelFinish (k : Nat) : Statement (.kernelFinish k) := of_none rfl
theorem remoteArrival (k : Nat) : Statement (.remoteArrival k) := of_none rfl
theorem pkSndArrival (k : Nat) (peer : Option PkPacket) : Statement (.pkSndArrival k peer) := of_none rfl
theorem pkSndRefusal (n id : Nat) : Statement (.pkSndRefusal n id) := of_none rfl
theorem icinvRequestArrival (k : Nat) : Statement (.icinvRequestArrival k) := of_none rfl
theorem hbmAccessAccept (n id beat : Nat) : Statement (.hbmAccessAccept n id beat) := of_none rfl
theorem hbmWriteDrain (ch : Nat) : Statement (.hbmWriteDrain ch) := of_none rfl
theorem hbmRefresh (ch : Nat) : Statement (.hbmRefresh ch) := of_none rfl
theorem refreshForce (ch : Nat) : Statement (.refreshForce ch) := of_none rfl
theorem peerAccess (r : PeerReq) : Statement (.peerAccess r) := of_none rfl
theorem linkBeatReceive (group : Nat) (beats : List (Option Beat512)) (xor : Option Beat512) : Statement (.linkBeatReceive group beats xor) := of_none rfl
theorem railStateChange (rail : Nat) (up : Bool) : Statement (.railStateChange rail up) := of_none rfl
theorem collectivePacketArrival (p : CollPacket) : Statement (.collectivePacketArrival p) := of_none rfl
theorem chunkOpComplete (h op : Nat) : Statement (.chunkOpComplete h op) := of_none rfl
theorem planProgressTimeout (h : Nat) : Statement (.planProgressTimeout h) := of_none rfl
theorem planSetupConfirm (h who : Nat) (ok : Bool) : Statement (.planSetupConfirm h who ok) := of_none rfl
theorem planSetupTimeout (h : Nat) : Statement (.planSetupTimeout h) := of_none rfl
theorem hostTrigger (off width : Nat) (v : W64) (tee : Bool) : Statement (.hostTrigger off width v tee) := of_none rfl
theorem launch (q : Nat) : Statement (.launch q) := of_none rfl
theorem wait (q : Nat) : Statement (.wait q) := of_none rfl
theorem waitReread (q : Nat) : Statement (.waitReread q) := of_none rfl
theorem signal (q : Nat) : Statement (.signal q) := of_none rfl
theorem fenceCommand (q : Nat) : Statement (.fenceCommand q) := of_none rfl
theorem fire (q : Nat) : Statement (.fire q) := of_none rfl
theorem planSetup (q : Nat) : Statement (.planSetup q) := of_none rfl
theorem planFree (q : Nat) : Statement (.planFree q) := of_none rfl
theorem copy (q : Nat) (k : Option Nat) : Statement (.copy q k) := of_none rfl
theorem scrub (q : Nat) (k : Option Nat) : Statement (.scrub q k) := of_none rfl
theorem cal (q : Nat) : Statement (.cal q) := of_none rfl
theorem group (q : Nat) : Statement (.group q) := of_none rfl
theorem preempt (q : Nat) : Statement (.preempt q) := of_none rfl
theorem contextSaveComplete (q : Nat) : Statement (.contextSaveComplete q) := of_none rfl
theorem resume (q : Nat) : Statement (.resume q) := of_none rfl
theorem nopc (q : Nat) : Statement (.nopc q) := of_none rfl
theorem exportEntry (q : Nat) : Statement (.exportEntry q) := of_none rfl
theorem queueStarvationTimeout (q : Nat) : Statement (.queueStarvationTimeout q) := of_none rfl
theorem queueEnable (q : Nat) (v : W64) (tee : Bool) : Statement (.queueEnable q v tee) := of_none rfl
theorem queueDisable (q : Nat) (v : W64) (tee : Bool) : Statement (.queueDisable q v tee) := of_none rfl
theorem qtailWrite (q width : Nat) (v : W64) (tee : Bool) : Statement (.qtailWrite q width v tee) := of_none rfl
theorem doorbellWrite (k : Nat) : Statement (.doorbellWrite k) := of_none rfl
theorem ap4baseWrite (v : W64) (tee : Bool) : Statement (.ap4baseWrite v tee) := of_none rfl
theorem bar4Access (off width : Nat) (wr : Option W64) : Statement (.bar4Access off width wr) := of_none rfl
theorem barResize (log2 : Nat) : Statement (.barResize log2) := of_none rfl
theorem pkgnumWrite (v : W64) (tee : Bool) : Statement (.pkgnumWrite v tee) := of_none rfl
theorem setPkgnum (payload : BitVec 16) : Statement (.setPkgnum payload) := of_none rfl
theorem registerWrite (off width : Nat) (v : W64) (tee : Bool) : Statement (.registerWrite off width v tee) := of_none rfl
theorem debugOpen (v : W64) (tee : Bool) : Statement (.debugOpen v tee) := of_none rfl
theorem debugClose (v : W64) (tee : Bool) : Statement (.debugClose v tee) := of_none rfl
theorem debugHalt (v : W64) (tee : Bool) : Statement (.debugHalt v tee) := of_none rfl
theorem debugResume (v : W64) (tee : Bool) : Statement (.debugResume v tee) := of_none rfl
theorem debugStep (v : W64) (tee : Bool) : Statement (.debugStep v tee) := of_none rfl
theorem debugRead (v : W64) (tee : Bool) : Statement (.debugRead v tee) := of_none rfl
theorem debugWrite (v : W64) (tee : Bool) : Statement (.debugWrite v tee) := of_none rfl
theorem debugCancel (v : W64) (tee : Bool) : Statement (.debugCancel v tee) := of_none rfl
theorem scanStart : Statement (.scanStart) := of_none rfl
theorem scanMove : Statement (.scanMove) := of_none rfl
theorem scanPassComplete (ok : Bool) : Statement (.scanPassComplete ok) := of_none rfl
theorem heartbeat : Statement (.heartbeat) := of_none rfl
theorem takeover (cause : TakeoverCause) (selfTest : Bool) : Statement (.takeover cause selfTest) := of_none rfl
theorem firmwareUpdate (who : Master) (image : Nat) (valid : Bool) : Statement (.firmwareUpdate who image valid) := of_none rfl
theorem probationEnd (ok : Bool) : Statement (.probationEnd ok) := of_none rfl
theorem getMeasurements (who : Master) (index : Nat) : Statement (.getMeasurements who index) := of_none rfl
theorem lockInterface : Statement (.lockInterface) := of_none rfl
theorem startInterface : Statement (.startInterface) := of_none rfl
theorem stopInterface : Statement (.stopInterface) := of_none rfl
theorem getDeviceInterfaceReport : Statement (.getDeviceInterfaceReport) := of_none rfl
theorem getDeviceInterfaceState : Statement (.getDeviceInterfaceState) := of_none rfl
theorem pcieConfigWrite (r : ConfigReg) (v : W64) : Statement (.pcieConfigWrite r v) := of_none rfl
theorem lifecycleToken (target : Lifecycle) (valid : Bool) : Statement (.lifecycleToken target valid) := of_none rfl
theorem emergencyWipe (slotA slotB : Bool) : Statement (.emergencyWipe slotA slotB) := of_none rfl
theorem coldReset (slotA slotB : Bool) : Statement (.coldReset slotA slotB) := of_none rfl
theorem functionLevelReset : Statement (.functionLevelReset) := of_none rfl
theorem hotReset : Statement (.hotReset) := of_none rfl
theorem hbmZeroFillDone : Statement (.hbmZeroFillDone) := of_none rfl
theorem firmwareUpdateSession (who : Master) (isOpen : Bool) : Statement (.firmwareUpdateSession who isOpen) := of_none rfl
theorem pldmMonitoring : Statement (.pldmMonitoring) := of_none rfl
theorem frequencyStepChange (n : Nat) : Statement (.frequencyStepChange n) := of_none rfl
theorem thermalStepDown : Statement (.thermalStepDown) := of_none rfl
theorem thermalTrip : Statement (.thermalTrip) := of_none rfl
theorem powerLimitTrip : Statement (.powerLimitTrip) := of_none rfl
theorem thermalClear : Statement (.thermalClear) := of_none rfl
theorem peerAccessRefusal (n id beat : Nat) : Statement (.peerAccessRefusal n id beat) := of_none rfl
theorem coreTriggerArrival (k : Nat) : Statement (.coreTriggerArrival k) := of_none rfl
theorem retransmitRequest (k : Nat) : Statement (.retransmitRequest k) := of_none rfl
theorem flushingReadComplete (n id : Nat) : Statement (.flushingReadComplete n id) := of_none rfl
theorem sramClearComplete : Statement (.sramClearComplete) := of_none rfl
theorem negotiateAlgorithms (who : Master) (offersSlhDsa : Bool) : Statement (.negotiateAlgorithms who offersSlhDsa) := of_none rfl

end Sys2Proof.Laws.ChainBit
end

