-- ==== Sys2Proof/Laws/Words.lean ====
section
/-! SUPPORT. How a word's completion follows from what its effect answers, and what its operands leave of the core. -/
namespace Sys2Proof.Machine

/-- A word whose effect is defined on the issuing core completes with it. -/
theorem completes_of {i : Instr} {body : Body} {s : State} {c : Core} (hp : Passes i s) (he : exec i s = issue i body s)
    (hb : body s s.issuing = .ok c) : Completes i s c := by
  unfold Completes
  rw [he]
  exact issue_of_ok hp hb

/-- The core with the queues as its operands left them has put nothing in flight yet. -/
theorem State.adding_nil (s : State) (qs : SMap (List Val)) :
    { s.issuing with a := { s.issuing.a with queues := qs } } = s.adding qs [] s.issuing.now := by
  simp only [State.adding, List.append_nil]
  rfl

/-- Two reads change the queues of the core alone. -/
theorem queues_twice {c c' c'' : Core} (h : c' = { c with a := { c.a with queues := c'.a.queues } })
    (h' : c'' = { c' with a := { c'.a with queues := c''.a.queues } }) :
    c'' = { c with a := { c.a with queues := c''.a.queues } } := by
  rw [h']
  rw [h]

theorem readsS_eq {s : State} {a : Src} {x : W64} {qs : SMap (List Val)} (h : ReadsS s a x qs) :
    s.issuing.readS a = .ok (x, s.adding qs [] s.issuing.now) := by
  obtain ⟨c, h1, rfl⟩ := h
  rw [h1, ← State.adding_nil, ← Core.readS_eq h1]

theorem readsV_eq {s : State} {a : Src} {x : Val} {qs : SMap (List Val)} (h : ReadsV s a x qs) :
    s.issuing.readV a = .ok (x, s.adding qs [] s.issuing.now) := by
  obtain ⟨c, h1, rfl⟩ := h
  rw [h1, ← State.adding_nil, ← Core.readV_eq h1]

theorem readsSS_eq {s : State} {a b : Src} {x y : W64} {qs : SMap (List Val)} (h : ReadsSS s a b x y qs) :
    ∃ c, s.issuing.readS a = .ok (x, c) ∧ c.readS b = .ok (y, s.adding qs [] s.issuing.now) := by
  obtain ⟨c, c', h1, h2, rfl⟩ := h
  refine ⟨c, h1, ?_⟩
  rw [h2, ← State.adding_nil, ← queues_twice (Core.readS_eq h1) (Core.readS_eq h2)]

theorem readsVV_eq {s : State} {a b : Src} {x y : Val} {qs : SMap (List Val)} (h : ReadsVV s a b x y qs) :
    ∃ c, s.issuing.readV a = .ok (x, c) ∧ c.readV b = .ok (y, s.adding qs [] s.issuing.now) := by
  obtain ⟨c, c', h1, h2, rfl⟩ := h
  refine ⟨c, h1, ?_⟩
  rw [h2, ← State.adding_nil, ← queues_twice (Core.readV_eq h1) (Core.readV_eq h2)]

theorem readsVS_eq {s : State} {a b : Src} {x : Val} {y : W64} {qs : SMap (List Val)} (h : ReadsVS s a b x y qs) :
    ∃ c, s.issuing.readV a = .ok (x, c) ∧ c.readS b = .ok (y, s.adding qs [] s.issuing.now) := by
  obtain ⟨c, c', h1, h2, rfl⟩ := h
  refine ⟨c, h1, ?_⟩
  rw [h2, ← State.adding_nil, ← queues_twice (Core.readV_eq h1) (Core.readS_eq h2)]

theorem readsSV_eq {s : State} {a b : Src} {x : W64} {y : Val} {qs : SMap (List Val)} (h : ReadsSV s a b x y qs) :
    ∃ c, s.issuing.readS a = .ok (x, c) ∧ c.readV b = .ok (y, s.adding qs [] s.issuing.now) := by
  obtain ⟨c, c', h1, h2, rfl⟩ := h
  refine ⟨c, h1, ?_⟩
  rw [h2, ← State.adding_nil, ← queues_twice (Core.readS_eq h1) (Core.readV_eq h2)]

/-! ## What is put in flight, entry by entry -/

@[simp] theorem State.adding_now (s : State) (qs : SMap (List Val)) (es : List Item) (lt : Nat) :
    (s.adding qs es lt).now = s.issuing.now := rfl
@[simp] theorem State.adding_vPipe (s : State) (qs : SMap (List Val)) (es : List Item) (lt : Nat) :
    (s.adding qs es lt).vPipe = s.issuing.vPipe := rfl
@[simp] theorem State.adding_cPipe (s : State) (qs : SMap (List Val)) (es : List Item) (lt : Nat) :
    (s.adding qs es lt).cPipe = s.issuing.cPipe := rfl

@[simp] theorem State.adding_later (s : State) (qs : SMap (List Val)) (es : List Item) (lt : Nat) (p : Pipe) (t : Nat)
    (dst : Option Port) (act : Act) :
    (s.adding qs es lt).later p t dst act = s.adding qs (es ++ [s.entry p t dst act]) lt := by
  simp only [State.adding, Core.later, List.append_assoc]
  rfl

@[simp] theorem State.adding_retireAt (s : State) (qs : SMap (List Val)) (es : List Item) (lt t : Nat) :
    (s.adding qs es lt).retireAt t = s.adding qs es t := rfl

@[simp] theorem State.adding_deliver (s : State) (qs : SMap (List Val)) (es : List Item) (lt : Nat) (p : Pipe) (l : Latch)
    (d : Port) (v : Val) (lat : Nat) :
    (s.adding qs es lt).deliver p (some l) d v lat = s.adding qs (es ++ [s.result p l d v lat]) (s.issuing.now + lat) := by
  rw [Core.deliver_eq, State.adding_later, State.adding_retireAt]
  rfl

@[simp] theorem State.adding_deliverS (s : State) (qs : SMap (List Val)) (es : List Item) (lt : Nat) (d : Port) (v : W64)
    (lat : Nat) : (s.adding qs es lt).deliverS d v lat = s.adding qs (es ++ [s.resultS d v lat]) (s.issuing.now + lat) :=
  State.adding_deliver ..

@[simp] theorem State.adding_deliverV (s : State) (qs : SMap (List Val)) (es : List Item) (lt : Nat) (d : Port) (v : Val)
    (f : Flags) (lat : Nat) :
    (s.adding qs es lt).deliverV d v f lat = s.adding qs (es ++ s.resultV d (v, f) lat) (s.issuing.now + lat) := by
  simp only [Core.deliverV, Core.raiseAt, State.adding_vPipe, State.adding_deliver, State.resultV]
  split
  · rfl
  · rw [State.adding_later, List.append_assoc]; rfl

end Sys2Proof.Machine
end

