-- ==== Sys2Proof/Tests/Slice0.lean ====
section
/-! SUPPORT. Tests: words of the spec decode as it says, ill-formed terms are refused, single steps on small states, and for every
statement a state and operands that meet its hypotheses. -/
namespace Sys2Proof.Tests
open Sys2Proof.Machine

set_option Elab.async false

/-! ## Decoding: words written out from the encodings of the spec -/

theorem test_decode_pfx_imm : Instr.ofWord 0x8080_0001 = .ok (.pfxImm 1) := by decide
theorem test_decode_addi : Instr.ofWord 0x9001_C22C = .ok (.addi true (.s 1) ⟨.one, false⟩ 0x2C) := by decide
theorem test_decode_vadd : Instr.ofWord 0x2023_C6C2 = .ok (.vadd false (.v 3) ⟨.lane, false⟩ ⟨.one, false⟩) := by decide
theorem test_decode_nop : Instr.ofWord 0x1B80_0003 = .ok (.nop false 3) := by decide
theorem test_decode_mov : Instr.ofWord 0x0404_9000 = .ok (.mov false (.s 4) ⟨.latch .s, false⟩) := by decide
theorem test_decode_vmov : Instr.ofWord 0x04E0_C200 = .ok (.vmov false .zero ⟨.one, false⟩) := by decide
theorem test_decode_movi : Instr.ofWord 0x8502_0000 = .ok (.movi true (.s 2) 0) := by decide
theorem test_decode_halt : Instr.ofWord 0x1D80_0000 = .ok (.halt false 0) := by decide
theorem test_decode_br : Instr.ofWord 0x1800_0004 = .ok (.br false 4) := by decide
theorem test_decode_loopf : Instr.ofWord 0x1B01_0002 = .ok (.loopf false ⟨.s 1, false⟩ 2) := by decide
theorem test_decode_ld : Instr.ofWord 0x4002_0208 = .ok (.ld false (.s 2) ⟨.s 1, false⟩ 8) := by decide
theorem test_decode_cp_get : Instr.ofWord 0x4801_0204 = .ok (.cpGet false 1 ⟨.s 1, false⟩ ⟨.s 2, false⟩) := by decide
theorem test_decode_pfx_ts : Instr.ofWord 0x8180_00F0 = .ok (.pfxTs 240) := by decide
theorem test_decode_pfx_row : Instr.ofWord 0x8200_0001 = .ok (.pfxRow false true) := by decide
theorem test_decode_snd : Instr.ofWord 0x5180_431F = .ok (.snd false ⟨.v 1, true⟩ ⟨.s 15, true⟩) := by decide
theorem test_decode_trap : Instr.ofWord 0x6000_0005 = .ok (.trap false 5) := by decide
theorem test_decode_icinv : Instr.ofWord 0x6100_0002 = .ok (.icinv false 0 2) := by decide
theorem test_decode_rdsys : Instr.ofWord 0x6181_0003 = .ok (.rdsys false (.s 1) 3) := by decide
theorem test_decode_wrsys : Instr.ofWord 0x6260_0403 = .ok (.wrsys false .zero ⟨.s 2, false⟩ 3) := by decide
theorem test_decode_rel : Instr.ofWord 0x5380_0002 = .ok (.rel false 0 2) := by decide
theorem test_decode_cl_base : Instr.ofWord 0x5480_0204 = .ok (.clBase false ⟨.s 1, false⟩ ⟨.s 2, false⟩) := by decide
theorem test_decode_cl_stat : Instr.ofWord 0x5585_0804 = .ok (.clStat false (.s 5) ⟨.s 4, false⟩ 4) := by decide
theorem test_decode_pk_snd : Instr.ofWord 0x5600_4204 = .ok (.pkSnd false ⟨.v 1, false⟩ ⟨.s 2, false⟩) := by decide
theorem test_decode_mx_ldb : Instr.ofWord 0x3800_1A00 = .ok (.mxLdb false ⟨.s 13, false⟩) := by decide
theorem test_decode_mx_run : Instr.ofWord 0x3980_18C0 = .ok (.mxRun false ⟨.s 12, false⟩ ⟨.zero, false⟩) := by decide
theorem test_decode_mx_mode : Instr.ofWord 0x3DE0_0002 = .ok (.mxMode false .zero true false) := by decide
/-- Opcode 0xFF is reserved (R61). -/
theorem test_decode_reserved : Instr.ofWord 0x7F80_0000 = .illegalOp := by decide
/-- A prefix with chain bit 0 (R52). -/
theorem test_decode_prefix_chain : Instr.ofWord 0x0080_0001 = .illegalPrefix := by decide
/-- A nonzero reserved field: `nop` with dst 1 (R36). -/
theorem test_decode_reserved_field : Instr.ofWord 0x1B81_0003 = .illegalField := by decide

/-! One word of every mnemonic, composed from the opcode map (R61) and the field tables of R34, R35 and the entries. -/

theorem test_decode_first_words : ∀ e ∈ ([
    (0x80C0_0001, .pfxImm 0x400001), (0x8100_0069, .pfxFmt true 2 9), (0x8180_012C, .pfxTs 300), (0x8200_0002, .pfxRow true false),
    (0x02C0_0010, .sfxArv false 0x40001), (0x8427_0300, .mov true (.v 7) ⟨.s 1, true⟩),
    (0x0482_0200, .vmov false (.s 2) ⟨.s 1, false⟩), (0x8545_8123, .movi true (.o 5) 0x8123),
    (0x0580_4E9C, .qdrop false (.v 7) 0x9C), (0x8627_4E00, .qlen true (.v 7) (.v 7)),
    (0x0682_0206, .vbcast false (.s 2) ⟨.s 1, false⟩ ⟨.s 3, false⟩), (0x8745_039C, .vext true (.o 5) ⟨.s 1, true⟩ 0x9C),
    (0x07D3_029C, .vins false .lk ⟨.s 1, false⟩ 0x9C), (0x8827_0206, .add true (.v 7) ⟨.s 1, false⟩ ⟨.s 3, false⟩),
    (0x0882_0347, .sub false (.s 2) ⟨.s 1, true⟩ ⟨.v 3, true⟩), (0x8945_0206, .mul true (.o 5) ⟨.s 1, false⟩ ⟨.s 3, false⟩),
    (0x09D3_0206, .mulh false .lk ⟨.s 1, false⟩ ⟨.s 3, false⟩), (0x8A27_0306, .and true (.v 7) ⟨.s 1, true⟩ ⟨.s 3, false⟩),
    (0x0A82_0206, .or false (.s 2) ⟨.s 1, false⟩ ⟨.s 3, false⟩), (0x8B45_0247, .xor true (.o 5) ⟨.s 1, false⟩ ⟨.v 3, true⟩),
    (0x0BD3_0306, .shl false .lk ⟨.s 1, true⟩ ⟨.s 3, false⟩), (0x8C27_0206, .shr true (.v 7) ⟨.s 1, false⟩ ⟨.s 3, false⟩),
    (0x0C82_0206, .sra false (.s 2) ⟨.s 1, false⟩ ⟨.s 3, false⟩), (0x8D45_0306, .min true (.o 5) ⟨.s 1, true⟩ ⟨.s 3, false⟩)] : List (Word × Instr)), Instr.ofWord e.1 = .ok e.2 := by decide
theorem test_decode_second_words : ∀ e ∈ ([
    (0x0DD3_0247, .max false .lk ⟨.s 1, false⟩ ⟨.v 3, true⟩), (0x8E27_0206, .ceq true (.v 7) ⟨.s 1, false⟩ ⟨.s 3, false⟩),
    (0x0E82_0306, .clt false (.s 2) ⟨.s 1, true⟩ ⟨.s 3, false⟩), (0x8F45_0206, .cltu true (.o 5) ⟨.s 1, false⟩ ⟨.s 3, false⟩),
    (0x0FD3_0206, .sel false .lk ⟨.s 1, false⟩ ⟨.s 3, false⟩), (0x9027_039C, .addi true (.v 7) ⟨.s 1, true⟩ 0x9C),
    (0x1082_0200, .clz false (.s 2) ⟨.s 1, false⟩), (0x9145_0200, .popc true (.o 5) ⟨.s 1, false⟩),
    (0x11D3_0306, .bfx false .lk ⟨.s 1, true⟩ ⟨.s 3, false⟩), (0x9800_4003, .br true 0x4003),
    (0x1881_C003, .brz false ⟨.s 1, true⟩ 0x4003), (0x9901_C003, .brnz true ⟨.s 1, true⟩ 0x4003), (0x1980_4003, .call false 0x4003),
    (0x9A53_8000, .ret true ⟨.lk, true⟩), (0x1A81_C003, .loop false ⟨.s 1, true⟩ 0x4003),
    (0x9B01_C003, .loopf true ⟨.s 1, true⟩ 0x4003), (0x1B80_8123, .nop false 0x8123), (0x9C00_0300, .waitlt true ⟨.s 1, true⟩),
    (0x1C80_8123, .step false 0x8123), (0x9D00_009C, .rdv true 0x9C), (0x1D80_8123, .halt false 0x8123),
    (0xA027_0206, .vadd true (.v 7) ⟨.s 1, false⟩ ⟨.s 3, false⟩), (0x2082_0206, .vsub false (.s 2) ⟨.s 1, false⟩ ⟨.s 3, false⟩),
    (0xA145_0306, .vmul true (.o 5) ⟨.s 1, true⟩ ⟨.s 3, false⟩)] : List (Word × Instr)), Instr.ofWord e.1 = .ok e.2 := by decide
theorem test_decode_third_words : ∀ e ∈ ([
    (0x21D3_0206, .vfma false .lk ⟨.s 1, false⟩ ⟨.s 3, false⟩), (0xA227_0247, .vfms true (.v 7) ⟨.s 1, false⟩ ⟨.v 3, true⟩),
    (0x2282_0306, .vmin false (.s 2) ⟨.s 1, true⟩ ⟨.s 3, false⟩), (0xA345_0206, .vmax true (.o 5) ⟨.s 1, false⟩ ⟨.s 3, false⟩),
    (0x23D3_0200, .vabs false .lk ⟨.s 1, false⟩), (0xA427_0306, .vand true (.v 7) ⟨.s 1, true⟩ ⟨.s 3, false⟩),
    (0x2482_0247, .vor false (.s 2) ⟨.s 1, false⟩ ⟨.v 3, true⟩), (0xA545_0206, .vxor true (.o 5) ⟨.s 1, false⟩ ⟨.s 3, false⟩),
    (0x25D3_0306, .vshl false .lk ⟨.s 1, true⟩ ⟨.s 3, false⟩), (0xA627_0206, .vshr true (.v 7) ⟨.s 1, false⟩ ⟨.s 3, false⟩),
    (0x2682_0206, .vceq false (.s 2) ⟨.s 1, false⟩ ⟨.s 3, false⟩), (0xA745_0347, .vclt true (.o 5) ⟨.s 1, true⟩ ⟨.v 3, true⟩),
    (0x27D3_0206, .vsel false .lk ⟨.s 1, false⟩ ⟨.s 3, false⟩), (0xA827_0200, .vrcp true (.v 7) ⟨.s 1, false⟩),
    (0x2882_0300, .vrsq false (.s 2) ⟨.s 1, true⟩), (0xA945_0200, .vexp2 true (.o 5) ⟨.s 1, false⟩),
    (0x29D3_0200, .vlog2 false .lk ⟨.s 1, false⟩), (0xAA27_0300, .vred true (.v 7) ⟨.s 1, true⟩),
    (0x2A82_0200, .vredx false (.s 2) ⟨.s 1, false⟩), (0xAB45_0206, .vperm true (.o 5) ⟨.s 1, false⟩ ⟨.s 3, false⟩),
    (0x2BD3_0300, .vcomp false .lk ⟨.s 1, true⟩), (0xAC27_0247, .vhash true (.v 7) ⟨.s 1, false⟩ ⟨.v 3, true⟩),
    (0x2C82_0206, .vlane false (.s 2) ⟨.s 1, false⟩ ⟨.s 3, false⟩), (0xB045_0306, .vcvt true (.o 5) ⟨.s 1, true⟩ ⟨.s 3, false⟩)] : List (Word × Instr)), Instr.ofWord e.1 = .ok e.2 := by decide
theorem test_decode_fourth_words : ∀ e ∈ ([
    (0x30D3_0206, .vquant false .lk ⟨.s 1, false⟩ ⟨.s 3, false⟩), (0xB127_0206, .vdequant true (.v 7) ⟨.s 1, false⟩ ⟨.s 3, false⟩),
    (0x3182_0347, .vscale false (.s 2) ⟨.s 1, true⟩ ⟨.v 3, true⟩), (0xB245_0206, .vpack true (.o 5) ⟨.s 1, false⟩ ⟨.s 3, false⟩),
    (0x32D3_0206, .vunpack false .lk ⟨.s 1, false⟩ ⟨.s 3, false⟩), (0xB327_0306, .vcvts true (.v 7) ⟨.s 1, true⟩ ⟨.s 3, false⟩),
    (0x3800_0200, .mxLdb false ⟨.s 1, false⟩), (0xB880_0200, .mxLdbs true ⟨.s 1, false⟩),
    (0x3900_0306, .mxLds false ⟨.s 1, true⟩ ⟨.s 3, false⟩), (0xBA00_0206, .mxPair true ⟨.s 1, false⟩ ⟨.s 3, false⟩),
    (0x3980_0206, .mxRun false ⟨.s 1, false⟩ ⟨.s 3, false⟩), (0xBA80_0300, .mxClr true ⟨.s 1, true⟩),
    (0x3B53_0200, .mxRd false .lk ⟨.s 1, false⟩), (0xBB80_0206, .mxWr true ⟨.s 1, false⟩ ⟨.s 3, false⟩),
    (0x3C00_0306, .mxEpi false ⟨.s 1, true⟩ ⟨.s 3, false⟩), (0xBC80_0206, .mxArow true ⟨.s 1, false⟩ ⟨.s 3, false⟩),
    (0x3D53_0200, .mxSig false .lk ⟨.s 1, false⟩), (0xBDA7_0002, .mxMode true (.v 7) true false),
    (0x4002_029C, .ld false (.s 2) ⟨.s 1, false⟩ 0x9C), (0xC080_0206, .st true ⟨.s 1, false⟩ ⟨.s 3, false⟩),
    (0x4153_039C, .vld false .lk ⟨.s 1, true⟩ 0x9C), (0xC180_0206, .vst true ⟨.s 1, false⟩ ⟨.s 3, false⟩),
    (0x4202_0200, .vgath false (.s 2) ⟨.s 1, false⟩), (0xC280_0306, .vscat true ⟨.s 1, true⟩ ⟨.s 3, false⟩)] : List (Word × Instr)), Instr.ofWord e.1 = .ok e.2 := by decide
theorem test_decode_fifth_words : ∀ e ∈ ([
    (0x4311_0206, .bdecl false 17 ⟨.s 1, false⟩ ⟨.s 3, false⟩), (0xC391_0004, .bset true 17 4),
    (0x4402_0306, .atom false (.s 2) ⟨.s 1, true⟩ ⟨.s 3, false⟩), (0xC4C5_0247, .vatom true (.o 5) ⟨.s 1, false⟩ ⟨.v 3, true⟩),
    (0x4553_0006, .bstat false .lk 6), (0xC5A7_0306, .rgath true (.v 7) ⟨.s 1, true⟩ ⟨.s 3, false⟩),
    (0x4805_0206, .cpGet false 5 ⟨.s 1, false⟩ ⟨.s 3, false⟩), (0xC885_0206, .cpPut true 5 ⟨.s 1, false⟩ ⟨.s 3, false⟩),
    (0x4905_0347, .cpGath false 5 ⟨.s 1, true⟩ ⟨.v 3, true⟩), (0xC985_0206, .cpFill true 5 ⟨.s 1, false⟩ ⟨.s 3, false⟩),
    (0x4A05_0206, .cpScrub false 5 ⟨.s 1, false⟩ ⟨.s 3, false⟩), (0xCA80_009C, .cpFence true 0x9C),
    (0x4B00_009C, .cpWait false 0x9C), (0xCBA7_0006, .cpWp true (.v 7) 6), (0x4C05_0300, .cpBind false 5 ⟨.s 1, true⟩),
    (0xCC80_802A, .cpInv true true 0x2A), (0x4D05_0206, .cpAmo false 5 ⟨.s 1, false⟩ ⟨.s 3, false⟩),
    (0xD027_0306, .barInit true (.v 7) ⟨.s 1, true⟩ ⟨.s 3, false⟩), (0x5080_0247, .barArv false ⟨.s 1, false⟩ ⟨.v 3, true⟩),
    (0xD100_0206, .barWait true ⟨.s 1, false⟩ ⟨.s 3, false⟩), (0x5180_0306, .snd false ⟨.s 1, true⟩ ⟨.s 3, false⟩),
    (0xD227_0200, .rcv true (.v 7) ⟨.s 1, false⟩), (0x5280_9C01, .fence false 0x9C 1), (0xD300_9C01, .acq true 0x9C 1)] : List (Word × Instr)), Instr.ofWord e.1 = .ok e.2 := by decide
theorem test_decode_sixth_words : ∀ e ∈ ([
    (0x5380_9C01, .rel false 0x9C 1), (0xD427_0002, .ltrd true (.v 7) 2), (0x5480_0306, .clBase false ⟨.s 1, true⟩ ⟨.s 3, false⟩),
    (0xD500_0200, .clFire true ⟨.s 1, false⟩), (0x55D3_029C, .clStat false .lk ⟨.s 1, false⟩ 0x9C),
    (0xD600_0306, .pkSnd true ⟨.s 1, true⟩ ⟨.s 3, false⟩), (0x5800_0206, .ampMap false ⟨.s 1, false⟩ ⟨.s 3, false⟩),
    (0xD880_0206, .ampGate true ⟨.s 1, false⟩ ⟨.s 3, false⟩), (0x5900_0306, .ampDiag false ⟨.s 1, true⟩ ⟨.s 3, false⟩),
    (0xD9A7_0001, .ampCtl true (.v 7) true), (0x5A00_0200, .ampSwap false ⟨.s 1, false⟩),
    (0xDAC5_0306, .ampNorm true (.o 5) ⟨.s 1, true⟩ ⟨.s 3, false⟩), (0x5B53_0200, .ampProb false .lk ⟨.s 1, false⟩),
    (0xDB80_0206, .ampInit true ⟨.s 1, false⟩ ⟨.s 3, false⟩), (0x5C00_0347, .qrTab false ⟨.s 1, true⟩ ⟨.v 3, true⟩),
    (0xDC80_0206, .qrSeed true ⟨.s 1, false⟩ ⟨.s 3, false⟩), (0x5D53_0206, .qrGen false .lk ⟨.s 1, false⟩ ⟨.s 3, false⟩),
    (0xDDA7_0306, .qrGenf true (.v 7) ⟨.s 1, true⟩ ⟨.s 3, false⟩), (0x5E02_0206, .qrSkip false (.s 2) ⟨.s 1, false⟩ ⟨.s 3, false⟩),
    (0xE000_8123, .trap true 0x8123), (0x6080_8123, .brk false 0x8123), (0xE100_9C01, .icinv true 0x9C 1),
    (0x6182_009C, .rdsys false (.s 2) 0x9C), (0xE245_039C, .wrsys true (.o 5) ⟨.s 1, true⟩ 0x9C)] : List (Word × Instr)), Instr.ofWord e.1 = .ok e.2 := by decide

/-! ## Well-formedness: one ill-formed term for each check -/

theorem test_field_limits : ∀ i ∈ ([.qdrop false (.s 0) 0, .qdrop false (.s 0) 9, .bdecl false 32 ⟨.zero, false⟩ ⟨.zero, false⟩, .bset false 0 0,
    .bset false 0 6, .bset false 32 1, .bstat false (.s 0) 32, .cpWp false (.s 0) 8, .fence false 1 2, .acq false 1 0,
    .icinv false 0 3, .ltrd false (.s 0) 3, .clStat false (.s 0) ⟨.zero, false⟩ 3, .rdsys false (.s 0) 0x15] :
    List Instr), i.fieldsOk = false := by decide

theorem test_peek_of_constant : (Instr.mov false (.s 0) ⟨.one, true⟩).fieldWf = false ∧ (Instr.mov false (.s 0) ⟨.lk, true⟩).portWf = false := by
  decide

theorem test_port_classes : ∀ i ∈ ([.mov false (.v 0) ⟨.one, false⟩, .mov false (.s 0) ⟨.v 0, false⟩, .vmov false (.s 0) ⟨.one, false⟩,
    .vmov false (.v 0) ⟨.s 0, false⟩, .vbcast false .ampU ⟨.one, false⟩ ⟨.s 0, false⟩, .vfma false .zero ⟨.one, false⟩ ⟨.one, false⟩,
    .mxRd false .mxA ⟨.zero, false⟩, .rcv false .mxA ⟨.zero, false⟩, .qdrop false .lk 1, .qlen false (.s 0) .mxA,
    .snd false ⟨.lk, false⟩ ⟨.zero, false⟩] : List Instr), i.portWf = false := by decide

theorem test_well_formed : (Instr.add false (.s 2) ⟨.s 0, true⟩ ⟨.one, false⟩).wellFormed = true := by decide

/-! ## Small states -/

/-- A value without poison whose low bits are given. -/
def val (n : BitVec 2048) : Val := { bits := n, ep := 0, sp := 0 }

/-- An item due at an LT. -/
def item (lt : Nat) (ok : Bool) (act : Act) : Item := { lt := lt, issue := 1, pipe := .s, word := 4, dst := none, ready := ok, act := act }

/-- A running core of a one-core kernel that issues a word at LT 1, with format entry 0 and the queues given. -/
def core (fmt : Nat) (queues : SMap (List Val)) : Core :=
  { Core.reset with
    run := .running, kernel := some (0, 0), budget := 2 ^ 20
    a := { Arch.reset with pc := 4, next := 1, queues := queues, sys := { SysRegs.reset with fmt := SMap.set 0 [] 0 (BitVec.ofNat 32 fmt) } }
    cx := { Issue.reset with bundle := 4, word := 4, last := 4, after := 8, after2 := .inl 16, next := 2 } }

/-- The core with items in flight. -/
def flying (is : List Item) (c : Core) : Core := { c with a := { c.a with inflight := is } }

/-- What is done at LT 9 is that act, and takes no trap. -/
def does (c : Core) (a : Act) : Bool :=
  (item 9 true a).act == a && match c.perform c 9 (item 9 true a) with | .ok _ => true | .error _ => false

/-- The core in pending-bit mode, with a store to come at scratchpad address 64. -/
def pending (c : Core) : Core :=
  flying [{ item 9 true (.write 64 [{ w := 5, k := .clean }]) with word := 8 }] { c with dbgctl := 1 }

/-- The state in which that core is the current one. -/
def state (c : Core) : State := { State.reset with cores := [(0, c)], kernels := [placedKernel 0] }

def s0 : Src := ⟨.s 0, false⟩
def s1 : Src := ⟨.s 1, false⟩
def v0 : Src := ⟨.v 0, false⟩
def v1 : Src := ⟨.v 1, false⟩

/-- Two scalars and two vectors at the heads of s0, s1, v0 and v1, and an addend in v2. -/
def heads (x y v w : BitVec 2048) : SMap (List Val) :=
  [(0, [val x]), (1, [val y]), (32, [val v]), (33, [val w]), (34, [val 7])]

/-- The state with them. -/
def ready (fmt : Nat) (x y v w : BitVec 2048) : State := state (core fmt (heads x y v w))

/-! ## Operands that are read and meet a condition -/

def succeeds (e : Except Trap α) : Bool := match e with | .ok _ => true | .error _ => false

theorem succeeds_iff (e : Except Trap α) : succeeds e = true ↔ ∃ x, e = .ok x := by cases e <;> simp [succeeds]

theorem readS_meets {s : State} {a : Src} {P : W64 → SMap (List Val) → Prop} [∀ x qs, Decidable (P x qs)]
    (h : (match s.issuing.readS a with | .ok (x, c) => decide (P x c.a.queues) | .error _ => false) = true) :
    ∃ x qs, ReadsS s a x qs ∧ P x qs := by
  split at h
  · next x c hx => exact ⟨x, _, ⟨c, hx, rfl⟩, of_decide_eq_true h⟩
  · cases h

theorem readV_meets {s : State} {a : Src} {P : Val → SMap (List Val) → Prop} [∀ x qs, Decidable (P x qs)]
    (h : (match s.issuing.readV a with | .ok (x, c) => decide (P x c.a.queues) | .error _ => false) = true) :
    ∃ x qs, ReadsV s a x qs ∧ P x qs := by
  split at h
  · next x c hx => exact ⟨x, _, ⟨c, hx, rfl⟩, of_decide_eq_true h⟩
  · cases h

/-- Two reads, one after the other, whose values and last core meet a condition. -/
def both (r1 : Except Trap (α × Core)) (r2 : Core → Except Trap (β × Core)) (p : α → β → Core → Bool) : Bool :=
  match r1 with
  | .ok (x, c) => match r2 c with | .ok (y, c') => p x y c' | .error _ => false
  | .error _ => false

theorem of_both {r1 : Except Trap (α × Core)} {r2 : Core → Except Trap (β × Core)} {p : α → β → Core → Bool}
    (h : both r1 r2 p = true) : ∃ x y c c', r1 = .ok (x, c) ∧ r2 c = .ok (y, c') ∧ p x y c' = true := by
  cases r1 with
  | error t => cases h
  | ok p =>
    obtain ⟨x, c⟩ := p
    cases hy : r2 c with
    | error t => simp [both, hy] at h
    | ok q =>
      obtain ⟨y, c'⟩ := q
      simp only [both, hy] at h
      exact ⟨x, y, c, c', rfl, hy, h⟩

theorem readSS_meets {s : State} {a b : Src} {P : W64 → W64 → SMap (List Val) → Prop} [∀ x y qs, Decidable (P x y qs)]
    (h : both (s.issuing.readS a) (fun c => c.readS b) (fun x y c => decide (P x y c.a.queues)) = true) :
    ∃ x y qs, ReadsSS s a b x y qs ∧ P x y qs := by
  obtain ⟨x, y, c, c', hx, hy, hp⟩ := of_both h
  exact ⟨x, y, _, ⟨c, c', hx, hy, rfl⟩, of_decide_eq_true hp⟩

theorem readVV_meets {s : State} {a b : Src} {P : Val → Val → SMap (List Val) → Prop} [∀ x y qs, Decidable (P x y qs)]
    (h : both (s.issuing.readV a) (fun c => c.readV b) (fun x y c => decide (P x y c.a.queues)) = true) :
    ∃ x y qs, ReadsVV s a b x y qs ∧ P x y qs := by
  obtain ⟨x, y, c, c', hx, hy, hp⟩ := of_both h
  exact ⟨x, y, _, ⟨c, c', hx, hy, rfl⟩, of_decide_eq_true hp⟩

theorem readVS_meets {s : State} {a b : Src} {P : Val → W64 → SMap (List Val) → Prop} [∀ x y qs, Decidable (P x y qs)]
    (h : both (s.issuing.readV a) (fun c => c.readS b) (fun x y c => decide (P x y c.a.queues)) = true) :
    ∃ x y qs, ReadsVS s a b x y qs ∧ P x y qs := by
  obtain ⟨x, y, c, c', hx, hy, hp⟩ := of_both h
  exact ⟨x, y, _, ⟨c, c', hx, hy, rfl⟩, of_decide_eq_true hp⟩

theorem readSV_meets {s : State} {a b : Src} {P : W64 → Val → SMap (List Val) → Prop} [∀ x y qs, Decidable (P x y qs)]
    (h : both (s.issuing.readS a) (fun c => c.readV b) (fun x y c => decide (P x y c.a.queues)) = true) :
    ∃ x y qs, ReadsSV s a b x y qs ∧ P x y qs := by
  obtain ⟨x, y, c, c', hx, hy, hp⟩ := of_both h
  exact ⟨x, y, _, ⟨c, c', hx, hy, rfl⟩, of_decide_eq_true hp⟩

theorem readAny_meets {s : State} {a b : Src} {P : Bool → Val → W64 → Core → Prop} [∀ w v y c, Decidable (P w v y c)]
    (h : both (s.issuing.readAny a) (fun c => c.readS b) (fun x y c => decide (P x.1 x.2 y c)) = true) :
    ∃ wide v c1 y c2, s.issuing.readAny a = .ok ((wide, v), c1) ∧ c1.readS b = .ok (y, c2) ∧ P wide v y c2 := by
  obtain ⟨⟨w, v⟩, y, c, c', hx, hy, hp⟩ := of_both h
  exact ⟨w, v, c, y, c', hx, hy, of_decide_eq_true hp⟩

/-! ## Words that meet the hypotheses of their statements -/

theorem witness_IntegerArithmeticResults : let s := ready 3 5 3 0 0
    ∃ x y qs, ReadsSS s s0 s1 x y qs ∧ x = 5 ∧ y = 3 ∧
      ∀ i ∈ ([.add false (.s 2) s0 s1, .sub false (.s 2) s0 s1, .mul false (.s 2) s0 s1, .mulh false (.s 2) s0 s1,
        .and false (.s 2) s0 s1, .or false (.s 2) s0 s1, .xor false (.s 2) s0 s1, .min false .zero s0 s1,
        .max false .lk s0 s1] : List Instr), Passes i s := readSS_meets (by decide +kernel)

theorem witness_ShiftSelectFieldResults : let s := ready 3 5 64 0 0
    ∃ x y qs, ReadsSS s s0 s1 x y qs ∧ y = 64 ∧
      ∀ i ∈ ([.shl false (.s 2) s0 s1, .shr false (.s 2) s0 s1, .sra false (.s 2) s0 s1, .sel false (.s 2) s0 s1,
        .bfx false (.s 2) s0 s1] : List Instr), Passes i s := readSS_meets (by decide +kernel)

theorem witness_CompareResults : let s := ready 3 5 5 0 0
    ∃ x y qs, ReadsSS s s0 s1 x y qs ∧ x = y ∧
      ∀ i ∈ ([.ceq false (.s 2) s0 s1, .clt false (.s 2) s0 s1, .cltu false (.s 2) s0 s1] : List Instr), Passes i s :=
  readSS_meets (by decide +kernel)

theorem witness_UnaryScalarResults : let s := ready 3 5 0 0 0
    ∃ x qs, ReadsS s s0 x qs ∧ s.issuing.cx.imm = none ∧ { s.issuing.cx with imm := some 1 }.imm = some 1 ∧
      ∀ i ∈ ([.mov false (.s 2) s0, .addi false (.s 2) s0 0x80, .movi false (.s 2) 0x8000, .clz false (.s 2) s0,
        .popc false (.s 2) s0] : List Instr), Passes i s := readS_meets (by decide +kernel)

theorem witness_QueueWordResults : let s := ready 3 5 0 9 0
    ∃ v qs, ReadsV s v0 v qs ∧ (1 : BitVec 8).toNat ≤ (s.issuing.a.landed (.s 0)).length ∧
      ∀ i ∈ ([.qdrop false (.s 0) 1, .qlen false (.s 2) (.v 0), .vmov false (.v 3) v0] : List Instr), Passes i s :=
  readV_meets (by decide +kernel)

theorem witness_BroadcastExtractInsertResults :
    (let s := ready 9 5 0 9 0
      ∃ x qs, ReadsS s s0 x qs ∧ fVtype s.issuing.fmt ≠ 12 ∧ SMap.get [] qs (Port.num (.v 2)) = [val 7] ∧
        Passes (.vbcast false (.v 3) s0 s0) s ∧ Passes (.vins false (.v 2) s0 63) s) ∧
    (let s := ready 12 5 6 9 0
      ∃ x y qs, ReadsSS s s0 s1 x y qs ∧ fVtype s.issuing.fmt = 12 ∧ Passes (.vbcast false (.v 3) s0 s1) s) ∧
    let s := ready 9 5 0 9 0
    ∃ v qs, ReadsV s v0 v qs ∧ (v.elemKind (unitWidth (fVtype s.issuing.fmt)) 63).poisoned = false ∧
      Passes (.vext false (.s 2) v0 63) s :=
  ⟨readS_meets (by decide +kernel), readSS_meets (by decide +kernel), readV_meets (by decide +kernel)⟩

theorem witness_VectorArithmeticResults : let s := ready 9 0 0 0x3F800000 0x40000000
    ∃ x y qs, ReadsVV s v0 v1 x y qs ∧
      ∀ i ∈ ([.vadd false (.v 3) v0 v1, .vsub false (.v 3) v0 v1, .vmul false (.v 3) v0 v1, .vmin false (.v 3) v0 v1,
        .vmax false (.v 3) v0 v1, .vand false (.v 3) v0 v1, .vor false (.v 3) v0 v1, .vxor false (.v 3) v0 v1] : List Instr),
        Passes i s := readVV_meets (by decide +kernel)

theorem witness_VectorArithmeticResults_shifts : let s := ready 3 0 0 5 32
    ∃ x y qs, ReadsVV s v0 v1 x y qs ∧
      ∀ i ∈ ([.vshl false (.v 3) v0 v1, .vshr false (.v 3) v0 v1] : List Instr), Passes i s := readVV_meets (by decide +kernel)

theorem witness_FusedCompareSelectResults : let s := ready 9 0 0 5 32
    ∃ x y qs, ReadsVV s v0 v1 x y qs ∧ SMap.get [] qs (Port.num (.v 2)) = [val 7] ∧ (x.anyKind.join y.anyKind).poisoned = false ∧
      ∀ i ∈ ([.vfma false (.v 2) v0 v1, .vfms false (.v 2) v0 v1, .vceq false (.v 3) v0 v1, .vclt false (.v 3) v0 v1,
        .vsel false (.v 3) v0 v1] : List Instr), Passes i s := readVV_meets (by decide +kernel)

theorem witness_VectorUnaryResults : let s := ready 9 0 0 5 32
    ∃ x qs, ReadsV s v0 x qs ∧
      ∀ i ∈ ([.vabs false (.v 3) v0, .vrcp false (.v 3) v0, .vrsq false (.v 3) v0, .vexp2 false (.v 3) v0, .vlog2 false (.v 3) v0,
        .vred false (.v 3) v0, .vredx false (.v 3) v0] : List Instr), Passes i s := readV_meets (by decide +kernel)

theorem witness_VectorUnaryResults_compress : let s := ready (8 + 2 ^ 18) 0 0 5 32
    ∃ x qs, ReadsV s v0 x qs ∧ Passes (.vcomp false (.v 3) v0) s := readV_meets (by decide +kernel)

theorem witness_PermuteHashResults : let s := ready 3 5 0 9 32
    (∃ x y qs, ReadsVV s v0 v1 x y qs ∧ Passes (.vperm false (.v 3) v0 v1) s) ∧
    ∃ x k qs, ReadsVS s v0 s0 x k qs ∧ Passes (.vlane false (.v 3) v0 s0) s ∧ Passes (.vhash false (.v 3) v0 s0) s :=
  ⟨readVV_meets (by decide +kernel), readVS_meets (by decide +kernel)⟩

theorem witness_ConversionResults :
    (let s := ready (9 + 16 * 7) 1 0 5 32
      ∃ x p qs, ReadsVS s v0 s0 x p qs ∧ p.toNat < partCount (widthOf (fVtype s.issuing.fmt)) (widthOf (fCtype s.issuing.fmt)) ∧
        Passes (.vcvt false (.v 3) v0 s0) s ∧ Passes (.vpack false (.v 3) v0 s0) s) ∧
    (let s := ready (1 + 16 * 3) 1 0 5 32
      ∃ x p qs, ReadsVS s v0 s0 x p qs ∧ p.toNat < partCount (widthOf (fVtype s.issuing.fmt)) (widthOf (fCtype s.issuing.fmt)) ∧
        Passes (.vunpack false (.v 3) v0 s0) s) ∧
    (let s := ready (9 + 16 * 5) 0 0 5 (0x3F80 <<< 2032)
      ∃ x q qs, ReadsVV s v0 v1 x q qs ∧ (q.kind 63).poisoned = false ∧
        q.part < partCount (widthOf (fVtype s.issuing.fmt)) (widthOf (fCtype s.issuing.fmt)) ∧ Passes (.vquant false (.v 3) v0 v1) s) ∧
    (let s := ready (5 + 16 * 9) 0 0 5 (0x3F80 <<< 2032)
      ∃ x q qs, ReadsVV s v0 v1 x q qs ∧ (q.kind 63).poisoned = false ∧
        q.part < partCount (widthOf (fVtype s.issuing.fmt)) (widthOf (fCtype s.issuing.fmt)) ∧ Passes (.vdequant false (.v 3) v0 v1) s) ∧
    (let s := ready (9 + 16 * 7) 0 0 5 (1 <<< 1536)
      ∃ x q qs, ReadsVV s v0 v1 x q qs ∧ (q.kind 48).poisoned = false ∧
        bitsOf q.bits.toNat 1536 4 < partCount (widthOf (fVtype s.issuing.fmt)) (widthOf (fCtype s.issuing.fmt)) ∧
        Passes (.vcvts false (.v 3) v0 v1) s) ∧
    let s := ready (9 + 16 * 5) (0x3F800000 + 3) 0 5 0
    ∃ x ctl qs, ReadsVS s v0 s0 x ctl qs ∧ within ctl (ones 31 16 + ones 3 0) = true ∧
      fld ctl 3 0 < partCount (widthOf (fVtype s.issuing.fmt)) (widthOf (fCtype s.issuing.fmt)) ∧ Passes (.vscale false (.v 3) v0 s0) s :=
  ⟨readVS_meets (by decide +kernel), readVS_meets (by decide +kernel), readVV_meets (by decide +kernel),
    readVV_meets (by decide +kernel), readVV_meets (by decide +kernel), readVS_meets (by decide +kernel)⟩

theorem witness_LoadResults :
    (let s := ready 3 (BitVec.ofNat 2048 (spadSize - 16)) 0 0 0
      ∃ b qs, ReadsS s s0 b qs ∧
        let x := (b + BitVec.ofInt 64 (s.issuing.immS 8 8)).toNat
        x % 8 = 0 ∧ x + 8 = spadSize ∧ succeeds (s.issuing.readGuard [(2, x, 8)]) = true ∧ Passes (.ld false (.s 2) s0 8) s) ∧
    (let s := ready 3 9 0 0 0
      ∃ b qs, ReadsS s s0 b qs ∧ (b + BitVec.ofInt 64 (s.issuing.immS 8 8)).toNat % 8 ≠ 0 ∧ Passes (.ld false (.s 2) s0 8) s) ∧
    (let s := ready 3 (BitVec.ofNat 2048 (spadSize - 320)) 0 0 0
      ∃ b qs, ReadsS s s0 b qs ∧
        let x := (b + BitVec.ofInt 64 (64 * s.issuing.immS 8 1)).toNat
        x % 64 = 0 ∧ x + 256 = spadSize ∧ succeeds (s.issuing.readGuard [(2, x, 256)]) = true ∧ Passes (.vld false (.v 3) s0 1) s) ∧
    let s := ready 3 0 0 (8 + 64 <<< 32) 0
    ∃ v qs, ReadsV s v0 v qs ∧ Passes (.vgath false (.v 3) v0) s ∧ succeeds (do
      let ls ← s.issuing.lanes v 64
      let as ← s.issuing.checkLanes ls 4 4 (· == 0)
      s.issuing.readGuard ((laneAddrs as).map fun x => (3, x, 4))) = true :=
  ⟨readS_meets (by decide +kernel), readS_meets (by decide +kernel), readS_meets (by decide +kernel), readV_meets (by decide +kernel)⟩

/-- 64 lanes of four bytes each, in rising order. -/
def rising : BitVec 2048 := BitVec.ofNat 2048 (ofDigits 32 ((upto 64).map (4 * ·)))

theorem witness_StoreResults :
    (let s := ready 3 (BitVec.ofNat 2048 (spadSize - 8)) 77 0 0
      ∃ x v qs, ReadsSS s s0 s1 x v qs ∧ x.toNat % 8 = 0 ∧ x.toNat + 8 = spadSize ∧
        succeeds (s.issuing.writeGuard [(2, x.toNat, 8)]) = true ∧ Passes (.st false s0 s1) s) ∧
    (let s := ready 3 (BitVec.ofNat 2048 (spadSize - 256)) 0 77 0
      ∃ v x qs, ReadsVS s v0 s0 v x qs ∧ x.toNat % 64 = 0 ∧ x.toNat + 256 = spadSize ∧
        succeeds (s.issuing.writeGuard [(2, x.toNat, 256)]) = true ∧ Passes (.vst false v0 s0) s) ∧
    let s := ready 3 0 0 77 rising
    ∃ v l qs, ReadsVV s v0 v1 v l qs ∧ Passes (.vscat false v0 v1) s ∧ succeeds (do
      let ls ← s.issuing.lanes l 64
      let as ← s.issuing.checkLanes ls 4 4 (· == 0)
      s.issuing.writeGuard ((laneAddrs as).map fun x => (3, x, 4))) = true :=
  ⟨readSS_meets (by decide +kernel), readVS_meets (by decide +kernel), readVV_meets (by decide +kernel)⟩

theorem witness_AtomicRowGatherResults :
    (let s := ready 3 (BitVec.ofNat 2048 (2 ^ 23 + 8 + 6 * 2 ^ 24)) 77 0 0
      ∃ desc v qs, ReadsSS s s0 s1 desc v qs ∧ desc.toNat < 2 ^ 27 ∧ fld desc 26 24 ≠ 7 ∧ fld desc 22 0 % 8 = 0 ∧
        succeeds (s.issuing.atomicGuard [(2, 8, 8)]) = true ∧ s.issuing.slotTaken 8 2 4 = false ∧ Passes (.atom false (.s 2) s0 s1) s) ∧
    (let s := ready 3 0 0 rising 77
      ∃ l v qs, ReadsVV s v0 v1 l v qs ∧ Passes (.vatom false (.v 3) v0 v1) s ∧ succeeds (do
        let ls ← s.issuing.lanes l 64
        let as ← s.issuing.checkLanes ls 4 4 (· != 7)
        let _ ← s.issuing.need ((laneAddrs as).all fun x => !s.issuing.slotTaken x 3 5) .atomicSlot
        s.issuing.atomicGuard ((laneAddrs as).map fun x => (3, x, 4))) = true) ∧
    let s := ready (8 * 256) (BitVec.ofNat 2048 (8 * 2 ^ 32 + 2 ^ 24 + 1024)) 0 0 0
    ∃ l ctl qs, ReadsVS s v0 s0 l ctl qs ∧ within ctl (ones 40 32 + ones 29 24 + ones 22 0) = true ∧ fld ctl 40 32 = 8 ∧
      Passes (.rgath false (.v 3) v0 s0) s ∧ succeeds (do
        let n := 8 * widthOf 8 / 8
        let rb := aBytes 8 0
        let ls ← s.issuing.lanes l 2
        let as ← s.issuing.checkLanes ls 4 n (· == 0)
        let _ ← s.issuing.need ((laneAddrs as).all fun x => !meets x n 1024 (rb * 2)) .range
        s.issuing.moveGuard ((as.zip (upto 2)).filterMap fun (x, i) => x.map fun y => (3 + i, y.1, n))
          ((upto 2).map fun i => (4 + i, 1024 + rb * i, rb))) = true :=
  ⟨readSS_meets (by decide +kernel), readVV_meets (by decide +kernel), readVS_meets (by decide +kernel)⟩

theorem witness_BufferWordResults :
    (let s := ready 3 64 (BitVec.ofNat 2048 131071) 0 0
      ∃ base size qs, ReadsSS s s0 s1 base size qs ∧ (s.issuing.a.buf 31).state = 0 ∧ base.toNat % 64 = 0 ∧ size.toNat ≤ 131072 ∧
        base.toNat + 64 * size.toNat = spadSize ∧ s.issuing.a.bufs = [] ∧ Passes (.bdecl false 31 s0 s1) s) ∧
    let s := ready 3 0 0 0 0;
    (s.issuing.a.buf 31).state = 0 ∧ (∀ st ∈ [1, 2], does s.issuing (.bufSet 31 64 2 st) = true) ∧
      ∀ i ∈ ([.bset false 31 1, .bset false 31 2, .bset false 31 5, .bstat false (.s 2) 31] : List Instr), Passes i s :=
  ⟨readSS_meets (by decide +kernel), by decide +kernel⟩

theorem witness_BranchResults : let s := ready 3 0 8 0 0;
    (∃ v qs, ReadsS s s0 v qs ∧ v = 0 ∧ s.issuing.a.taken = none ∧ s.issuing.target 4 % 64 ≠ 0 ∧ s.issuing.target 4 % 4 = 0 ∧
      s.issuing.cx.after2 = .inl 16 ∧ ∀ i ∈ ([.br false 4, .brz false s0 4, .brnz false s0 4, .call false 4] : List Instr), Passes i s) ∧
    (∃ v qs, ReadsS s s1 v qs ∧ v.toNat % 64 ≠ 0 ∧ v.toNat % 4 = 0 ∧ v.toNat < 2 ^ 48 ∧ Passes (.ret false s1) s) ∧
    let s := state { core 3 [] with cx := { (core 3 []).cx with after2 := .inr (0, 1) } }
    s.issuing.cx.after2 = .inr (0, 1) ∧ s.issuing.a.taken = none ∧ Passes (.call false 4) s :=
  ⟨readS_meets (by decide +kernel), readS_meets (by decide +kernel), by decide +kernel⟩

theorem witness_LoopResults : let s := ready 3 0 3 0 0
    ∀ k ∈ [s0, s1], ∃ v qs, ReadsS s k v qs ∧ v.toNat < 2 ^ 32 ∧ s.issuing.a.taken = none ∧ s.issuing.target 2 % 64 ≠ 0 ∧
      s.issuing.target 2 % 4 = 0 ∧ s.issuing.a.loops = [] ∧ s.issuing.cx.word < s.issuing.target 2 ∧
      Passes (.loop false k 2) s ∧ Passes (.loopf false k 2) s := by
  intro s k hk
  simp only [List.mem_cons, List.not_mem_nil, or_false] at hk
  rcases hk with rfl | rfl <;> exact readS_meets (by decide +kernel)

/-- The core with group 9 in its slot 0. -/
def grouped (c : Core) : Core := { c with gslot := [(0, 0x10109)] }

theorem witness_IdleReleaseResults :
    (let s := ready 3 1 2 0 0;
      Passes (.nop false 0xFFFF) s ∧ s.issuing.now + 1 + s.issuing.immU 16 0xFFFF < 2 ^ 48 ∧ Passes (.halt false 7) s ∧
      (∃ t qs, ReadsS s s0 t qs ∧ t.toNat ≤ s.issuing.now ∧ Passes (.waitlt false s0) s) ∧
      ∃ t qs, ReadsS s s1 t qs ∧ t.toNat = s.issuing.now + 1 ∧ Passes (.waitlt false s1) s) ∧
    let s := state (grouped (core 3 []));
    s.issuing.targetLt (s.issuing.now + 1) = .ok 2 ∧ s.issuing.slotOfGroup 9 = some 0 ∧ SMap.get none s.issuing.a.rdv 0 = none ∧
      Passes (.rdv false 9) s ∧ Passes (.step false 5) s :=
  ⟨⟨by decide +kernel, by decide +kernel, by decide +kernel, readS_meets (by decide +kernel), readS_meets (by decide +kernel)⟩,
    by rfl, by decide +kernel⟩

/-- A format entry of the matrix unit: FP8 rows of A, 4-bit cells of B, no sparsity, outputs in code 9. -/
def matrixFmt : Nat := 0x9004800

/-- The core at a bundle that enters a segment. -/
def atEntry (c : Core) : Core := { c with cx := { c.cx with entry := true } }

/-- The core with accumulator row 7 poisoned. -/
def poisoned (c : Core) : Core := { c with mx := { c.mx with acc := [(7, { bits := 0, k := { elem := true, scale := false } })] } }

/-- The core with window 0 an HBM window of 1 MiB that it may read, write and update atomically. -/
def windowed (c : Core) : Core := { c with win0 := [(0, BitVec.ofNat 64 (1 <<< 62 + 7 <<< 58 + 2 ^ 20))] }

/-- Cores 0 and 1 of one kernel, core 0 the current one. -/
def paired (c : Core) : State :=
  { state c with
    cores := [(0, c), (1, { c with lcore := 1 })]
    kernels := [{ placedKernel 0 with n := 2, place := [0, 1], dies := [0, 0] }] }

theorem witness_MatrixLoadResults :
    (let s := ready matrixFmt (BitVec.ofNat 2048 (2 ^ 32 + 126 * 2 ^ 24 + 64)) (BitVec.ofNat 2048 (2 + 127 * 256)) 5 0;
      (∃ ctl qs, ReadsS s s0 ctl qs ∧ within ctl (ones 38 32 + ones 30 24 + ones 22 0) = true ∧
        fld ctl 30 24 + (fld ctl 38 32 + 1) = 128 ∧ s.issuing.a.arrayFree ≤ s.issuing.now ∧
        succeeds (s.issuing.readGuard ((upto 16).map fun o => (2 + o, 64 + 256 * o, 256))) = true ∧ Passes (.mxLdb false s0) s) ∧
      (∃ v ctl qs, ReadsVS s v0 s0 v ctl qs ∧ Passes (.mxArow false v0 s0) s) ∧
      ∃ v ctl qs, ReadsSV s ⟨.zero, false⟩ v0 v ctl qs ∧ Passes (.mxLds false ⟨.zero, false⟩ v0) s) ∧
    (let s := ready matrixFmt 0x100 1 5 0;
      (∃ ctl v qs, ReadsSV s s0 v0 ctl v qs ∧ within ctl (ones 17 8 + 1) = true ∧ fld ctl 17 8 < 128 ∧ Passes (.mxLds false s0 v0) s) ∧
      ∃ v ctl qs, ReadsVS s v1 s1 v ctl qs ∧ v.anyKind.poisoned = false ∧ ctl.toNat < 4 ∧
        (∀ k < 64, v.elem 32 k < spadSize ∧ v.elem 32 k % 64 = 0) ∧ Passes (.mxArow false v1 s1) s) ∧
    let s := state (core (matrixFmt + 2 ^ 18) [(0, [val 2047]), (Port.num .mxB, [val 9])])
    ∃ ctl qs, ReadsS s s0 ctl qs ∧ SMap.get [] qs (Port.num .mxB) = [val 9] ∧ ctl.toNat < 2 ^ 11 ∧
      s.issuing.a.arrayFree ≤ s.issuing.now ∧ Passes (.mxLdbs false s0) s :=
  ⟨⟨readS_meets (by decide +kernel), readVS_meets (by decide +kernel), readSV_meets (by decide +kernel)⟩,
    ⟨readSV_meets (by decide +kernel), readVS_meets (by decide +kernel)⟩, readS_meets (by decide +kernel)⟩

theorem witness_MatrixRunResults :
    (let s := ready matrixFmt (BitVec.ofNat 2048 (2 ^ 40 + 2 ^ 24 * 4 + 64)) 16256 0 0
      ∃ x y qs, ReadsSS s s0 s1 x y qs ∧
        let d := PassDesc.ofWords x y
        let rb := aBytes (fAtype matrixFmt) 0
        d.ok x y 2 (rowsPerOut matrixFmt) rb = true ∧ s.issuing.a.arrayFree ≤ s.issuing.now ∧ d.src = false ∧
        succeeds (s.issuing.shadowRows false (rangeFrom d.acc 128)) = true ∧
        succeeds (s.issuing.readGuard ((upto 2).map fun i => (2 + i * 8, d.row (s.issuing.listAt (2 + i * 8)) i, rb))) = true ∧
        Passes (.mxRun false s0 s1) s) ∧
    let s := state (core matrixFmt [(0, [val (2 ^ 48)]), (1, [val 0]), (Port.num .mxA, [val 9, val 8])])
    ∃ x y qs, ReadsSS s s0 s1 x y qs ∧
      let d := PassDesc.ofWords x y
      d.ok x y 1 (rowsPerOut matrixFmt) (aBytes (fAtype matrixFmt) 0) = true ∧ d.src = true ∧
      succeeds ((s.adding qs [] s.issuing.now).popRows (aBytes (fAtype matrixFmt) 0) 1) = true ∧
      succeeds (s.issuing.shadowRows false (rangeFrom 0 64)) = true ∧ Passes (.mxRun false s0 s1) s :=
  ⟨readSS_meets (by decide +kernel), readSS_meets (by decide +kernel)⟩

/-- A pass without OVW to row 3. -/
def pass : Pass := { fmt := BitVec.ofNat 32 matrixFmt, ovw := false, acc := 3, asr := 0 }

/-- A row that ends where the scratchpad does, one past it, and one whose first word is still to be written. -/
theorem witness_MatrixRunResults_rows : let c := core matrixFmt [];
    let rb := aBytes (fAtype pass.fmt.toNat) (fSparse pass.fmt.toNat);
    (item 9 true (.passRow pass 1 (.addr 64) 40)).act = .passRow pass 1 (.addr 64) 40 ∧
    spadSize - rb + rb ≤ spadSize ∧ c.pendingWord 4 1 9 (spadSize - rb) rb = none ∧ spadSize < spadSize - rb + 64 + rb ∧
      64 + rb ≤ spadSize ∧ (pending c).pendingWord 4 1 9 64 rb = some 64 := by decide +kernel

theorem witness_MatrixPairResults : ∀ x0 ∈ ([2 ^ 26, 2 ^ 49] : List Nat),
    let s := paired (atEntry (core matrixFmt (heads (BitVec.ofNat 2048 x0) 0 0 0)))
    ∃ x y qs, ReadsSS s s0 s1 x y qs ∧
      let d := PassDesc.ofWords x y
      (s.issuing.targetLt (1 + 1 + 16)).toOption = some 18 ∧ d.ok x y 2 (rowsPerOut matrixFmt) (aBytes (fAtype matrixFmt) 0) = true ∧
      (s.issuing.lcore ^^^ 1) < s.coreCount s.issuing ∧ s.issuing.cx.entry = true ∧ d.src = false ∧ d.nr + 1 ≤ 128 ∧
      (d.nr + 1) * aBytes (fAtype matrixFmt) 0 ≤ 32768 ∧
      succeeds (s.issuing.readGuard [(2, d.row (s.issuing.listAt 2) 0, aBytes (fAtype matrixFmt) 0)]) = true ∧
      s.issuing.a.arrayFree ≤ 1 ∧ succeeds (s.issuing.shadowRows false (rangeFrom 0 128)) = true ∧ Passes (.mxPair false s0 s1) s := by
  intro x0 hx
  simp only [List.mem_cons, List.not_mem_nil, or_false] at hx
  rcases hx with rfl | rfl <;> exact readSS_meets (by decide +kernel)

theorem witness_AccumulatorWordResults :
    (let s := ready matrixFmt 16383 16383 5 0;
      (∃ ctl qs, ReadsS s s0 ctl qs ∧ within ctl (ones 29 16 + ones 13 0) = true ∧ fld ctl 13 0 + (fld ctl 29 16 + 1) = 16384 ∧
        succeeds (s.issuing.shadowRows true (rangeFrom 16383 1)) = true ∧ Passes (.mxClr false s0) s ∧ Passes (.mxSig false (.s 2) s0) s) ∧
      (∃ v r qs, ReadsVS s v0 s1 v r qs ∧ r.toNat < 16384 ∧ succeeds (s.issuing.shadowRows true [r.toNat]) = true ∧
        Passes (.mxWr false v0 s1) s) ∧
      (∃ r qs, ReadsS s s1 r qs ∧ r.toNat < 16384 ∧ (SMap.get AccRow.zero s.issuing.mx.acc r.toNat).k.poisoned = false ∧
        Passes (.mxRd false (.v 3) s1) s) ∧
      Passes (.mxMode false .zero true false) s) ∧
    (let s := state (poisoned (core matrixFmt (heads 0 7 0 0)))
      ∃ r qs, ReadsS s s1 r qs ∧ r.toNat < 16384 ∧ (SMap.get AccRow.zero s.issuing.mx.acc r.toNat).k.poisoned = true ∧
        Passes (.mxRd false (.v 3) s1) s) ∧
    (let s := ready matrixFmt 256 0 0 0
      ∃ dest rows qs, ReadsSS s s0 s1 dest rows qs ∧ epiOperandsOk dest rows 256 = true ∧ fld dest 63 63 = 0 ∧
        (SMap.get AccRow.zero s.issuing.mx.acc 0).k.poisoned = false ∧ succeeds (s.issuing.writeGuard [(3, 256, 256)]) = true ∧
        Passes (.mxEpi false s0 s1) s) ∧
    let s := state (windowed (core matrixFmt (heads (BitVec.ofNat 2048 (2 ^ 63 + 256)) 0 0 0)))
    ∃ dest rows qs, ReadsSS s s0 s1 dest rows qs ∧ epiOperandsOk dest rows 256 = true ∧ fld dest 63 63 = 1 ∧
      Passes (.mxEpi false s0 s1) s ∧ succeeds (do
        let w ← s.issuing.windowCheck (dest &&& BitVec.ofNat 64 (2 ^ 48 - 1)) 256 (fun w => w.wr)
        (s.adding qs [] 1).issueCopy .m 0 (.epi 256) (some 256)
          ((upto 4).map fun j => s.issuing.newBeat (w + 64 * j) 0 (some { bits := 0, bad := false })) none) = true :=
  ⟨⟨readS_meets (by decide +kernel), readVS_meets (by decide +kernel), readS_meets (by decide +kernel), by decide +kernel⟩,
    readS_meets (by decide +kernel), readSS_meets (by decide +kernel), readSS_meets (by decide +kernel)⟩

/-- Rows cleared up to the last one, a row written, and an update with a residue that disagrees, with OVW and without. -/
theorem witness_AccumulatorWordResults_rows : let c := core matrixFmt [];
    let d : Core := { c with mx := { c.mx with residue := true } };
    does c (.accClear 16382 2) = true ∧ does c (.accWrite 16383 (val 5)) = true ∧ (∀ ovw ∈ [true, false],
      does c (.accUpdate 3 ovw true [val 5, val 6]) = true ∧ does d (.accUpdate 3 ovw true [val 5, val 6]) = true) ∧
      ([val 5, val 6])[1]? = some (val 6) := by decide +kernel

theorem witness_CopyWordResults :
    (let s := state (windowed (core 3 (heads 64 (BitVec.ofNat 2048 (2 ^ 24 + spadSize - 128)) 0 0)))
      ∃ wa d qs, ReadsSS s s0 s1 wa d qs ∧ within d (ones 35 24 + ones 22 0) = true ∧ fld d 22 0 % 64 = 0 ∧
        fld d 22 0 + 64 * (fld d 35 24 + 1) = spadSize ∧ Passes (.cpGet false 7 s0 s1) s ∧ Passes (.cpPut false 0 s0 s1) s ∧
        Passes (.cpScrub false 1 s0 s1) s ∧ succeeds (do
          let w ← s.issuing.windowCheck wa 128 (fun w => w.rd)
          let _ ← s.issuing.bufferCheck true [(fld d 22 0, 128)]
          (s.adding qs [] 1).issueGet 7 .get (s.issuing.newBeats w (fld d 22 0) 2)) = true ∧ succeeds (do
          let w ← s.issuing.windowCheck wa 128 (fun w => w.wr)
          (s.adding qs [] 1).issuePut 0 .put w (fld d 22 0) 2) = true ∧ succeeds (do
          let w ← s.issuing.windowCheck wa 128 (fun w => w.rd && w.wr && w.kind == 1)
          let _ ← s.issuing.bufferCheck true [(fld d 22 0, 128)]
          (s.adding qs [] 1).issueCopy s.issuing.cPipe 1 .scrub none (s.issuing.newBeats w 0 2 ++ (upto 2).map fun j =>
            { w := none, sp := fld d 22 0 + 64 * j, data := some { bits := 0, bad := false }, pa := none, state := .waiting }) none) = true) ∧
    (let s := state (windowed (core 3 (heads 64 (BitVec.ofNat 2048 (5 * 2 ^ 40 + 3 * 2 ^ 36 + 128)) 0 0)))
      ∃ wa d qs, ReadsSS s s0 s1 wa d qs ∧ within d (ones 42 36 + ones 35 24 + ones 22 0) = true ∧ fld d 42 40 = 5 ∧ fld d 39 36 = 3 ∧
        Passes (.cpAmo false 2 s0 s1) s ∧ succeeds (do
          let w ← s.issuing.windowCheck wa 64 (fun w => w.amo && w.kind != 2)
          (s.adding qs [] 1).issuePut 2 (.amo 5 3) w 128 1) = true) ∧
    (let s := state (windowed (core 3 (heads 64 (BitVec.ofNat 2048 (7 * 2 ^ 32 + 3)) 0 0)))
      ∃ wa d qs, ReadsSS s s0 s1 wa d qs ∧ within d (ones 63 32 + ones 15 0) = true ∧ Passes (.cpFill false 3 s0 s1) s ∧ succeeds (do
        let w ← s.issuing.windowCheck wa 256 (fun w => w.wr)
        (s.adding qs [] 1).issueCopy s.issuing.cPipe 3 (.fill 7) (some 64) ((upto 4).map fun j =>
          s.issuing.newBeat (w + 64 * j) 0 (some (BeatData.ofWords (List.replicate 16 { w := 7, k := .clean })))) none) = true) ∧
    (let s := state (windowed (core 3 (heads (BitVec.ofNat 2048 (2 ^ 24 + 256)) 0 (BitVec.ofNat 2048 (2 ^ 127 + 64)) 0)))
      ∃ v ctl qs, ReadsVS s v0 s0 v ctl qs ∧ within ctl (ones 35 30 + ones 28 24 + ones 22 0) = true ∧
        (∀ k < 4, (v.kind k).poisoned = false) ∧ Passes (.cpGath false 4 v0 s0) s ∧ succeeds (do
          let beats ← s.issuing.gatherBeats v 1 256 2 0
          let _ ← s.issuing.bufferCheck true [(256, 128)]
          (s.adding qs [] 1).issueGet 4 .gath beats) = true) ∧
    ∀ k ∈ (core 3 []).copies, k.id < (core 3 []).nextId :=
  ⟨readSS_meets (by decide +kernel), readSS_meets (by decide +kernel), readSS_meets (by decide +kernel),
    readVS_meets (by decide +kernel), by decide +kernel⟩

/-- The core with a copy on q3 in the state given. -/
def copying (st : CopyState) (c : Core) : Core :=
  { c with copies := [{ c.newCopy .c0 (some 3) .get with state := st }], nextId := 1 }

/-- The core with four fences on q3 behind its first copy. -/
def fenced (c : Core) : Core := { c with a := { c.a with fences := List.replicate 4 { mask := 8, pos := 1 } } }

theorem witness_CopyQueueWordResults :
    (let s := ready 3 0 (BitVec.ofNat 2048 (2 ^ 63)) 0 0
      ∃ ctl qs, ReadsS s s1 ctl qs ∧ within ctl (ones 63 63 + ones 22 4) = true ∧ s.issuing.stuckIn 8 = false ∧
        Passes (.cpBind false 3 s1) s ∧ Passes (.cpFence false 0) s ∧ Passes (.cpWait false 8) s ∧ Passes (.cpWp false (.s 2) 7) s ∧
        Passes (.cpInv false true 0) s ∧ Passes (.cpInv false false 63) s) ∧
    (let s := state (copying .complete (core 3 []));
      s.issuing.stuckIn 8 = false ∧ (s.issuing.copies.filter fun k => inMask 8 k.q).all Copy.waited = true ∧ Passes (.cpWait false 8) s) ∧
    (let s := state (copying (.failed .page 64) (core 3 []));
      s.issuing.stuckIn 8 = false ∧ (s.issuing.copies.filter fun k => inMask 8 k.q).all Copy.waited = true) ∧
    (let s := state (copying .started (core 3 []));
      s.issuing.stuckIn 8 = false ∧ (s.issuing.copies.filter fun k => inMask 8 k.q).all Copy.waited = false) ∧
    let s := state (fenced (copying .started (core 3 [])))
    let live := s.issuing.a.fences.filter s.issuing.fenceOpen;
    (∀ into ∈ [none, some 64], does s.issuing (.bind 3 into) = true) ∧ s.issuing.stuckIn 8 = false ∧ 4 ≤ (live.filter fun f => f.mask.getLsbD 3).length ∧ Passes (.cpFence false 8) s :=
  ⟨readS_meets (by decide +kernel), by decide +kernel, by decide +kernel, by decide +kernel, by decide +kernel⟩

/-- The core with a barrier at 64 in its table: its object with the two words given. -/
def barred (w0 : W64) (c : Core) : Core :=
  { c with spad := writeBytes [] 64 (toBytes 8 w0.toNat), a := { c.a with bars := [64] } }

theorem witness_BarrierWordResults :
    (let s := ready 3 (BitVec.ofNat 2048 (spadSize - 16)) 4095 0 0
      ∃ x y qs, ReadsSS s s0 s1 x y qs ∧ x.toNat % 16 = 0 ∧ x.toNat + 16 = spadSize ∧ y = 4095 ∧ s.issuing.a.bars = [] ∧
        succeeds (s.issuing.bufferCheck true [(x.toNat, 16)]) = true ∧ succeeds (s.issuing.sliceClear [(2, x.toNat, 16)]) = true ∧
        succeeds (s.issuing.slotCheck [(2, x.toNat, 16)]) = true ∧ s.issuing.journal.length < 16 ∧ Passes (.barInit false .zero s0 s1) s) ∧
    (let s := state (barred (BarObj.init 1).w0 (core 3 (heads 64 1 0 0)))
      ∃ x y qs, ReadsSS s s0 s1 x y qs ∧ within x (ones 41 32 + ones 22 4) = true ∧ y = 1 ∧ x.getLsbD 41 = false ∧
        16 * fld x 22 4 ∈ s.issuing.a.bars ∧ succeeds (s.issuing.sliceClear [(2, 64, 16)]) = true ∧
        succeeds (s.issuing.slotCheck [(2, 64, 16)]) = true ∧
        Passes (.barArv false s0 s1) s ∧ Passes (.barWait false s0 s1) s ∧ (s.issuing.bar 64).phase ≠ y.getLsbD 0) ∧
    (let s := paired (core 3 (heads (BitVec.ofNat 2048 (2 ^ 41 + 2 ^ 32 + 64)) 4095 0 0))
      ∃ x y qs, ReadsSS s s0 s1 x y qs ∧ within x (ones 41 32 + ones 22 4) = true ∧ x.getLsbD 41 = true ∧
        fld x 40 32 < s.coreCount s.issuing ∧ succeeds ((s.adding qs [] 1).hold .s (.remoteArv 1 64 4095) 64) = true ∧
        Passes (.barArv false s0 s1) s) ∧
    (let s := state (barred (BarObj.init 1).w0 (core 3 (heads 64 0 0 0)))
      ∃ x y qs, ReadsSS s s0 s1 x y qs ∧ y = 0 ∧ (s.issuing.bar 64).phase = y.getLsbD 0 ∧ (s.issuing.bar 64).state ≠ 2 ∧
        Passes (.barWait false s0 s1) s) ∧
    let s := state (barred (BarObj.fault 1 0 0 (BarObj.init 1)).w0 (core 3 (heads 64 0 0 0)))
    ∃ x y qs, ReadsSS s s0 s1 x y qs ∧ (s.issuing.bar 64).phase = y.getLsbD 0 ∧ (s.issuing.bar 64).state = 2 ∧
      Passes (.barWait false s0 s1) s :=
  ⟨readSS_meets (by decide +kernel), readSS_meets (by decide +kernel), readSS_meets (by decide +kernel),
    readSS_meets (by decide +kernel), readSS_meets (by decide +kernel)⟩

/-- A table taken up or left, and arrivals: outside the table, one that is due, one that completes the phase, one too many, and one on a
barrier that has faulted. -/
theorem witness_BarrierWordResults_items : let c := barred (BarObj.init 2).w0 (core 3 []);
    (∀ n ∈ [0, 4095], does (core 3 []) (.barInit (spadSize - 16) n) = true) ∧ 80 ∉ c.a.bars ∧ does c (.barArrive 80 1) = true ∧ 64 ∈ c.a.bars ∧
      (∀ n ∈ [1, 2, 3], does c (.barArrive 64 n) = true) ∧ (c.bar 64).state = 1 ∧ (c.bar 64).left = 2 ∧ (c.bar 64).pend = 0 ∧
      let d := barred (BarObj.fault 1 0 0 (BarObj.init 1)).w0 (core 3 []);
      64 ∈ d.a.bars ∧ (d.bar 64).state ≠ 1 ∧ does d (.barArrive 64 1) = true := by decide +kernel

/-- The core with `pfx.ts` of 9. -/
def timed (c : Core) : Core := { c with cx := { c.cx with ts := some 9 } }

/-- The core with a send of core 1 landed for an LT. -/
def arrived (land : Nat) (c : Core) : Core := { c with landing := [{ land := land, kind := .send 1 false (val 5) }] }

theorem witness_SendReceiveResults :
    (let s := paired (core 3 (heads 5 1 0 0))
      ∃ wide v c1 y c2, s.issuing.readAny s0 = .ok ((wide, v), c1) ∧ c1.readS s1 = .ok (y, c2) ∧
        (v.anyKind.poisoned = false ∧ y.toNat < s.coreCount s.issuing ∧ (s.issuing.targetLt (1 + 32)).toOption = some 33 ∧
        SMap.get 0 s.issuing.a.sendLt y.toNat ≤ 33 ∧
        succeeds (Core.hold { c2 with a := { c2.a with sendLt := SMap.set 0 s.issuing.a.sendLt 1 34 } } s.issuing.cPipe (.snd 1 33 false v) 64) = true ∧
        Passes (.snd false s0 s1) s)) ∧
    (let s := paired (arrived 1 (core 3 (heads 5 1 0 0)))
      ∃ k qs, ReadsS s s1 k qs ∧ k.toNat < s.coreCount s.issuing ∧ (s.issuing.targetLt 1).toOption = some s.issuing.now ∧
        (match (s.adding qs [] 1).takeArrival 1 1 (.s 2) 4 with | .ok (some _) => true | _ => false) = true ∧
        Passes (.rcv false (.s 2) s1) s) ∧
    (let s := paired (core 3 (heads 5 1 0 0))
      ∃ k qs, ReadsS s s1 k qs ∧ k.toNat < s.coreCount s.issuing ∧ (s.issuing.targetLt 1).toOption = some s.issuing.now ∧
        (match (s.adding qs [] 1).takeArrival 1 1 (.s 2) 4 with | .ok none => true | _ => false) = true ∧
        Passes (.rcv false (.s 2) s1) s) ∧
    let s := paired (timed (core 3 (heads 5 1 0 0)))
    ∃ k qs, ReadsS s s1 k qs ∧ k.toNat < s.coreCount s.issuing ∧ (s.issuing.targetLt 1).toOption = some 10 ∧
      Passes (.rcv false (.s 2) s1) s :=
  ⟨readAny_meets (by decide +kernel), readS_meets (by decide +kernel), readS_meets (by decide +kernel), readS_meets (by decide +kernel)⟩

/-- The core with an `amp.init` that zeroes an HBM slice in flight to LT 9, and a fence behind it. -/
def zeroing (c : Core) : Core :=
  let c := flying [item 9 true (.ampEnd 0 4096 0)] { c with ampLog := [{
    id := 0, seq := 0, live := true, issue := 1, done_ := 9, word := 4, op := .init true, trans := [], tdone := 0, sent := 0, got := 0, work := none,
    bad := [], finished := false, ended := false, result := 0, flags := 0, fault := none }] }
  { c with a := { c.a with points := [{ kind := .fence, scope := 0, pos := 0, amp := some 9 }] } }

theorem witness_OrderingWordResults_amplitude : let c := copying .held (zeroing (core 3 []));
    c.ampLog.any (fun e => e.id == 0 && !e.reads && e.writes) = true ∧ c.a.inflight.map Item.act = [.ampEnd 0 4096 0] ∧
      c.a.inflight.map Item.lt = [9] ∧ c.a.points.map OrderPoint.amp = [some 9] ∧ c.copies.any (fun k => k.isRead && k.id == 0) = true := by
  decide +kernel

theorem witness_OrderingWordResults : let s := state (grouped (core 3 []));
    (s.issuing.slotOfGroup 9).isSome = true ∧
      ∀ i ∈ ([.fence false 9 1, .acq false 9 1, .rel false 9 1, .fence false 0 0, .acq false 0 2, .rel false 0 3, .ltrd false (.s 2) 0,
        .ltrd false (.s 2) 2] : List Instr), Passes i s := by decide +kernel

/-- A live plan of context 0 and group 9, bound to queue 3. -/
def plan : Plan :=
  { ctx := 0, group := 9, gen := 1, queue := 3, ops := [], succ := [], packages := [0], ranks := [(0, 1), (5, 1)], switches := [], chunks := [], extents := [64], state := .idle,
    awaiting := [], live := true, accepted := 0, completed := 0, stale := 0, fallbacks := 0, bases := [], firing := none, contexts := [],
    past := none, news := [], since := 0, setup := some (3, 0) }

/-- The state with that plan at handle 0 and group 9 of one member. -/
def planned (s : State) : State :=
  { s with plans := [(0, some plan)], groups := [(9, { Group.reset with assigned := true, gen := 1, members := 1 })] }

theorem witness_FabricWordResults :
    (let s := planned (state (windowed (grouped (core 3 (heads 64 0 0 0)))))
      ∃ wa ctl qs, ReadsSS s s0 s1 wa ctl qs ∧ ctl.toNat < 2 ^ 23 ∧ Passes (.clBase false s0 s1) s ∧ Passes (.clStat false (.s 2) s1 1) s ∧
        (s.plan 0).any (·.liveFor (s.ctxOf s.issuing)) = true ∧ succeeds (do
        let w ← s.issuing.windowCheck wa 64 (fun w => w.kind == 1 && w.rd && w.wr)
        (s.adding qs [] 1).issueCopy s.issuing.cPipe 0 (.clBase 0 0 0 (BitVec.ofNat 64 w)) (some 64) [fabricBeat] none) = true) ∧
    (let s := planned (state (core 3 (heads 1 2 0 0)))
      ∃ w qs, ReadsS s s0 w qs ∧ Passes (.clFire false s0) s ∧ Passes (.clStat false (.s 2) s0 4) s ∧ Passes (.clStat false (.s 2) s0 0) s ∧
        s.plan w.toNat = none ∧ succeeds ((s.adding qs [] 1).issueCopy s.issuing.cPipe 0 (.clFire w) (some 64) [fabricBeat] none) = true) ∧
    let s := planned (state (grouped (core 3 (heads 5 9 0 0))))
    ∃ wide v c1 desc c2, s.issuing.readAny s0 = .ok ((wide, v), c1) ∧ c1.readS s1 = .ok (desc, c2) ∧
      (v.anyKind.poisoned = false ∧ desc.toNat < 2 ^ 63 ∧ s.issuing.slotOfGroup (fld desc 7 0) = some 0 ∧
      fld desc 25 8 < s.groupSize (s.group (fld desc 7 0)) ∧ Passes (.pkSnd false s0 s1) s ∧
      succeeds (c2.issueCopy s.issuing.cPipe 0 (.pkSnd desc (s.issuing.slotGen 0) false v) (some 64) [fabricBeat] none) = true) :=
  ⟨readSS_meets (by decide +kernel), readS_meets (by decide +kernel), readAny_meets (by decide +kernel)⟩

/-- The core with an amplitude state of four qubits, three of them here. -/
def simulating (n : Nat) (c : Core) : Core :=
  { c with a := { c.a with sys := { c.a.sys with amp0 := BitVec.ofNat 64 (2 ^ 23 + 2 ^ 22 * (4 - n) + 3 * 2 ^ 8 + n), amp1 := 256 } } }

/-- The first 64 bytes of the identity map. -/
def identityMap : BitVec 2048 := BitVec.ofNat 2048 (ofDigits 8 (upto 64))

theorem witness_AmplitudeWordResults :
    (let s := ready 3 256 (BitVec.ofNat 2048 (2 ^ 22 + 3 * 2 ^ 8 + 3)) 0 0
      ∃ base cfg qs, ReadsSS s s0 s1 base cfg qs ∧ Passes (.ampInit false s0 s1) s ∧ Passes (.ampCtl false (.s 2) true) s ∧
        let f := { AmpDesc.ofWords cfg base with valid := true }
        within cfg (ones 5 0 + ones 13 8 + ones 17 16 + ones 19 18 + ones 22 22 + ones 24 24) = true ∧ f.limitsOk = true ∧ f.hbm = false ∧
          f.base % 256 = 0 ∧ f.base + f.bytes ≤ spadSize ∧ f.solo = true ∧
          succeeds ((s.adding qs [] 1).startAmp f (.init false) [] none (f.latency 0 (.init false) [])) = true) ∧
    (∀ y ∈ ([0, 1] : List (BitVec 2048)), let s := state (simulating 3 (core 3 (heads 0 y identityMap 0)))
      ∃ v ctl qs, ReadsVS s v0 s1 v ctl qs ∧ Passes (.ampMap false v0 s1) s ∧
        let e := s.issuing.a.sys.amp
        e.valid = true ∧ v.anyKind.poisoned = false ∧ mapOk v e.n = true ∧ (ctl = 0 ∨ ctl = 1) ∧
          succeeds ((s.adding qs [] 1).startAmp e (.map []) [] none 1) = true) ∧
    (∀ x ∈ ([2 * 256, 2 ^ 16 + 2 * 256, 2 ^ 16] : List (BitVec 2048)), let s := state (simulating 3 (core 3 (heads x 0 0 0)))
      ∃ ctl qs, ReadsS s s0 ctl qs ∧ Passes (.ampSwap false s0) s ∧
        within ctl (ones 5 0 + ones 13 8 + ones 16 16) = true ∧ fld ctl 13 8 < s.issuing.a.sys.amp.n ∧
          succeeds ((s.adding qs [] 1).startAmp s.issuing.a.sys.amp (.swap 0 (fld ctl 13 8)) [] none 1) = true) ∧
    (let s := state (simulating 3 (core 3 [(0, [val (2 ^ 24)]), (1, [val 4]), (Port.num .ampU, [val 0, val 0])]))
      ∃ ctl cm qs, ReadsSS s s0 s1 ctl cm qs ∧ Passes (.ampGate false s0 s1) s ∧ Passes (.ampDiag false s0 s1) s ∧
        let e := s.issuing.a.sys.amp
        gateTargets e ctl cm = some [0] ∧ ([0].any fun t => e.no ≤ s.issuing.a.sys.qpos t) = false ∧
          remap e.no e.n (fun q => [0].contains q || cm.getLsbD q) [0] s.issuing.a.sys = some [] ∧ succeeds (do
            let (u, c1) ← (s.adding qs [] 1).popMatrix (ceilDiv (4 ^ 1 * e.es * 8) 2048) (4 ^ 1 * e.es / 4)
            c1.startAmp e (.gate [0] cm u) [] none (e.latency 0 (.gate [0] cm u) [])) = true ∧ succeeds (do
            let (u, c1) ← (s.adding qs [] 1).popMatrix (ceilDiv (2 ^ 1 * e.es * 8) 2048) (2 ^ 1 * e.es / 4)
            c1.startAmp e (.diag [0] cm u) [] none (e.latency 0 (.diag [0] cm u) [])) = true) ∧
    (let s := state (simulating 3 (core 3 (heads 0 1 0 0)))
      ∃ ctl qs, ReadsS s s0 ctl qs ∧ ctl = 0 ∧ Passes (.ampNorm false (.s 2) s0 s1) s ∧ Passes (.ampProb false (.s 2) s0) s ∧
        let e := s.issuing.a.sys.amp
        succeeds ((s.adding qs [] 1).startAmp e (.norm none (.s 2)) [] (some (.s 2)) (e.latency 0 (.norm none (.s 2)) [])) = true ∧
        succeeds ((s.adding qs [] 1).startAmp e (.prob 0 none (.s 2)) [] (some (.s 2)) (e.latency 0 (.prob 0 none (.s 2)) [])) = true) ∧
    let s := state (simulating 3 (core 3 (heads 1 1 0 0)))
    ∃ ctl f qs, ReadsSS s s0 s1 ctl f qs ∧ ctl = 1 ∧ Passes (.ampNorm false (.s 2) s0 s1) s ∧
      let e := s.issuing.a.sys.amp
      succeeds ((s.adding qs [] 1).startAmp e (.norm (some f) (.s 2)) [] (some (.s 2)) (e.latency 0 (.norm (some f) (.s 2)) [])) = true := by
  refine ⟨readSS_meets (by decide +kernel), ?_, ?_, readSS_meets (by decide +kernel), readS_meets (by decide +kernel),
    readSS_meets (by decide +kernel)⟩
  · intro y hy
    simp only [List.mem_cons, List.not_mem_nil, or_false] at hy
    rcases hy with rfl | rfl <;> exact readVS_meets (by decide +kernel)
  · intro x hx
    simp only [List.mem_cons, List.not_mem_nil, or_false] at hx
    rcases hx with rfl | rfl | rfl <;> exact readS_meets (by decide +kernel)

/-- The core with dimension 0 loaded. -/
def sampling (c : Core) : Core := { c with seq := { c.seq with loaded := [0] } }

/-- The core whose direction number 0 of dimension 0 is uncorrectable. -/
def spoilt (c : Core) : Core := { c with seq := { c.seq with bad := [dirKey 0 0] } }

theorem witness_SequenceWordResults :
    (let s := ready 3 (BitVec.ofNat 2048 (2 ^ 16 + 1022)) 0 5 0
      ∃ v ctl qs, ReadsVS s v0 s0 v ctl qs ∧ within ctl (ones 9 0 + ones 16 16) = true ∧ fld ctl 9 0 + fld ctl 16 16 = 1023 ∧
        Passes (.qrTab false v0 s0) s) ∧
    (let s := ready 3 (BitVec.ofNat 2048 (2 * 2 ^ 16 + 1023)) 0 5 0
      ∃ v ctl qs, ReadsVS s v0 s0 v ctl qs ∧ within ctl (ones 9 0 + ones 17 16 + ones 29 24) = true ∧ fld ctl 17 16 ≠ 3 ∧
        fld ctl 9 0 + (fld ctl 29 24 + 1) = 1024 ∧ Passes (.qrSeed false v0 s0) s) ∧
    (let s := state (sampling (core 3 (heads (BitVec.ofNat 2048 (63 * 2 ^ 16)) (BitVec.ofNat 2048 (2 ^ 32 - 64)) 0 0)))
      ∃ ctl off qs, ReadsSS s s0 s1 ctl off qs ∧ within ctl (ones 9 0 + ones 12 12 + ones 21 16) = true ∧
        off.toNat + fld ctl 21 16 + 1 = 2 ^ 32 ∧ 0 ∈ s.issuing.seq.loaded ∧ s.issuing.seq.bad = [] ∧
        Passes (.qrGen false (.v 3) s0 s1) s ∧ Passes (.qrGenf false (.v 3) s0 s1) s) ∧
    (let s := ready 3 0 0 0 0
      ∃ ctl off qs, ReadsSS s s0 s1 ctl off qs ∧ fld ctl 21 16 = 0 ∧ s.issuing.seq.cause [0] 0 = some (2 ^ 16) ∧
        Passes (.qrGen false (.v 3) s0 s1) s) ∧
    (let s := state (spoilt (sampling (core 3 (heads 0 1 0 0))))
      ∃ ctl off qs, ReadsSS s s0 s1 ctl off qs ∧ off.toNat = 1 ∧ s.issuing.seq.cause [1] 0 = some 0 ∧
        Passes (.qrGen false (.v 3) s0 s1) s) ∧
    let s := ready 3 (BitVec.ofNat 2048 (2 ^ 32 - 1)) 1 0 0
    ∃ v m qs, ReadsSS s s0 s1 v m qs ∧ m.toNat < 2 ∧ v.toNat + s.issuing.a.sys.seqbase.toNat < 2 ^ 32 ∧
      Passes (.qrSkip false (.s 2) s0 s1) s :=
  ⟨readVS_meets (by decide +kernel), readVS_meets (by decide +kernel), readSS_meets (by decide +kernel),
    readSS_meets (by decide +kernel), readSS_meets (by decide +kernel), readSS_meets (by decide +kernel)⟩

/-- A direction-number table of two dimensions up to the last, and seeds of three. -/
theorem witness_SequenceWordResults_items : let c := core 3 [];
    (∀ two ∈ [true, false], does c (.qrTab 1022 two (val 5)) = true) ∧ does c (.qrSeed 1021 2 3 (val 5)) = true := by decide +kernel

/-- Loops, a kernel and positions for the registers that show them, and sources with a reserved bit set. -/
theorem witness_SystemWordResults_layout :
    (core 3 []).a.loops.length < 8 ∧ (core 3 []).kernel = some (0, 0) ∧ (∀ q < 64, SysRegs.reset.qpos q < 64) ∧
    ∀ e ∈ ([(0x01, 48), (0x03, 5), (0x04, 4), (0x0C, 32), (0x20, 32), (0x2F, 32)] : List (Nat × Nat)),
      let s := ready 3 (BitVec.ofNat 2048 (2 ^ e.2)) 0 0 0
      (match s.issuing.readS s0 with | .ok (v, _) => v.toNat == 2 ^ e.2 | .error _ => false) = true ∧
        Passes (.wrsys false (.s 2) s0 (BitVec.ofNat 8 e.1)) s := by decide +kernel

theorem witness_SystemWordResults :
    (let s := state (grouped (core 3 (heads 7 0 0 0)))
      ∃ v qs, ReadsS s s0 v qs ∧ v.toNat < 2 ^ 4 ∧ s.issuing.dbgctl.getLsbD 1 = false ∧ s.issuing.brkskip = false ∧
        (s.issuing.slotOfGroup 9).isSome = true ∧ succeeds (Core.hold { s.issuing with icache := [] } .s (.icinv 1 9) 64) = true ∧
        ∀ i ∈ ([.trap false 5, .brk false 5, .icinv false 0 0, .icinv false 9 1, .icinv false 0 2, .rdsys false (.s 2) 0x00,
          .wrsys false (.s 2) s0 0x01, .wrsys false (.s 2) s0 0x03, .wrsys false (.s 2) s0 0x04, .wrsys false (.s 2) s0 0x08,
          .wrsys false (.s 2) s0 0x0C, .wrsys false (.s 2) s0 0x20, .wrsys false (.s 2) s0 0x2F, .wrsys false (.s 2) s0 0x30] :
          List Instr), Passes i s) ∧
    let s := state { core 3 [] with dbgctl := 2 }
    s.issuing.dbgctl.getLsbD 1 = true ∧ s.issuing.brkskip = false ∧ Passes (.brk false 5) s :=
  ⟨readS_meets (by decide +kernel), by decide +kernel⟩

/-- The core whose last word retires as given. -/
def retiring (r : Retire) (c : Core) : Core := { c with cx := { c.cx with retire := r } }

theorem witness_PrefixSuffixResults :
    (0 ∉ (core 3 []).a.bars) ∧
    (let c := retiring (.at_ 1) (barred 1 (core 3 []));
      16 * (4 : BitVec 19).toNat ∈ c.a.bars ∧ succeeds (c.journalBar 64) = true ∧ c.cx.retire = .at_ 1 ∧ 1 ≤ c.now ∧
        succeeds (c.sliceClear [(c.now, 64, 16)]) = true) ∧
    (let c := retiring (.at_ 9) (barred 1 (core 3 []));
      16 * (4 : BitVec 19).toNat ∈ c.a.bars ∧ succeeds (c.journalBar 64) = true ∧ c.cx.retire = .at_ 9 ∧ c.now < 9 ∧
        succeeds (c.sliceClear [(9, 64, 16)]) = true) ∧
    let c := retiring (.copy 0) (copying .started (barred 1 (core 3 [])));
    16 * (4 : BitVec 19).toNat ∈ c.a.bars ∧ succeeds (c.journalBar 64) = true ∧ c.cx.retire = .copy 0 ∧ (c.copy? 0).isSome = true := by
  decide +kernel

/-! ## States that meet the hypotheses of events -/


/-- The core at its rendezvous on group 9, of a group of two cores that has completed one. -/
def meeting (c : Core) : Core := { c with a := { c.a with rdv := [(0, some { group := 9, lt := 5, word := 4 })] } }

theorem witness_CoreEventResults_landing : let s := state (flying [item 9 false (.setP true)] (core 3 []));
    ∃ i, (s.core 0).a.inflight[0]? = some i ∧ i.ready = false ∧ i.act.isGate = false := ⟨_, rfl, by decide +kernel⟩

theorem witness_CoreEventResults_rendezvous :
    let s : State := { state (meeting (grouped (core 3 []))) with
      kernels := [{ placedKernel 0 with rdvDone := [(9, 1)] }]
      groups := [(9, { Group.reset with assigned := true, gen := 1, members := 1 })] };
    ∃ r kr, SMap.get none (s.core 0).a.rdv 0 = some r ∧ s.runsFor 0 kr ∧
      (SMap.get 0 (s.core 0).a.sys.rdvcnt 0).toNat < SMap.get 0 kr.rdvDone r.group ∧ SMap.get 0 kr.rdvDone r.group = 1 := by
  refine ⟨_, _, rfl, rfl, ?_⟩
  decide +kernel

/-- The core at its step. -/
def stepping (out : Bool) (c : Core) : Core :=
  { flying [item 5 false (.stepGate 3)] c with a := { c.a with inflight := [item 5 false (.stepGate 3)], step := some 5, out := out } }

theorem witness_CoreEventResults_step :
    (let s := state (stepping false (core 3 []))
      ∃ kr, s.kernels[0]? = some kr ∧ (∃ c ∈ s.placed kr, c.outOfPlay = false) ∧
        (∀ c ∈ s.placed kr, c.outOfPlay = true ∨ ((c.run = .running ∨ c.run = .debug true) ∧ s.atStep c = true ∧ c.translating = false)) ∧
        ∃ c ∈ s.placed kr, c.outOfPlay = false ∧ c.a.out = false) ∧
    ∀ r ∈ ([.running, .debug true] : List RunState),
      let s := state (stepping true { core 3 [] with run := r })
      ∃ kr, s.kernels[0]? = some kr ∧ (∃ c ∈ s.placed kr, c.outOfPlay = false) ∧
        (∀ c ∈ s.placed kr, c.outOfPlay = true ∨ ((c.run = .running ∨ c.run = .debug true) ∧ s.atStep c = true ∧ c.translating = false)) ∧
        ∀ c ∈ s.placed kr, (c.outOfPlay = true ∨ c.a.out = true) ∧ ∀ h ∈ c.copies, h.stepWaits = false ∨ h.settled = true := by
  refine ⟨⟨_, rfl, by decide +kernel⟩, ?_⟩
  intro r hr
  simp only [List.mem_cons, List.not_mem_nil, or_false] at hr
  rcases hr with rfl | rfl <;> exact ⟨_, rfl, by decide +kernel⟩

/-- A row on the pair link. -/
def linkRow : PairRow := { seq := 0, par := (5, 1, 8, 0), row := 0, data := [] }

/-- The package with two rails of every UALink group down. -/
def unheard : State := { State.reset with portsDown := [0, 1, 5, 6, 10, 14] }

theorem witness_CoreEventResults_pair :
    (let c : Core := { core 3 [] with a := { (core 3 []).a with superNext := false } }; (state c).budgetRuns c = true) ∧
    (let h := (core 3 []).mx.partner;
      h.rows = [] ∧ (let p := h.put linkRow.seq linkRow.par linkRow.row linkRow.data;
        p.rows ≠ [] ∧ linkRow.seq = p.seq ∧ SMap.get none p.rows linkRow.row ≠ none)) ∧
    let s := state (flying [item 5 false (.pairGate 0 (5, 1, 8, 0))] { core 3 [] with pairWait := State.reset.ms 1 + 1 });
    (s.core 0).a.inflight.any (fun i => match i.act with | .pairGate .. => some i.lt == (s.core 0).dueLt | _ => false) = true ∧
      (s.core 0).run = .running ∧ s.ms 1 < (s.core 0).pairWait ∧ (s.core 0).ampBuf.length < 15 ∧ s.hears = true ∧ unheard.hears = false := by
  decide +kernel

/-- The core halting, or halted, with code 7. -/
def stopping (r : RunState) (c : Core) : Core := { c with run := r, a := { c.a with out := true } }

theorem witness_CoreEventResults_end :
    (let s := state (stopping (.halting 7) (core 3 []))
      ∃ kr, s.runsFor 0 kr ∧ (s.core 0).run = .halting 7 ∧ (s.core 0).a.out = true ∧ (s.core 0).a.inflight = [] ∧ (s.core 0).copies = [] ∧
        (s.core 0).exitTrap = none) ∧
    (let s := state (stopping (.halting 7) (copying (.failed .page 64) (core 3 [])))
      ∃ kr, s.runsFor 0 kr ∧ (s.core 0).a.inflight = [] ∧ (∀ h ∈ (s.core 0).copies, h.settled = true) ∧ (s.core 0).exitTrap.isSome = true) ∧
    (let s := state (stopping (.halted 7) (core 3 []))
      ∃ kr, s.kernels[0]? = some kr ∧ kr.state = .running ∧ (s.placed kr).length = kr.n ∧ s.codesReach kr = true ∧
        ∀ c ∈ s.placed kr, c.run = .halted 7 ∧ ∀ h ∈ c.copies, c.settledAt 3 h = true) ∧
    let s : State := { state (core 3 []) with kernels := [{ placedKernel 0 with state := .aborted, end_ := some (KernelEnd.plain 2 0 0) }] };
    ∃ kr e, s.kernels[0]? = some kr ∧ kr.state = .aborted ∧ kr.end_ = some e ∧ s.copiesOpen kr = false ∧ s.codesReach kr = true :=
  ⟨⟨_, rfl, by decide +kernel⟩, ⟨_, rfl, by decide +kernel⟩, ⟨_, rfl, by decide +kernel⟩, ⟨_, _, rfl, rfl, rfl, by decide +kernel⟩⟩

/-- The state in which its core has trapped with a code. -/
def trapping (code : TrapCode) (s : State) : State := takeTrap 0 (Trap.at_ code 64) s

theorem witness_TrapHandlingResults :
    (∀ code ∈ ([.uncorrectable, .scalePoison, .page, .range, .break] : List TrapCode), let s := trapping code (state (core 3 []))
      ∃ r rest k, s.reports = r :: rest ∧ ({ s with reports := rest } : State).runsFor r.core k ∧ (s.core r.core).run = .trapped ∧
        k.state = .running ∧ k.session = false ∧ (s.core r.core).twin = none ∧ (s.core r.core).a.out = false ∧
        (s.core r.core).rewinds < 5 ∧ (s.core r.core).requeues < 64 ∧ (s.queue k.queue).hold = false ∧
        (s.core r.core).dbgctl.getLsbD 2 = false ∧ r.code = code) ∧
    (let p0 : PendLog := { corenum := 0, code := 0x13, pc := 4, addr := 9, lt := 1, reruns := 1 }
      let s := takeTrap 0 { Trap.at_ .barrierFault 64 with cause := 0x13 } (state { core 3 [] with dbgctl := 4, pend := some p0 })
      ∃ r rest k p, s.reports = r :: rest ∧ s.runsFor r.core k ∧ (s.core 0).pend = some p ∧ r.code = .barrierFault ∧ r.cause = 0x13 ∧
        (s.core r.core).dbgctl.getLsbD 2 = true ∧ p.addr ≠ (s.core 0).a.faultaddr) ∧
    ([TrapCode.uncorrectable.num, TrapCode.scalePoison.num, TrapCode.page.num, TrapCode.break.num] : List (BitVec 8)) =
      [0x13, 0x14, 0x10, 0x1B] ∧
    (let s := state { core 3 [] with run := .requeued }
      ∃ k, s.runsFor 0 k ∧ (s.core 0).run = .requeued ∧ k.state = .running ∧ k.session = false) ∧
    ∀ f ∈ ([none, some (1, 0), some (2, 0)] : List (Option (Nat × BitVec 64))),
      let s := state { core 3 [] with twin := some { first := f, atExit := true } }
      ∃ k t, s.runsFor 0 k ∧ (s.core 0).twin = some t ∧ t.atExit = true ∧ (s.core 0).rewinds < 5 ∧ k.state = .running ∧
        ((s.core 0).a.next, (s.core 0).a.sys.rsig) = (1, 0) := by
  refine ⟨?_, ⟨_, _, _, _, rfl, rfl, rfl, by decide +kernel⟩, by decide +kernel, ⟨_, rfl, by decide +kernel⟩, ?_⟩
  · intro code hc
    simp only [List.mem_cons, List.not_mem_nil, or_false] at hc
    rcases hc with rfl | rfl | rfl | rfl | rfl <;> exact ⟨_, _, _, rfl, rfl, by decide +kernel⟩
  · intro f hf
    simp only [List.mem_cons, List.not_mem_nil, or_false] at hf
    rcases hf with rfl | rfl | rfl <;> exact ⟨_, _, rfl, rfl, by decide +kernel⟩

/-- The state of two cores with a packet on its way. -/
def sending (k : PacketKind) (src : Option (Nat × Nat)) (dst : Nat) (s : State) : State :=
  { s with net := [{ kind := k, src := src, dst := dst, kernel := (0, 0) }] }

theorem witness_NetworkEventResults_sends :
    (∀ r ∈ ([.running, .halted 7] : List RunState), let s := sending (.send 0 9 false (val 5)) (some (0, 0)) 1 (paired { core 3 [] with run := r })
      ∃ p, s.net[0]? = some p ∧ p.kind = .send 0 9 false (val 5) ∧ s.target p = some 1 ∧ (s.net.take 0) = [] ∧
        ((s.dropPacket 0).land 1 { land := 9, kind := .send 0 false (val 5) }).isSome = true ∧ (s.core 1).haltLt < 9) ∧
    let full := { core 3 [] with landing := List.replicate 65 { land := 1, kind := .send 1 true (val 0) } }
    let s := sending (.send 0 9 true (val 5)) (some (0, 0)) 1 (paired full)
    ∃ p, s.net[0]? = some p ∧ s.target p = some 1 ∧ (s.core 1).run = .running ∧
      (s.dropPacket 0).land 1 { land := 9, kind := .send 0 true (val 5) } = none := by
  refine ⟨?_, ⟨_, rfl, by decide +kernel⟩⟩
  intro r hr
  simp only [List.mem_cons, List.not_mem_nil, or_false] at hr
  rcases hr with rfl | rfl <;> exact ⟨_, rfl, by decide +kernel⟩

theorem witness_NetworkEventResults_others :
    (let s := sending (.arrive 64 1) (some (0, 0)) 1 (paired (core 3 []))
      ∃ p kr, s.net[0]? = some p ∧ p.kind = .arrive 64 1 ∧ s.kernel? p.kernel = some kr) ∧
    (let s := sending .icinv (some (0, 0)) 1 (paired (core 3 []))
      ∃ p kr, s.net[0]? = some p ∧ p.kind = .icinv ∧ s.kernel? p.kernel = some kr) ∧
    (∀ g ∈ ([1, 2] : List (BitVec 8)), ∀ r ∈ ([.running, .frozen] : List RunState),
      let s := planned (sending (.pk 64 false (val 5) none 9 g) none 0 (state { core 3 [] with run := r }))
      ∃ p kr, s.net[0]? = some p ∧ p.kind = .pk 64 false (val 5) none 9 g ∧ s.kernel? p.kernel = some kr ∧ (s.group 9).assigned = true ∧
        ((s.group 9).gen = g ↔ g = 1) ∧ kr.phys? p.dst = some 0 ∧ (s.core 0).still = (r == .frozen) ∧
        ∀ b ∈ (upto 1).map (fun j => 64 + 64 * j), (s.core 0).landingLt (s.core 0).a.lt b ≤ (s.core 0).a.lt) ∧
    let c := core 3 []
    ∀ op ∈ ([.clBase 0 0 0 64, .clFire 0, .clFire (2 ^ 32)] : List CopyOp),
      let s := planned (sending .trigger (some (0, 0)) 0 (state { c with copies := [{ c.newCopy .c0 (some 0) op with state := .started }] }))
      ∃ p kr k pl, s.net[0]? = some p ∧ p.kind = .trigger ∧ s.sender p = some (0, 0) ∧ s.kernel? p.kernel = some kr ∧ (s.core 0).copy? 0 = some k ∧
        k.op = op ∧ s.plan 0 = some pl ∧ pl.ctx = kr.ctx ∧ pl.queue ≠ kr.queue ∧ s.packetPasses p = true ∧
        ({ s with d2dDown := [0, 1], kernels := s.kernels.map fun k => { k with dies := [1] } } : State).packetPasses p = false := by
  refine ⟨⟨_, _, rfl, rfl, rfl⟩, ⟨_, _, rfl, rfl, rfl⟩, ?_, ?_⟩
  · intro g hg r hr
    simp only [List.mem_cons, List.not_mem_nil, or_false] at hg hr
    rcases hg with rfl | rfl <;> rcases hr with rfl | rfl <;> exact ⟨_, _, rfl, rfl, rfl, by decide +kernel⟩
  · intro c op ho
    simp only [List.mem_cons, List.not_mem_nil, or_false] at ho
    rcases ho with rfl | rfl | rfl <;> exact ⟨_, _, _, _, rfl, rfl, rfl, rfl, rfl, rfl, rfl, by decide +kernel⟩

/-- The core with a `pk.snd` of rank 5 of group 9 started. -/
def sendingPk (c : Core) : Core :=
  { c with copies := [{ c.newCopy .c0 (some 0) (.pkSnd (BitVec.ofNat 64 (9 + 5 * 256)) 1 false (val 5)) with state := .started }] }

theorem witness_NetworkEventResults_refusals :
    (let s := sending (.refusal .page 64) (some (0, 0)) 0 (state (sendingPk (core 3 [])))
      ∃ k p, (s.core 0).copy? 0 = some k ∧
        s.net.find? (fun p => s.sender p == some (0, 0) && match p.kind with | .refusal .. => true | _ => false) = some p ∧
        p.kind = .refusal .page 64) ∧
    let s := planned (state (sendingPk (core 3 [])))
    ∃ k, (s.core 0).copy? 0 = some k ∧ s.net = [] ∧ s.hears = true ∧ k.state = .started ∧ k.op = .pkSnd (BitVec.ofNat 64 (9 + 5 * 256)) 1 false (val 5) ∧ s.pkPackage (BitVec.ofNat 64 (9 + 5 * 256)) ≠ some s.pkgnum.toNat :=
  ⟨⟨_, _, rfl, rfl, rfl⟩, ⟨_, rfl, by decide +kernel⟩⟩

theorem witness_RailEventResults :
    (let s : State := { State.reset with portsDown := [3], d2dDown := [0], retransmit := [{ number := 1, group := 2, xor := true, beats := [5], unsent := [] }] };
      State.reset.railsDown 3 = [] ∧ (3 : Nat) < 4 ∧ (s.retransmit[0]?).isSome = true ∧ (s.railsDown 2).length < 2 ∧
        3 ∈ s.portsDown ∧ 14 ∉ s.portsDown ∧ 0 ∈ s.d2dDown ∧ 4 ∉ s.d2dDown) ∧
    let s : State := { State.reset with portsDown := [0, 1, 10, 11], retransmit := [{ number := 1, group := 2, xor := true, beats := [5], unsent := [] }] };
    2 ≤ (s.railsDown 2).length ∧ (s.railsDown 1).length < 2 ∧ 2 ≤ (s.railsDown 0).length := by decide +kernel

theorem witness_RailEventResults_degraded :
    (∀ r ∈ [0, 3, 4], ({ State.reset with portsDown := [5 + r] } : State).railsDown 1 = [r] ∧
      ({ State.reset with portsDown := [5 + r] } : State).groupDeaf 1 = false) ∧
    (∀ g < 4, State.reset.groupDeaf g = false ∧ ({ State.reset with recovery := true } : State).groupDeaf g = (g != 3)) ∧
    ((List.replicate 3 (0 : Beat512)).length = 3 ∧ 3 + ([] : List Beat512).length < 4 ∧ (List.replicate 4 (0 : Beat512)).length ≤ 4) ∧
    (∃ g < 3, (State.reset.railsDown g).length < 2) ∧
    ∀ g < 3, 2 ≤ (({ State.reset with portsDown := [0, 1, 5, 6, 10, 14] } : State).railsDown g).length := by decide +kernel

/-- The core with a get on q3 in the state given, of one beat of window 0 to scratchpad address 64 in the state given. -/
def getting (st : CopyState) (b : BeatState) (c : Core) : Core :=
  { c with copies := [{ c.newCopy .c0 (some 3) .get with
      state := st, released := true, beats := [{ w := some 128, sp := 64, data := none, pa := some 4096, state := b }] }], nextId := 1 }

/-- The core with window 0 a peer window of package 5 that it may read. -/
def peering (c : Core) : Core := { c with win0 := [(0, BitVec.ofNat 64 (3 <<< 62 + 1 <<< 60 + 5 <<< 42 + 2 ^ 20))] }

theorem witness_CopyEventResults_start :
    (let s := state (windowed (getting .held .waiting (core 3 [])));
      ∃ k kr, (s.core 0).copy? 0 = some k ∧ s.runsFor 0 kr ∧ (s.core 0).canStart k = true ∧ (s.core 0).still = false ∧ (s.core 0).run ≠ .idle ∧
        k.isWrite = false ∧ (s.core 0).toPeer k = false ∧ s.pkAway k = false ∧ s.linkFor 0 k = true) ∧
    ∀ b ∈ [true, false], let s : State := { state (peering (getting .held .waiting (core 3 []))) with pkgset := b };
      ∃ k kr, (s.core 0).copy? 0 = some k ∧ s.runsFor 0 kr ∧ (s.core 0).canStart k = true ∧ (s.core 0).still = false ∧ (s.core 0).run ≠ .idle ∧
        k.isWrite = false ∧ (s.core 0).toPeer k = true ∧ s.linkFor 0 k = true ∧ s.canReach = b ∧ (s.packetsOf (s.core 0) kr k) = [] := by
  refine ⟨⟨_, _, rfl, rfl, by decide +kernel⟩, ?_⟩
  intro b hb
  simp only [List.mem_cons, List.not_mem_nil, or_false] at hb
  rcases hb with rfl | rfl <;> exact ⟨_, _, rfl, rfl, by decide +kernel⟩

theorem witness_CopyEventResults_refusal : let c := peering (getting .started .waiting (core 3 []));
    ∃ k b, c.copy? 0 = some k ∧ k.settled = false ∧ k.beats = [] ++ b :: [] ∧ b.w = some 128 ∧ ∀ x ∈ k.beats, ∀ e, x.state ≠ .refused e := by
  refine ⟨_, _, rfl, rfl, rfl, rfl, ?_⟩
  intro x hx e
  cases List.mem_singleton.mp hx
  exact fun h => by cases h

theorem witness_CopyEventResults_beats :
    (let s := state (windowed (getting .started (.coming { bits := 5, bad := false }) (core 3 [])))
      ∃ k b, (s.core 0).copy? 0 = some k ∧ k.beats[0]? = some b ∧ k.state = .started ∧ k.isRead = true ∧ k.op ≠ .scrub ∧ k.timed = none ∧
        (s.core 0).still = false ∧ (s.core 0).beatDue 0 0 = false ∧ b.state = .coming { bits := 5, bad := false }) ∧
    (let s : State := { state (core 3 []) with cores := [(0, { core 3 [] with copies := [{ (core 3 []).newCopy .c0 (some 3) .put with
        state := .started, beats := [{ w := some 128, sp := 64, data := none, pa := some 4096, state := .sent }] }] })] }
      ∃ k b, (s.core 0).copy? 0 = some k ∧ k.beats[0]? = some b ∧ k.state = .started ∧ k.isRead = false ∧ k.op = .put ∧ b.state = .sent) ∧
    (let c := getting .started (.coming { bits := 5, bad := false }) (core 3 [])
      let s := state { c with copies := c.copies.map fun k => { k with timed := some 40 } }
      ∃ k b, (s.core 0).copy? 0 = some k ∧ k.beats[0]? = some b ∧ k.state = .started ∧ k.timed = some 40 ∧
        b.state = .coming { bits := 5, bad := false } ∧ (s.core 0).still = false ∧
        (s.land 0 { land := 40, kind := .beat 0 0 { bits := 5, bad := false } }).isSome = true) ∧
    let s := state (peering (getting .started .waiting (core 3 [])))
    ∃ k b, (s.core 0).copy? 0 = some k ∧ k.beats[0]? = some b ∧ k.state = .started ∧ b.w = some 128 ∧ b.pa = some 4096 ∧ b.state = .waiting ∧
      (s.core 0).kindOf 128 = 3 ∧ (s.core 0).blockClear k b = true ∧ s.hears = true ∧ k.isRead = true ∧ k.op ≠ .scrub ∧ k.timed = none ∧
      (s.core 0).still = false ∧ (s.core 0).beatDue 0 0 = false :=
  ⟨⟨_, _, rfl, rfl, by decide +kernel⟩, ⟨_, _, rfl, rfl, by decide +kernel⟩, ⟨_, _, rfl, rfl, by decide +kernel⟩,
    ⟨_, _, rfl, rfl, by decide +kernel⟩⟩

/-- The core with window 0 a host window that it may read and write, and its code in window 63. -/
def hosted (c : Core) : Core :=
  { c with win0 := [(0, BitVec.ofNat 64 (2 <<< 62 + 3 <<< 59 + 2 ^ 20))], a := { c.a with pc := 63 <<< 42 + 4 } }

theorem witness_CopyEventResults_translation :
    (let c := hosted (getting .held .waiting (core 3 []))
      let s := state { c with copies := c.copies.map fun k => { k with beats := k.beats.map fun b => { b with pa := none } } }
      ∃ k, (s.core 0).copy? 0 = some k ∧ k.settled = false ∧ (∃ b ∈ k.beats, (s.core 0).awaits b 0 0 = true) ∧ s.fetchWaits 0 ≠ some (0, 0) ∧
        ((s.core 0).window 0).crit = false ∧ (s.core 0).ahead ≠ some (0, 0)) ∧
    (let c := getting .held .waiting { core 3 [] with win0 := [(0, BitVec.ofNat 64 (2 <<< 62 + 7 <<< 59 + 2 ^ 20))] }
      let s := state { c with copies := c.copies.map fun k => { k with beats := k.beats.map fun b => { b with pa := none } } }
      ∃ k, (s.core 0).copy? 0 = some k ∧ k.settled = false ∧ (∃ b ∈ k.beats, (s.core 0).awaits b 0 0 = true) ∧
        ((s.core 0).window 0).crit = true) ∧
    (let c := hosted (getting .complete .finished (core 3 []))
      let s := state { c with copies := c.copies.map fun k => { k with op := .put } }
      ∃ k, (s.core 0).copy? 0 = some k ∧ k.state = .complete ∧ (s.core 0).toHost k = true ∧ k.flushed = false) ∧
    (∀ n, ∀ k ∈ (State.reset.core n).copies, (State.reset.core n).usesGranule k 0 = false) ∧ (State.reset.cores.map Prod.fst).Nodup :=
  ⟨⟨_, rfl, by decide +kernel⟩, ⟨_, rfl, by decide +kernel⟩, ⟨_, rfl, by decide +kernel⟩, (fun _ _ h => by cases h), by decide⟩

theorem witness_MemoryEventResults_beats :
    (let s := state (windowed (getting .started .waiting (core 3 [])))
      ∃ k b, (s.core 0).copy? 0 = some k ∧ k.beats[0]? = some b ∧ b.w = some 128 ∧ b.pa = some 4096 ∧ k.state = .started ∧ b.state = .waiting ∧
        (s.core 0).kindOf 128 = 1 ∧ (s.core 0).blockClear k b = true ∧ k.op = .get ∧ (s.core 0).still = false ∧ s.zeroFill = false ∧
        (∀ a ∈ rangeFrom 4096 64, s.blockKey a = s.keyOfCore (s.core 0)) ∧ 4096 + 64 ≤ doorbellBase ∧ s.reaches (dieOf 0) 4096 64 = true) ∧
    (let c := windowed (getting .started .waiting (core 3 []))
      let s : State := { state { c with copies := c.copies.map fun k => { k with beats := k.beats.map fun b => { b with pa := some (2 ^ 38) } } }
        with d2dDown := [0, 1] }
      ∃ k b, (s.core 0).copy? 0 = some k ∧ k.beats[0]? = some b ∧ b.w = some 128 ∧ b.pa = some (2 ^ 38) ∧ k.state = .started ∧
        b.state = .waiting ∧ (s.core 0).kindOf 128 = 1 ∧ (s.core 0).blockClear k b = true ∧ s.reaches (dieOf 0) (2 ^ 38) 64 = false) ∧
    let c := windowed (getting .started .waiting (core 3 []))
    let s := state { c with copies := c.copies.map fun k => { k with op := .put, beats := k.beats.map fun b =>
      { b with data := some { bits := 5, bad := false } } } }
    ∃ k b, (s.core 0).copy? 0 = some k ∧ k.beats[0]? = some b ∧ k.op = .put ∧ b.data = some { bits := 5, bad := false } ∧
      k.state = .started ∧ b.state = .waiting ∧ (s.core 0).kindOf 128 = 1 ∧ (s.core 0).blockClear k b = true ∧
      (s.channel (channelOf 4096)).wq.length < 64 :=
  ⟨⟨_, _, rfl, rfl, by decide +kernel⟩, ⟨_, _, rfl, rfl, by decide +kernel⟩, ⟨_, _, rfl, rfl, by decide +kernel⟩⟩

/-- An entry that exports the first KiB to every package, for reads and writes. -/
def exported : ExportEntry := { w0 := BitVec.ofNat 64 (7 <<< 61 + 1023 <<< 40 + 1024), w1 := 0, owner := some 0 }

theorem witness_MemoryEventResults_others :
    (∀ n ∈ [49, 48, 16, 15], ∀ p ∈ [0, 7, 8],
      let s : State := { State.reset with channels := [(255, { Channel.reset with wq := List.replicate n 5, postponed := p })] };
      (s.channel 255).wq.length = n ∧ (s.channel 255).postponed = p) ∧
    (let s : State := { State.reset with channels := [(255, { Channel.reset with wq := [] })] }; (s.channel 255).wq = [] ∧ (s.channel 255).postponed = 0) ∧
    State.reset.recovery = false ∧ ({ State.reset with recovery := true } : State).recovery = true ∧ State.reset.lifecycle ≠ .scrapped ∧
    (∃ g < 3, (State.reset.railsDown g).length < 2) ∧ (∀ g < 3, 2 ≤ (unheard.railsDown g).length) ∧
    (let r : PeerReq := { package := 4, addr := 960, op := .write 5 true };
      (State.reset.exports.all fun e => !e.2.allows r) = true ∧ exported.allows r = true ∧
      exported.allows { r with addr := 1024 } = false ∧
      (∀ op ∈ ([.write 5 true, .read, .amo 1 9 5] : List PeerOp),
        let e : ExportEntry := { exported with w0 := exported.w0 ||| BitVec.ofNat 64 (2 ^ 60) }
        let s : State := { State.reset with pkgset := true, exports := [(3, e)] };
        let t : State := s.setChannel (channelOf r.addr) { Channel.reset with wq := List.replicate 64 5 };
        (s.exports.map Prod.snd).find? (fun e => e.allows { r with op := op, addr := 896 }) = some e ∧
          (s.channel (channelOf r.addr)).wq.length < 64 ∧ r.addr < doorbellBase ∧ (t.channel (channelOf r.addr)).wq.length = 64) ∧
      5 / 64 ∈ ({ State.reset with hbmBad := [0] } : State).hbmBad ∧ 5 / 64 ∉ State.reset.hbmBad) := by
  decide +kernel

/-- A firing of the plan: operations 0 and 1, of which the second waits for the first. -/
def firing (counts done_ : List Nat) : Firing :=
  { seq := 1, irq := false, bases := [], counts := counts, done_ := done_, cmd := none, origin := none, fallen := [(1, 0)], sent := [] }

/-- A plan of a COPY, a RECV from rank 1 behind it, and a RECV from the switch node (1, 0). -/
def plan2 : Plan :=
  { plan with
    ops := [BitVec.ofNat 256 (3 + 2 ^ 200), BitVec.ofNat 256 (1 + 2 ^ 36), BitVec.ofNat 256 (1 + 2 ^ 10 + 2 ^ 11)], succ := [1], accepted := 1 }

/-- A packet of rank 1, on package 5, for a firing. -/
def packet (gen : BitVec 8) : CollPacket :=
  { handle := 0, seq := 1, group := 9, gen := gen, from_ := some 5, tag := 0, level := 0, index := 0, site := false, result := false, data := [] }

/-- A plan whose node (1, 0) is a switch that group 2 reaches. -/
def switched : Plan := { plan2 with switches := [(1, 0, 2, 0, 0)], awaiting := [5, 1024] }

theorem witness_PlanEventResults_heard :
    (∀ who ∈ [5, 1024], State.reset.hearsOf switched who = true ∧ unheard.hearsOf switched who = false) ∧
    (∀ k ∈ ([packet 1, { packet 1 with from_ := none, level := 1, site := true, result := true }] : List CollPacket),
      State.reset.hearsPacket switched k = true ∧ unheard.hearsPacket switched k = false) ∧ State.reset.hears = true := by
  decide +kernel

theorem witness_PlanEventResults :
    (∀ f ∈ ([firing [0, 1] [], firing [0, 0] [1]] : List Firing),
      let s : State := { State.reset with plans := [(0, some { plan2 with firing := some f })] }
      ∃ p o, s.plan 0 = some p ∧ p.firing = some f ∧ p.ops[0]? = some o ∧ p.opReady f 0 = true ∧ s.opReaches f o = true) ∧
    (let s := planned State.reset
      let k := packet 1
      let r : CollPacket := { packet 1 with from_ := none, level := 1, site := true, result := true };
      s.hearsPacket plan2 k = true ∧ s.hearsPacket plan2 r = true ∧ (s.group 9).assigned = true ∧ (s.group 9).gen = k.gen ∧ plan2.gen = k.gen ∧ plan2.group = k.group ∧ plan2.live = true ∧
        k.site = false ∧ plan2.recvOf k = some 1 ∧ k.from_ ≠ none ∧ plan2.packetFor k.seq 1 = none ∧ plan2.firing = none ∧
        plan2.completed ≠ k.seq ∧ plan2.completed = ({ k with seq := 0 } : CollPacket).seq ∧ State.reset.plan k.handle = none ∧
        (firing [0, 1] []).seq = k.seq ∧ 1 ∉ (firing [0, 1] []).done_ ∧
        ¬((s.group 9).assigned = true ∧ (s.group 9).gen = (packet 2).gen) ∧
        plan2.recvOf r = some 2 ∧ r.seq = (firing [0, 1] []).seq ∧ (r.level, r.index) ∈ (firing [0, 1] []).fallen) ∧
    (let s : State := { State.reset with phys := State.reset.ms 100 };
      s.ms 100 ≤ s.phys - plan.since ∧ plan.setup = some (3, 0)) ∧
    (([1024] : List Nat).erase 1024 = [] ∧ ([1, 1024] : List Nat).erase 1024 ≠ []) ∧ (∀ who ∈ switched.awaiting, State.reset.hearsOf switched who = true) ∧
    (let s : State := { planned State.reset with plans := [], pkgset := true }
      let d : PlanDesc := { group := 9, gen := 1, extents := [], packages := [⟨0, 3, [], [], true⟩], switches := [] };
      s.ready = true ∧ s.hears = true ∧ s.pkgset = true ∧ s.handleFree 4095 = true ∧ (s.group 9).assigned = true ∧ (s.group 9).gen = 1 ∧
        (s.newPlan d none).isSome = true) ∧
    (let s := planned State.reset;
      s.answers false ∧ s.plan 0 = some plan ∧ plan.live = true ∧ plan.state = .idle ∧
        ∀ e ∈ ([(0, 0), (1, 1), (2, 2)] : List (Nat × Nat)), let v := BitVec.ofNat 64 (e.1 * 2 ^ 32);
          fld v 15 0 = 0 ∧ fld v 23 16 ≤ 15 ∧ fld v 31 25 = 0 ∧ fld v 63 32 = e.2) := by
  refine ⟨?_, by decide +kernel, by decide +kernel, by decide, by decide +kernel, by decide +kernel⟩
  intro f hf
  simp only [List.mem_cons, List.not_mem_nil, or_false] at hf
  rcases hf with rfl | rfl <;> exact ⟨_, _, rfl, rfl, rfl, by decide +kernel⟩

/-! ## Commands at the head of queue 3 -/

/-- The eight words of a command of queue 3, index 0. -/
def cmd (code : Nat) (ws : List Nat) : List W64 :=
  BitVec.ofNat 64 (3 * 2 ^ 59 + code) :: (upto 7).map fun k => BitVec.ofNat 64 (ws.getD k 0)

/-- The state with bytes in HBM. -/
def holding (a : Nat) (bs : List Byte) (s : State) : State := { s with hbm := writeBytes s.hbm a bs }

/-- The state with a command at the head of queue 3, whose area is at address 0. -/
def queued (code : Nat) (ws : List Nat) (s : State) : State :=
  holding 0 ((cmd code ws).flatMap fun w => toBytes 8 w.toNat)
    { s with queues := [(3, { Queue.reset with en := true, tail := 1, pred := some none })] }

theorem witness_PlainCommandResults :
    (∀ e ∈ ([(0x02, [1, 128, 0]), (0x03, [0, 8, 5]), (0x04, []), (0x0E, []), (0x0A, [1, 6])] : List (Nat × List Nat)),
      (queued e.1 e.2 State.reset).atHead 3 e.1 (cmd e.1 e.2)) ∧
    (let s := queued 0x02 [1, 128, 1] State.reset;
      s.head 3 = some (.command (cmd 0x02 [1, 128, 1])) ∧ commandOk 3 0 (cmd 0x02 [1, 128, 1]) = true ∧ s.nextQueue = none ∧
        (s.queue 3).en = true ∧ (s.queue 3).err = false) ∧
    ∀ code ∈ [0x00, 0x01, 0x02, 0x03, 0x04, 0x05, 0x06, 0x07, 0x08, 0x09, 0x0A, 0x0B, 0x0C, 0x0D, 0x0E, 0x0F, 0x10, 0xFF],
      let s := queued (code + 512) [0, 0, 0, 0, 0, 0, 1] State.reset;
      s.head 3 = some (.command (cmd (code + 512) [0, 0, 0, 0, 0, 0, 1])) ∧ s.nextQueue = some 3 ∧
        commandOk 3 0 (cmd (code + 512) [0, 0, 0, 0, 0, 0, 1]) = false ∧ cmdFld (cmd (code + 512) []) 0 7 0 = code := by
  refine ⟨by decide +kernel, by decide +kernel, by decide +kernel⟩

/-- The state with a command started on queue 3. -/
def begun (progress : Nat) (code : Nat) (ws : List Nat) (s : State) : State :=
  { s with queues := [(3, { Queue.reset with en := true, tail := 1, head := 1, started :=
      [{ index := 0, cid := 3 * 2 ^ 27, ctx := 0, words := cmd code ws, finished := false, progress := progress, found := [] }] })] }

theorem witness_BeatCommandResults :
    (queued 0x08 [64, 128, 2, 0] State.reset).atHead 3 0x08 (cmd 0x08 [64, 128, 2, 0]) ∧
    (queued 0x09 [64, 2, 128, 0] State.reset).atHead 3 0x09 (cmd 0x09 [64, 2, 128, 0]) ∧
    (∀ p ∈ [0, 1], ((begun p 0x08 [64, 128, 2, 0] State.reset).startedCmd 3 0 0x08).any
      (fun c => c.progress == p && cmdFld c.words 3 31 0 == 2 && State.reset.copyReaches c) = true) ∧
    (let s : State := { begun 0 0x08 [64, 2 ^ 38, 2, 0] State.reset with d2dDown := [0, 1] };
      (s.startedCmd 3 0 0x08).any (fun c => !s.copyReaches c) = true) ∧
    (let s : State := { begun 0 0x09 [2 ^ 38, 2, 128, 0] State.reset with d2dDown := [0, 1] };
      (s.startedCmd 3 0 0x09).any (fun c => !s.scrubReaches c) = true) ∧
    ∀ p ∈ [0, 2], let s : State := { begun p 0x09 [64, 2, 128, 0] State.reset with hbmWeak := [1] };
      (s.startedCmd 3 0 0x09).any (fun c => c.progress == p && cmdFld c.words 2 31 0 == 2 && cmdFld c.words 1 38 0 / 64 == 1 &&
        s.scrubReaches c) = true ∧
        1 ∉ s.hbmBad ∧ 1 ∈ s.hbmWeak := by decide +kernel

/-- The header of an image of one core, at 4096. -/
def imageBytes : List Byte := toBytes 8 (0x46583830 + 2 ^ 32) ++ toBytes 8 64 ++ toBytes 8 128 ++ toBytes 8 1024

theorem witness_KernelCommandResults_launch :
    (let ws := [4096, 0, 0, 0, 100, 0, 0]
      let s := holding 4096 imageBytes (queued 0x01 ws State.reset);
      s.atHead 3 0x01 (cmd 0x01 ws) ∧ (s.queue 3).pred = some none ∧
        (match s.launchVerdict 3 ((s.queue 3).pred.getD none) (cmd 0x01 ws) with | .starts .. => true | _ => false) = true) ∧
    let ws := [4096, 0, 0, 0, 100, 0, 0]
    let s := queued 0x01 ws State.reset
    let t := s.setQueue 3 { s.queue 3 with pred := some (some 7) };
    t.atHead 3 0x01 (cmd 0x01 ws) ∧ (t.queue 3).pred = some (some 7) := by decide +kernel

theorem witness_KernelCommandResults_others :
    (∀ s ∈ ([State.reset, planned State.reset] : List State), (queued 0x0B [9, 1] s).atHead 3 0x0B (cmd 0x0B [9, 1])) ∧
    (let s := queued 0x0B [9, 1] State.reset; ((s.take 3 (cmd 0x0B [9, 1])).groupCommand 3 (cmd 0x0B [9, 1])).isSome = true) ∧
    (let s := queued 0x0B [9, 1] (planned State.reset); ((s.take 3 (cmd 0x0B [9, 1])).groupCommand 3 (cmd 0x0B [9, 1])) = none) ∧
    (let s := queued 0x0C [0, 4096] (state (core 3 []));
      s.atHead 3 0x0C (cmd 0x0C [0, 4096]) ∧
        (s.kernels.find? fun k => k.cid == 0 && k.ctx == 0).any (fun k => k.state == .running && k.n == 1) = true) ∧
    (let s := queued 0x0C [0, 4096] (state (core 3 []));
      ∀ n ∈ [0], ((s.take 3 (cmd 0x0C [0, 4096])).core n).run = .running ∧ ((s.take 3 (cmd 0x0C [0, 4096])).core n).run.halted? = false) ∧
    (let s := begun 0 0x0C [0, 4096] { state { core 3 [] with run := .frozen } with kernels := [{ placedKernel 0 with state := .frozen }] };
      let u : State := { s with d2dDown := [0, 1] }
      ((s.queue 3).started.map fun c => (c.opc, c.finished)) = [(0x0C, false)] ∧ (s.kernels.find? fun k => k.cid == 0 && s.atRest k).isSome = true ∧
        (s.kernels.find? fun k => k.cid == 0 && s.atRest k).any (fun k => s.areasReach k 4096) = true ∧
        (u.kernels.find? fun k => k.cid == 0 && u.atRest k).any (fun k => !u.areasReach k (2 ^ 38)) = true) ∧
    (let s := queued 0x0D [0, 4096] { State.reset with kernels := [{ placedKernel 0 with state := .saved 4096, place := [], context := [(0, some (core 3 []))] }] };
      s.atHead 3 0x0D (cmd 0x0D [0, 4096]) ∧ (s.savedKernel 3 (cmd 0x0D [0, 4096])).any (·.held.isEmpty) = true ∧ (core 3 []).held = [] ∧
        (s.placement [0]).isSome = true) ∧
    (let s := queued 0x0B [256 + 9] (planned State.reset)
      let u : State := { planned State.reset with plans := [], phys := State.reset.ms 2, groups := [(9, { Group.reset with assigned := true, gen := 1, lastUse := [(2, 5)] })] };
      cmdFld (cmd 0x0B [256 + 9]) 1 8 8 = 1 ∧ (s.group 9).assigned = true ∧ s.groupNamed 9 1 = true ∧ u.groupNamed 9 1 = false ∧
        SMap.get 0 (u.group 9).lastUse 2 ≠ 0 ∧ u.phys + 1 < SMap.get 0 (u.group 9).lastUse 2 + u.ms 2) ∧
    (let ws := [63, 2 ^ 63 + 64, 64]
      let s := queued 0x0F ws State.reset;
      s.atHead 3 0x0F (cmd 0x0F ws) ∧ s.exports = [] ∧ exportOk ((cmd 0x0F ws).getD 2 0) ((cmd 0x0F ws).getD 3 0) = true ∧
        ((cmd 0x0F ws).getD 2 0).getLsbD 63 = true) ∧
    let s := queued 0x0E [] { State.reset with phys := State.reset.ms 10 }
    let t := s.setQueue 3 { s.queue 3 with ready := some 0 };
    (t.queue 3).ready = some 0 ∧ (t.queue 3).starved = false ∧ t.canServe 3 = true ∧ t.ms 10 ≤ t.phys - 0 := by decide +kernel

/-- The entry of another context that a new range overlaps. -/
def foreignEntry : ExportEntry := { w0 := BitVec.ofNat 64 (2 ^ 63 + 128), w1 := 0, owner := some 7 }

theorem witness_KernelCommandResults_export :
    (∀ k ∈ [62, 63], let s := queued 0x0F [k, 2 ^ 63 + 64, 64] { State.reset with exports := [(63, foreignEntry)] };
      s.atHead 3 0x0F (cmd 0x0F [k, 2 ^ 63 + 64, 64]) ∧ foreignEntry.w0.getLsbD 63 = true ∧ foreignEntry.owner ≠ some (s.queue 3).ctx ∧
        SMap.get .reset s.exports 63 = foreignEntry) ∧
    exportsMeet (BitVec.ofNat 64 (2 ^ 63 + 64)) 64 foreignEntry = true ∧
    (queued 0x0F [0, 1, 0] State.reset).atHead 3 0x0F (cmd 0x0F [0, 1, 0]) ∧ exportOk 1 0 = false := by decide +kernel

theorem witness_PlanCommandResults :
    (let s := planned State.reset
      let t := s.setQueue 3 { Queue.reset with en := true, fires := [{ tail := 0, trigger := 2 ^ 32, cmd := none, origin := none }] };
      t.head 3 = some (.fire { tail := 0, trigger := 2 ^ 32, cmd := none, origin := none }) ∧ t.nextQueue = some 3 ∧ t.ready = true ∧
        t.recovery = false) ∧
    (∀ e ∈ ([(1, .accepted), (0, .duplicate), (2, .refused)] : List (Nat × TriggerVerdict)),
      let ws := [e.1 * 2 ^ 32]
      let s := queued 0x05 ws (planned State.reset);
      s.atHead 3 0x05 (cmd 0x05 ws) ∧ s.plan 0 = some plan ∧ plan.queue = 3 ∧ s.judge ((cmd 0x05 ws).getD 1 0) = e.2) ∧
    (∀ e ∈ ([(.idle, .accepted), (.failed, .refused)] : List (PlanState × TriggerVerdict)),
      let p : Plan := { plan with queue := 4, state := e.1 }
      let s := queued 0x05 [2 ^ 32] { planned State.reset with plans := [(0, some p)] };
      s.atHead 3 0x05 (cmd 0x05 [2 ^ 32]) ∧ s.plan 0 = some p ∧ p.queue ≠ 3 ∧ s.judge ((cmd 0x05 [2 ^ 32]).getD 1 0) = e.2) ∧
    (let s := queued 0x07 [0] (planned State.reset);
      s.atHead 3 0x07 (cmd 0x07 [0]) ∧ s.plan (cmdFld (cmd 0x07 [0]) 1 15 0) = some plan) ∧
    let s := holding (4096 + 192) [0x33] <| holding (4096 + 128) (toBytes 8 (3 * 2 ^ 16 + 2 ^ 32) ++ toBytes 8 192) <|
      holding (4096 + 0x50) (toBytes 8 128) <| holding 4096 (toBytes 8 (0xC3A10001 + 2 ^ 32 + 9 * 2 ^ 48 + 2 ^ 56)) <|
      queued 0x06 [4096] { State.reset with
        pkgset := true, groups := [(9, { Group.reset with assigned := true, gen := 1, members := 1, ext := [(0, 1)] })] };
    s.atHead 3 0x06 (cmd 0x06 [4096]) ∧ s.pkgset = true ∧
      ((s.readPlan (s.keyOf (s.queue 3).ctx) 4096).any fun d => (s.newPlan d (some (3, 0))).any (·.live) && s.advertised d &&
        s.freeHandle (d.packages.map PlanPackage.package) == some 0) = true ∧
      (s.take 3 (cmd 0x06 [4096])).peerPlans = [] := by
  decide +kernel

/-- A package of two ranks whose REDUCE of node (1, 0) takes 128 bytes of bases 0 and 1 with the given DEP, after a COPY of node
(0, n) from base 2 to 64 bytes of base 1 that names it `k` times (R331). -/
def twoRanks (dep n k : Nat) : PlanPackage :=
  { package := 0, queue := 0, succ := [1], ok := true
    ops := [BitVec.ofNat 256 (3 + n <<< 16 + 2 <<< 64 + 1 <<< 68 + 64 <<< 104 + 64 <<< 136 + k <<< 200),
            BitVec.ofNat 256 (2 + 1 <<< 11 + 1 <<< 68 + 128 <<< 136 + dep <<< 168)] }

/-- Three ranks of a package with 128 bytes each of bases 0, 1 and 2: a REDUCE of node (1, 0) of the OP given, then one of node (2, 0)
with SUM, whose left child is the result and whose right child the block given of base 2 (R331, R338). -/
def threeRanks (op : Nat) (blocks : List Nat) : PlanPackage :=
  { package := 0, queue := 0, succ := (upto blocks.length).map fun k => 1 + k, ok := true
    ops := BitVec.ofNat 256 (2 + 9 <<< 4 + op <<< 8 + 1 <<< 11 + 1 <<< 68 + 128 <<< 136 + blocks.length <<< 200) ::
      (blocks.zip (upto blocks.length)).map fun e => BitVec.ofNat 256 (2 + 9 <<< 4 + 2 <<< 11 + 1 <<< 64 + 2 <<< 68 +
        (64 * e.2) <<< 72 + (64 * e.1) <<< 104 + 64 <<< 136 + 1 <<< 168) }

/-- R331, R338: the children of a node are made with its OP, and an element of one rank goes with one element of each other rank. -/
theorem test_placesOk : treeOk [(0, 3)] 3 [threeRanks 0 [0, 1]] [] = true ∧ treeOk [(0, 3)] 3 [threeRanks 1 [0, 1]] [] = false ∧
    treeOk [(0, 3)] 3 [threeRanks 0 [1, 0]] [] = true ∧ placesOk [(0, 3)] 3 [threeRanks 0 [0, 0]] = false := by decide +kernel

/-- R331: the COPY must carry rank 1's element, the right child, and the REDUCE must wait for it. -/
theorem test_treeOk : treeOk [(0, 2)] 2 [twoRanks 1 1 1] [] = true ∧ treeOk [(0, 2)] 2 [twoRanks 0 1 1] [] = false ∧
    treeOk [(0, 2)] 2 [twoRanks 0 1 0] [] = false ∧ treeOk [(0, 2)] 2 [twoRanks 1 0 1] [] = false := by decide +kernel

/-- A set-up for which no handle is free: package 0 holds them all. -/
theorem witness_PlanCommandResults_noHandle : ({ State.reset with peerPlans := [(0, upto 4096)] } : State).freeHandle [0] = none := by
  unfold State.freeHandle
  rw [List.find?_eq_none]
  intro h hh
  have e : SMap.get [] [(0, upto 4096)] 0 = upto 4096 := rfl
  simp [e, hh]

/-! ## Registers, debugging, security and power -/

theorem witness_RegisterEventResults :
    (∀ en ∈ [true, false], let s : State := { State.reset with queues := [(31, { Queue.reset with en := en, tail := 5 })] };
      s.answers false ∧ (31 : Nat) < 32 ∧ (s.queue 31).en = en ∧ (s.queue 31).err = false ∧ fld (21 : W64) 63 32 = 0 ∧
        (s.queue 31).tail ≤ fld (5 : W64) 31 0 ∧ fld (16 : W64) 31 0 = (s.queue 31).final_ + 2 ^ (s.queue 31).log2n ∧
        fld (4 : W64) 31 0 < (s.queue 31).tail ∧ (s.queue 31).final_ + 2 ^ (s.queue 31).log2n < fld (17 : W64) 31 0) ∧
    (1 : W64).getLsbD 0 = true ∧ (2 : W64).getLsbD 0 = false ∧ (1024 : W64).getLsbD 10 = true ∧ State.reset.pkgset = false ∧
    (let q := ({ Queue.reset with en := true, tail := 5 } : Queue).stop; Queue.reset.stopped = none ∧ q.stopped = some (0, 0) ∧ q.en = false) ∧
    (∀ die ∈ [0, 1], let s := sending (.doorbell 3 7 0 die) none 0 State.reset
      s.net.map (fun p => p.kind == .doorbell 3 7 0 die) = [true] ∧ s.groupUp 3 = true ∧
        ({ s with d2dDown := [0, 1] } : State).groupUp 3 = false) ∧
    let s : State := { State.reset with tdi := .run };
    s.ready = true ∧ s.recovery = false ∧ s.tdi = .run := by decide +kernel

theorem witness_ApertureResults :
    State.reset.ready = true ∧ State.reset.recovery = false ∧ State.reset.tdi = .configUnlocked ∧ State.reset.zeroFill = false ∧
    (∀ w ∈ [1, 2, 4, 8], (2 ^ 30 - w) % w = 0 ∧ 2 ^ 30 - w < 2 ^ State.reset.bar4 ∧ State.reset.aperture + (2 ^ 30 - w) + w ≤ 2 ^ 39) ∧
    (∀ b ∈ rangeFrom (State.reset.aperture + 1024) 8, b / 64 ∉ State.reset.hbmBad ∧ State.reset.blockKey b = none) ∧
    State.reset.aperture + 1024 + 8 ≤ doorbellBase ∧ (State.reset.channel (channelOf (State.reset.aperture + 1024))).wq.length < 64 ∧
    ({ State.reset with zeroFill := true } : State).zeroFill = true ∧
    (∀ t ∈ ([.error, .configLocked, .run] : List Tdi), ({ State.reset with tdi := t } : State).tdi = t) ∧
    (1024 : BitVec 16).getLsbD 10 = true ∧ (5 : BitVec 16).getLsbD 10 = false ∧
    (let s : State := { State.reset with pkgset := true, pkgnum := 5 };
      s.pkgset = true ∧ (s.pkgnum == (1029 : BitVec 16).setWidth 10) = true ∧ (s.pkgnum == (1024 : BitVec 16).setWidth 10) = false ∧
        (1029 : BitVec 16).getLsbD 10 = true) := by decide +kernel

/-- The state of a kernel with CID 5 that may be debugged, with a session, its core as given. -/
def debugged (c : Core) : State :=
  { state c with
    cores := [(0, { c with kernel := some (3, 5), dbgctl := 1 })]
    kernels := [{ placedKernel 0 with queue := 3, cid := 5, session := true }]
    dbgsel := BitVec.ofNat 64 (2 ^ 57) }

/-- A debug command: its code, for core 0 of CID 5. -/
def debugCmd (op : Nat) : W64 := BitVec.ofNat 64 (5 * 2 ^ 32 + op)

theorem witness_DebugCommandResults :
    (∀ op ∈ [1, 2, 3, 4, 5, 6, 7, 8], let v := debugCmd op;
      fld v 63 32 = 5 ∧ fld v 31 17 = 0 ∧ fld v 7 4 = 0 ∧ fld v 3 0 = op) ∧
    (let s := debugged (core 3 []);
      s.answers false ∧ (s.kernels.find? fun k => k.cid == 5).any (fun k => s.debuggable k && k.session &&
        (k.named (debugCmd 3)).any fun n => (s.core n).run == .running) = true) := by
  decide +kernel

theorem witness_DebugCommandResults_edits :
    let s := debugged { flying [item 9 true (.setP true)] (core 3 []) with run := .debug false };
    s.answers false ∧ (s.kernels.find? fun k => k.cid == 5).any (fun k => s.debuggable k && k.session &&
      !((k.named (debugCmd 4)).filter s.halted).isEmpty && k.state == .running && k.named (debugCmd 6) == [0] &&
      k.named (debugCmd (6 + 2 ^ 16)) == [0] && s.heldHalted 0 &&
        (let (space, part, idx) := s.selected
        ((s.core 0).debugGet 0 space part idx).isSome && ((s.core 0).debugPut space part idx (readBytes s.dbgbuf 0 256)).isSome &&
          ((s.core 0).a.inflight[idx]?).any fun i => !i.act.isGate)) = true := by
  decide +kernel

theorem witness_DebugCommandResults_refused :
    (let s := debugged (core 3 []);
      (s.kernels.find? fun k => k.cid == 5).any (fun k => (k.named (debugCmd 6)).any fun n => !s.heldHalted n) = true) ∧
    let s : State := { debugged { core 3 [] with run := .debug false } with dbgsel := BitVec.ofNat 64 (2 ^ 57 + 10) };
    (s.kernels.find? fun k => k.cid == 5).any (fun k => (k.named (debugCmd 6)).any fun n => s.heldHalted n &&
      (let (space, part, idx) := s.selected
      ((s.core n).debugGet n space part idx).isNone && ((s.core n).debugPut space part idx (readBytes s.dbgbuf 0 256)).isNone)) = true := by
  decide +kernel

theorem witness_ScanFirmwareResults :
    (State.reset.ready = true ∧ State.reset.recovery = false ∧ State.reset.nextScan = some 0 ∧ State.reset.scanning = none ∧
      State.reset.pairFree 0 = true ∧ State.reset.standby = true ∧ State.reset.session = none ∧ State.reset.probation = false) ∧
    (let s : State := { state (core 3 []) with phys := State.reset.ms 200 };
      s.nextScan = some 0 ∧ (s.kernels.find? fun k => (k.place.take k.n).any fun n => pairOf n == 0).any (fun k =>
        k.state == .running && s.ms 200 ≤ s.phys - Nat.max s.scanSince k.since) = true ∧
        ((upto 96).find? fun q => s.pairFree q && dieOf (2 * q) == dieOf 0).isSome = true) ∧
    (let s : State := { state { core 3 [] with run := .frozen } with kernels := [{ placedKernel 0 with state := .frozen }] };
      s.nextScan = some 0 ∧ (s.kernels.find? fun k => (k.place.take k.n).any fun n => pairOf n == 0).any (fun k =>
        s.atRest k && !s.preempts k) = true) ∧
    (let s : State := { State.reset with scanning := some 7, phys := State.reset.ms 10000, session := some .host, probation := true };
      s.scanning = some 7 ∧ coreMhz s.freq * 100 ≤ s.phys - s.beatAt ∧ s.ms 1 ≤ s.phys - s.beatAt ∧ s.session = some .host ∧
        Master.host ≠ .sideBand ∧ s.probation = true ∧ s.ms 10000 ≤ s.phys - s.probationAt) ∧
    let s : State := { State.reset with recovery := true, ready := false, session := some .sideBand };
    s.recovery = true ∧ s.lifecycle ≠ .scrapped ∧ s.session = some .sideBand ∧ s.silent .sideBand = false := by decide +kernel

theorem witness_TrustedInterfaceResults :
    State.reset.ready = true ∧ State.reset.recovery = false ∧ (State.reset.measurement 1).isSome = true ∧ State.reset.tdi = .configUnlocked ∧
    State.reset.ide = false ∧ ({ State.reset with ide := true } : State).ide = true ∧ State.reset.stopping = false ∧
    (∀ t ∈ ([.configLocked, .run, .error] : List Tdi), ({ State.reset with tdi := t } : State).tdi = t) ∧
    ({ State.reset with wiping := true, stopping := true } : State).wiping = true ∧ lifecycleStep .deployed .returned = true ∧
    State.reset.lifecycle ≠ .scrapped ∧ State.reset.identity.isSome = true ∧ Master.host ∉ State.reset.agreed ∧
    Master.host ∈ ({ State.reset with agreed := [.host] } : State).agreed ∧ State.reset.silent .host = false ∧
    ({ State.reset with lifecycle := .blank } : State).silent .host = true ∧
    ({ State.reset with lifecycle := .blank } : State).silent .sideBand = false ∧
    (∀ w ∈ [true, false], let s : State := { State.reset with tdi := .error, wiping := w };
      s.ready = true ∧ s.recovery = false ∧ s.tdi = .error ∧ s.wiping = w ∧ s.stopping = false) ∧
    (∀ r ∈ [true, false], let s : State := { State.reset with lifecycle := .blank, ready := false, recovery := r };
      s.lifecycle ≠ .scrapped ∧ lifecycleStep s.lifecycle .provisioned = true ∧ lifecycleStep s.lifecycle .deployed = false) ∧
    ({ State.reset with lifecycle := .scrapped } : State).lifecycle = .scrapped := by
  decide +kernel

theorem witness_ResetPowerResults :
    State.reset.ready = true ∧ State.reset.recovery = false ∧ State.reset.slotA.failed = false ∧ State.reset.slotB.failed = false ∧
    ({ State.reset with zeroFill := true } : State).zeroFill = true ∧ State.reset.thermal = false ∧ State.reset.stepAt = none ∧
    ({ State.reset with thermal := true } : State).thermal = true ∧ State.reset.lifecycle ≠ .scrapped ∧
    ({ State.reset with recovery := true, ready := false } : State).recovery = true := by decide +kernel

/-! ## The machine as a whole -/

theorem witness_EncodedWordsDecode : (Instr.add true (.s 1) ⟨.s 2, false⟩ ⟨.s 3, true⟩).encode.isSome = true := by decide

theorem witness_ResetMeetsInvariant : State.Inv State.reset :=
  ⟨by decide, by decide, by decide, by decide, by decide, by decide, by decide⟩

theorem witness_StepKeepsInvariant : State.Inv State.reset ∧ ∃ t, step State.reset = .next t := ⟨witness_ResetMeetsInvariant, _, rfl⟩

/-- The reset state with the word of `addi` placed where the next step fetches it, its segment entered before. -/
def placed : State :=
  (State.reset.withFetchWord 32 0x1001_C22C).modCore 0 fun c => { c with a := { c.a with again := true } }

theorem fetched {s : State} {c : Core} {P : Bundle → Core → Prop} [∀ b d, Decidable (P b d)]
    (h : (match s.fetchBundle c with | .ok (b, d) => decide (P b d) | .error _ => false) = true) :
    ∃ b d, s.fetchBundle c = .ok (b, d) ∧ P b d := by
  split at h
  · next b d hb => exact ⟨b, d, hb, of_decide_eq_true h⟩
  · cases h

theorem witness_StepRunsDecodedWords :
    let n := placed.cur
    let c := placed.core n
    let r := placed.reach n c.a.next
    (placed.agenda = [] ∧ c.run = .running ∧ c.budget ≠ 0 ∧ c.dueLt = none ∧ placed.stopLt c = none ∧ c.a.next - c.a.lt < c.budget ∧ c.a.next + 1 ≤ maxLt ∧
      c.a.pc % 64 ≠ 0 ∧ c.a.pc % 4 = 0 ∧ r.fetchNeed (r.core n) 12 c.a.pc = none) ∧ ∃ b d, r.fetchBundle (r.core n) = .ok (b, d) ∧
        (d.bundleTrap b.words = none ∧ (b.sstart = true → d.a.superNext = true) ∧ ((d.a.superNext = true ∨ b.sege = true) → d.a.again = true) ∧
          b.words.map (fun p => (p.1, Instr.ofWord p.2)) = [(c.a.pc, .ok (.addi false (.s 1) ⟨.one, false⟩ 0x2C))]) :=
  ⟨by decide +kernel, fetched (by decide +kernel)⟩

theorem witness_WordsChangeTheirCoreAlone : isWordInstr (.nop false 0) = true ∧ (Instr.nop false 0).isSfx = false ∧
    (∃ t, exec (.nop false 0) State.reset = .next t) ∧
    isWordInstr (.sfxArv false 4) = true ∧ ∃ t, exec (.sfxArv false 4) (state (barred 1 (core 3 []))) = .next t :=
  ⟨rfl, rfl, ⟨_, rfl⟩, rfl, _, rfl⟩

/-- A front-end core whose store has failed, on either side. -/
theorem witness_WordsChangeTheirCoreAlone_front : ∀ d ∈ [true, false],
    let s : State := ({ State.reset with agenda := [.front d] } : State).setFront d { State.reset.front d with sound := false }
    s.agenda = .front d :: [] ∧ (∃ t, step s = .next t) ∧ (s.front d).sound = false := by
  intro d hd
  cases d <;> exact ⟨rfl, ⟨_, rfl⟩, rfl⟩

/-- A result on its way to s2 that has come to its LT, and one for `zero`. -/
theorem witness_LandingStoreEffects_landing : let c := core 3 (heads 5 6 7 8);
    (∀ d ∈ ([.s 2, .zero] : List Port), (item 9 true (.land d (some .s) (val 5))).act = .land d (some .s) (val 5) ∧
      succeeds (c.perform c 9 (item 9 true (.land d (some .s) (val 5)))) = true) ∧
    (Port.s 2) ≠ .zero ∧ Port.num (.s 0) ≠ Port.num (.s 2) ∧ Latch.num .m ≠ Latch.num .s := by decide +kernel

/-- A core whose scratchpad holds at 64 the word 5 twice, at 128 element poison, at 192 scale poison. -/
def stored : Core :=
  { core 3 [] with
    spad := writeBytes [] 64 (toBytes 8 (5 + 5 <<< 32))
    spadBad := [(128 / 4, { elem := true, scale := false }), (192 / 4, { elem := false, scale := true })] }

/-- Reads of clean and of poisoned words, and one that meets a store to come. -/
theorem witness_LandingStoreEffects_reads : let kind (a : Nat) : Kind := (stored.spadWord a).k;
    (∀ a ∈ [64, 128, 192], ∀ n ∈ [4, 8, 256], stored.pendingWord 4 1 9 a n = none) ∧ (kind 64).poisoned = false ∧ (kind 68).poisoned = false ∧
      (kind 128).poisoned = true ∧ (kind 128).scale = false ∧ (kind 132).scale = false ∧ (kind 192).scale = true ∧
      (pending stored).pendingWord 4 1 9 64 8 = some 64 ∧ (pending stored).pendingWord 4 1 9 64 256 = some 64 ∧
      (∀ a ∈ ([.readScalar 64 (.s 2) 12, .readVec 64 (.v 2) 12, .readLanes true [none, some 64] (.v 2) 12, .readLanes false [some 128] (.v 2) 12,
        .readRow none 8 64 256, .readRow (some 64) 64 64 256] : List Act), does stored a = true) := by decide +kernel

/-- Atomics on clean words of either width, the second lane of the last on the address of the first. -/
theorem witness_LandingStoreEffects_atomics :
    (∀ op ∈ ([0, 1, 2, 3, 4, 5, 6] : List (BitVec 3)), ∀ wide ∈ [true, false], does stored (.readAtom op wide 64 7 (.s 2)) = true) ∧
      widthOf (fVtype 3) = 32 ∧ (∀ l < 2, (val 7).elemKind 32 l = .clean) ∧
      does stored (.readVatom 3 [some (64, 0), some (64, 0)] (val 7) (.v 2)) = true := by decide +kernel

/-- Flags, latches and registers that take a value. -/
theorem witness_LandingStoreEffects_registers : (∀ a ∈ ([.flags 3, .setP true, .setM 5, .setMxmode 2, .setAmpmode true, .loopFmtsel 4] : List Act),
    does (core 3 []) a = true) ∧ ∀ y ∈ [0x01, 0x03, 0x04, 0x08, 0x0C, 0x20, 0x2F, 0x100, 0x101], does (core 3 []) (.sysWrite y 5) = true := by
  decide +kernel

/-- A store of two words at the top of the scratchpad. -/
theorem witness_LandingStoreEffects_write : let c := core 3 []; let ws := [{ w := 5, k := .clean }, { w := 6, k := .clean }];
    (item 9 true (.write (spadSize - 8) ws)).act = .write (spadSize - 8) ws ∧ (spadSize - 8) % 4 = 0 ∧ ws[1]? = some { w := 6, k := .clean } ∧
      succeeds (c.perform c 9 (item 9 true (.write (spadSize - 8) ws))) = true := by decide +kernel

theorem witness_ItemsKeepScratchpadCanonical : Memory.wf (core 3 []).spad = true ∧
    ∃ c', (core 3 []).perform (core 3 []) 9 (item 9 true (.write 64 [{ w := 5, k := .clean }])) = .ok c' := ⟨rfl, _, rfl⟩

theorem witness_TrapEntryEffects : let u := takeTrap 0 (Trap.at_ .range 4) (state (core 3 []));
    (u.core 0).run = .trapped ∧ u.reports.getLast?.isSome = true := by decide +kernel

/-! ## Single steps and the spec's worked values -/

/-- What a word puts in flight. -/
def acts (i : Instr) (s : State) : List Act :=
  match exec i s with
  | .next t => (t.core 0).a.inflight.map Item.act
  | _ => []

/-- The example of R132. -/
theorem test_mulh : acts (.mulh false (.s 2) s0 s1) (ready 3 0x8000_0000_0000_0000 0x8000_0000_0000_0000 0 0) =
    [.land (.s 2) (some .s) (val 0x4000_0000_0000_0000)] := by decide +kernel

theorem test_mul_wraps : acts (.mul false (.s 2) s0 s1) (ready 3 0x8000_0000_0000_0000 0x8000_0000_0000_0000 0 0) =
    [.land (.s 2) (some .s) (val 0)] := by decide +kernel

/-- The examples of R138. -/
theorem test_bfx_window : acts (.bfx false (.s 2) s0 s1) (ready 3 0x1400_0012_3456 0x062A 0 0) =
    [.land (.s 2) (some .s) (val 5)] := by decide +kernel

theorem test_bfx_offset : acts (.bfx false (.s 2) s0 s1) (ready 3 0x1400_0012_3456 0x2A00 0 0) =
    [.land (.s 2) (some .s) (val 0x12_3456)] := by decide +kernel

/-- R135: a count of 64 shifts every bit out. -/
theorem test_shl_64 : acts (.shl false (.s 2) s0 s1) (ready 3 5 64 0 0) = [.land (.s 2) (some .s) (val 0)] := by decide +kernel

/-- R134: the result and P. -/
theorem test_clt_signed : acts (.clt false (.s 2) s0 s1) (ready 3 0xFFFF_FFFF_FFFF_FFFF 0 0 0) =
    [.land (.s 2) (some .s) (val 1), .setP true] := by decide +kernel

/-- The worked conversions of section 3: source code, destination format, result and flags. -/
theorem test_conversions : ∀ e ∈ ([(0x3F35_04F3, 8, 0x3F35, Flags.inexact), (0x3F35_04F3, 7, 0x39A8, Flags.inexact),
      (0x3F35_04F3, 5, 0x33, Flags.inexact), (0x3F35_04F3, 4, 0x1, Flags.underflow ||| Flags.inexact), (0x43E8_0000, 5, 0x7E, Flags.inexact),
      (0x43FA_0000, 5, 0x7E, Flags.saturate ||| Flags.inexact), (0x40A0_0000, 4, 0x6, Flags.inexact),
      (0x40E0_0000, 4, 0x7, Flags.saturate ||| Flags.inexact), (0xBE80_0000, 4, 0x8, Flags.underflow ||| Flags.inexact),
      (0xC348_8000, 0, 0x80, Flags.saturate ||| Flags.inexact)] : List (Nat × Nat × Nat × Flags)),
    convElem 9 e.2.1 0 e.1 = e.2.2 := by decide +kernel

/-- The example of R174: the fused result is exact. -/
theorem test_vfma_fused : elemFma false 9 0 0x3F80_0001 0x3F7F_FFFE 0xBF80_0000 = (0xA880_0000, 0) := by decide +kernel

/-- The example of R179. -/
theorem test_vrcp_rounds : fnCode .rcp 9 0 0x4040_0000 = (0x3EAA_AAAB, Flags.inexact) ∧ (fnCode .rcp 9 1 0x4040_0000).1 = 0x3EAA_AAAA := by
  decide +kernel

/-- The example of R183. -/
theorem test_vhash_lane : hashLane 1 0x9E37_79B9_7F4A_7C15 = 0x9E37_79BD := by decide +kernel

/-- The example of R194: a dither of 1023 rounds up, one of 1024 down. -/
theorem test_vcvts_dither : (ditherCode 8 1023 (valOf 9 0x3F80_4000)).1 = 0x3F81 ∧ (ditherCode 8 1024 (valOf 9 0x3F80_4000)).1 = 0x3F80 := by
  decide +kernel

/-- R124: a misaligned load traps with RANGE, code 0x0E, and the address of its word. -/
theorem test_load_misaligned : (match exec (.ld false (.s 2) s0 4) (ready 3 0 0 0 0) with
    | .next t => ((t.core 0).run == .trapped && (t.core 0).a.trapcode == 0x0E && (t.core 0).a.faultaddr == 4)
    | _ => false) = true := by decide +kernel

/-- R107: an empty queue underflows, code 0x09. -/
theorem test_underflow : (match exec (.mov false (.s 2) s0) (state (core 3 [])) with
    | .next t => ((t.core 0).a.trapcode == 0x09) | _ => false) = true := by decide +kernel

/-- R124: a read takes the head of its queue, a peek leaves it. -/
theorem test_pop_and_peek : (match exec (.add false (.s 2) ⟨.s 0, true⟩ s0) (ready 3 5 0 0 0) with
    | .next t => ((t.core 0).a.landed (.s 0) == [] && (t.core 0).a.inflight.map Item.act == [.land (.s 2) (some .s) (val 10)])
    | _ => false) = true := by decide +kernel

/-- R147, R162: idling moves the next bundle. -/
theorem test_nop_idles : (match exec (.nop false 3) (ready 3 0 0 0 0) with | .next t => (t.core 0).cx.next == 5 | _ => false) = true := by
  decide +kernel

/-- R53: the payload of `pfx.imm` stands above the field. -/
theorem test_prefixed_immediate : acts (.movi false (.s 2) 0x3456)
    (state { core 3 [] with cx := { (core 3 []).cx with imm := some 0x12 } }) = [.land (.s 2) (some .s) (val 0x12_3456)] := by decide +kernel

/-- R412: `wrsys` of FLAGS gives the old value and writes the new one. -/
theorem test_wrsys_exchanges : acts (.wrsys false (.s 2) s0 0x03) (ready 3 7 0 0 0) =
    [.sysWrite 0x03 7, .land (.s 2) (some .s) (val 0)] := by decide +kernel

/-- One step from the placed state issues the word and advances past it. -/
theorem test_step_runs_word : (match step placed with
    | .next t => ((t.core 0).a.inflight.map Item.act == [.land (.s 1) (some .s) (val 0x2D)] && (t.core 0).a.pc == (placed.core 0).a.pc + 4)
    | _ => false) = true := by decide +kernel

end Sys2Proof.Tests
end

section
/-! PROOFS. Moves, immediates, counts and queue words (R53, R116-R120, R136, R137): what their effects answer, and the statements
on them. -/
namespace Sys2Proof.Machine

/-! ## Completing with what the effect puts in flight -/

/-- A word whose effect leaves the queues as its operands did and puts some entries in flight delivers them. -/
theorem delivers_of {i : Instr} {body : Body} {s : State} {qs : SMap (List Val)} {es : List Item} {lt : Nat}
    (he : exec i s = issue i body s) (hb : body s s.issuing = .ok (s.adding qs es lt)) : Passes i s → Delivers i s qs es lt :=
  fun hp => completes_of hp he hb

/-- The core before any operand is read, with nothing put in flight. -/
theorem State.issuing_eq_adding (s : State) : s.issuing = s.adding s.issuing.a.queues [] s.issuing.now :=
  State.adding_nil s s.issuing.a.queues

/-- A scalar result of a word that reads no operand. -/
theorem State.issuing_deliverS (s : State) (d : Port) (v : W64) (lat : Nat) :
    s.issuing.deliverS d v lat = s.adding s.issuing.a.queues [s.resultS d v lat] (s.issuing.now + lat) := by
  conv => lhs; rw [State.issuing_eq_adding]
  exact State.adding_deliverS ..

/-- R130: a word of one operand delivers the function of it after one LT. -/
theorem unary_of_readsS {s : State} {a : Src} {x : W64} {qs : SMap (List Val)} (h : ReadsS s a x qs) (d : Port)
    (f : W64 → W64) : s.issuing.unary d a f = .ok (s.adding qs [s.resultS d (f x) 1] (s.issuing.now + 1)) := by
  have hd := State.adding_deliverS s qs [] s.issuing.now d (f x) 1
  rw [Core.unary, readsS_eq h]
  exact congrArg Except.ok hd

/-! ## Sign extension and the payload of `pfx.imm` (R53) -/

/-- A two's-complement field read as an integer is the signed value of its bits. -/
theorem sextInt_toNat {w : Nat} (i : BitVec w) : sextInt i.toNat w = i.toInt := by
  have hpow : ((2 ^ w : Nat) : Int) = (2 : Int) ^ w := Int.natCast_pow 2 w
  simp only [sextInt, Nat.mod_eq_of_lt i.isLt, BitVec.toInt_eq_toNat_cond, hpow]

/-- A payload placed above a field is the concatenation of the two. -/
theorem toNat_append_eq_add {v w : Nat} (p : BitVec v) (i : BitVec w) : i.toNat + p.toNat <<< w = (p ++ i).toNat := by
  rw [BitVec.toNat_append, Nat.add_comm, Nat.shiftLeft_add_eq_or_of_lt i.isLt]

theorem Core.immS_of_none {c : Core} (h : c.cx.imm = none) {w : Nat} (i : BitVec w) : c.immS w i.toNat = i.toInt := by
  simp only [Core.immS, h, sextInt_toNat]

theorem Core.immU_of_none {c : Core} (h : c.cx.imm = none) {w : Nat} (i : BitVec w) : c.immU w i.toNat = i.toNat := by
  simp only [Core.immU, h]

theorem Core.immS_of_some {c : Core} {p : BitVec 23} (h : c.cx.imm = some p) {w : Nat} (i : BitVec w) :
    c.immS w i.toNat = (p ++ i).toInt := by
  simp only [Core.immS, h, toNat_append_eq_add, Nat.add_comm w, sextInt_toNat]

theorem Core.immU_of_some {c : Core} {p : BitVec 23} (h : c.cx.imm = some p) {w : Nat} (i : BitVec w) :
    c.immU w i.toNat = (p ++ i).toNat := by
  simp only [Core.immU, h, toNat_append_eq_add]

/-! ## Counts of bits (R137) -/

theorem rangeFrom_eq_range' (n : Nat) : ∀ lo, rangeFrom lo n = List.range' lo n := by
  induction n with
  | zero => intro lo; rfl
  | succ n ih => intro lo; rw [rangeFrom, ih, List.range'_succ]

theorem upto_eq_range (n : Nat) : upto n = List.range n := by
  rw [upto, rangeFrom_eq_range', List.range_eq_range']

/-- The count of set bits is the number of the positions that hold one. -/
theorem popCount_eq_length (v n : Nat) : popCount v n = ((List.range n).filter fun k => v.testBit k).length := by
  rw [popCount, upto_eq_range, ← List.foldl_filter (f := fun s _ => s + 1), List.foldl_add_const, Nat.zero_add, Nat.one_mul]
  rfl

/-- The zero bits above the highest set bit; all 64 of zero. -/
def leadingZeros (x : W64) : Nat := if x.toNat = 0 then 64 else 63 - Nat.log2 x.toNat

theorem clzW_eq (x : W64) : clzW x = BitVec.ofNat 64 (leadingZeros x) := by
  simp only [clzW, leadingZeros, beq_iff_eq]

theorem leadingZeros_le (x : W64) : leadingZeros x ≤ 64 := by
  unfold leadingZeros
  split <;> omega

theorem log2_toNat_lt {x : W64} (h : x.toNat ≠ 0) : Nat.log2 x.toNat < 64 := (Nat.log2_lt h).2 x.isLt

/-- Every bit above the highest set bit is zero. -/
theorem getLsbD_of_lt_leadingZeros {x : W64} {k : Nat} (hk : k < leadingZeros x) : x.getLsbD (63 - k) = false := by
  rw [← BitVec.testBit_toNat]
  unfold leadingZeros at hk
  split at hk
  · next h => rw [h, Nat.zero_testBit]
  · next h =>
    refine Nat.testBit_lt_two_pow (Nat.lt_of_lt_of_le Nat.lt_log2_self (Nat.pow_le_pow_right Nat.two_pos ?_))
    omega

/-- The bit below the leading zeros is the highest set bit. -/
theorem getLsbD_leadingZeros {x : W64} (hx : leadingZeros x < 64) : x.getLsbD (63 - leadingZeros x) = true := by
  rw [← BitVec.testBit_toNat]
  unfold leadingZeros at hx ⊢
  split at hx
  · omega
  · next h =>
    have hlog := log2_toNat_lt h
    rw [if_neg h, show 63 - (63 - Nat.log2 x.toNat) = Nat.log2 x.toNat by omega, Nat.testBit_log2 h]

/-! ## Moves, immediates and counts -/

/-- R116: `mov` is the word of one operand whose function is the identity. -/
theorem exec_mov (ch : Bool) (d : Port) (a : Src) (s : State) :
    exec (.mov ch d a) s = issue (.mov ch d a) (fun _ c => c.unary d a id) s := rfl

theorem exec_addi (ch : Bool) (d : Port) (a : Src) (i : BitVec 8) (s : State) : exec (.addi ch d a i) s =
    issue (.addi ch d a i) (fun _ c => c.unary d a fun x => x + BitVec.ofInt 64 (c.immS 8 i.toNat)) s := rfl

theorem exec_movi (ch : Bool) (d : Port) (i : BitVec 16) (s : State) : exec (.movi ch d i) s =
    issue (.movi ch d i) (fun _ c => .ok (c.deliverS d (BitVec.ofInt 64 (c.immS 16 i.toNat)) 1)) s := rfl

theorem exec_clz (ch : Bool) (d : Port) (a : Src) (s : State) :
    exec (.clz ch d a) s = issue (.clz ch d a) (fun _ c => c.unary d a clzW) s := rfl

theorem exec_popc (ch : Bool) (d : Port) (a : Src) (s : State) : exec (.popc ch d a) s =
    issue (.popc ch d a) (fun _ c => c.unary d a fun x => BitVec.ofNat 64 (popCount x.toNat 64)) s := rfl

section
variable {s : State} {a : Src} {x : W64} {qs : SMap (List Val)}

theorem mov_gives (h : ReadsS s a x qs) (ch : Bool) (d : Port) : GivesS (.mov ch d a) s qs d x 1 :=
  delivers_of (exec_mov ..) (unary_of_readsS h d id)

theorem addi_gives (h : ReadsS s a x qs) (ch : Bool) (d : Port) (i : BitVec 8) :
    GivesS (.addi ch d a i) s qs d (x + BitVec.ofInt 64 (s.issuing.immS 8 i.toNat)) 1 :=
  delivers_of (exec_addi ..) (unary_of_readsS h d _)

theorem movi_gives (s : State) (ch : Bool) (d : Port) (i : BitVec 16) :
    GivesS (.movi ch d i) s s.issuing.a.queues d (BitVec.ofInt 64 (s.issuing.immS 16 i.toNat)) 1 :=
  delivers_of (exec_movi ..) (congrArg Except.ok (State.issuing_deliverS ..))

theorem clz_gives (h : ReadsS s a x qs) (ch : Bool) (d : Port) :
    GivesS (.clz ch d a) s qs d (BitVec.ofNat 64 (leadingZeros x)) 1 := by
  rw [← clzW_eq]
  exact delivers_of (exec_clz ..) (unary_of_readsS h d clzW)

theorem popc_gives (h : ReadsS s a x qs) (ch : Bool) (d : Port) :
    GivesS (.popc ch d a) s qs d (BitVec.ofNat 64 ((List.range 64).filter fun k => x.getLsbD k).length) 1 := by
  have hcount : popCount x.toNat 64 = ((List.range 64).filter fun k => x.getLsbD k).length := popCount_eq_length x.toNat 64
  rw [← hcount]
  exact delivers_of (exec_popc ..) (unary_of_readsS h d _)

end

/-- Settles O4: every word of the family is a function of one operand (`unary_of_readsS`) or of none, and the immediate of a word is
the concatenation of the payload and the field. -/
theorem unaryScalarResults : Obligations.UnaryScalarResults := by
  unfold Obligations.UnaryScalarResults
  refine ⟨fun s ch d a x qs h => ⟨mov_gives h ch d, addi_gives h ch d, movi_gives s ch d, ?_, popc_gives h ch d⟩,
    fun c => ⟨?_, ?_⟩⟩
  · exact ⟨leadingZeros x, leadingZeros_le x, fun _ => getLsbD_of_lt_leadingZeros, getLsbD_leadingZeros, clz_gives h ch d⟩
  · intro hn
    exact ⟨Core.immS_of_none hn, Core.immS_of_none hn, fun i => ⟨Core.immS_of_none hn i, Core.immU_of_none hn i⟩⟩
  · intro p hp
    exact ⟨Core.immS_of_some hp, Core.immS_of_some hp, fun i => ⟨Core.immS_of_some hp i, Core.immU_of_some hp i⟩⟩

/-! ## Dropping entries of a queue (R119) -/

/-- Dropping the entry of a key undoes its insertion. -/
theorem SMap.erase_insert (m : SMap α) (n : Nat) (v : α) : SMap.erase (SMap.insert m n v) n = SMap.erase m n := by
  induction m with
  | nil => simp only [SMap.insert, SMap.erase, List.filter_cons, bne_self_eq_false, Bool.false_eq_true, ↓reduceIte]
  | cons e r ih =>
    simp only [SMap.erase] at ih
    simp only [SMap.insert, SMap.erase]
    split
    · simp only [List.filter_cons, bne_self_eq_false, Bool.false_eq_true, ↓reduceIte]
    · simp only [List.filter_cons, ih]

theorem SMap.erase_erase (m : SMap α) (n : Nat) : SMap.erase (SMap.erase m n) n = SMap.erase m n := by
  simp only [SMap.erase, List.filter_filter, Bool.and_self]

theorem SMap.erase_set [DecidableEq α] (d : α) (m : SMap α) (n : Nat) (v : α) :
    SMap.erase (SMap.set d m n v) n = SMap.erase m n := by
  unfold SMap.set
  split
  · exact SMap.erase_erase m n
  · rw [SMap.erase_insert, SMap.erase_erase]

/-- The second of two writes of one key stands. -/
theorem SMap.set_set [DecidableEq α] (d : α) (m : SMap α) (n : Nat) (v w : α) :
    SMap.set d (SMap.set d m n v) n w = SMap.set d m n w := by
  conv => lhs; rw [SMap.set, SMap.erase_set]
  rfl

@[simp] theorem Arch.landed_setLanded (a : Arch) (q : Port) (vs : List Val) : (a.setLanded q vs).landed q = vs :=
  SMap.get_set_same ..

@[simp] theorem Arch.setLanded_setLanded (a : Arch) (q : Port) (vs ws : List Val) :
    (a.setLanded q vs).setLanded q ws = a.setLanded q ws := by
  simp only [Arch.setLanded, SMap.set_set]

/-- A pop of a queue with a landed entry takes it off. -/
theorem Core.readQueue_of_cons {c : Core} {q : Port} {v : Val} {r : List Val} (h : c.a.landed q = v :: r) :
    c.readQueue q false = .ok (v, { c with a := c.a.setLanded q r }) := by
  simp only [Core.readQueue, h, Bool.false_eq_true, ↓reduceIte]

/-- Popping entries that have all landed leaves the rest of the queue. -/
theorem Core.popMany_succ (q : Port) (n : Nat) : ∀ c : Core, n < (c.a.landed q).length →
    c.popMany q (n + 1) = .ok { c with a := c.a.setLanded q ((c.a.landed q).drop (n + 1)) } := by
  induction n with
  | zero =>
    intro c h
    obtain ⟨v, r, hq⟩ := List.exists_cons_of_length_pos h
    rw [Core.popMany, Core.readQueue_of_cons hq, hq]
    rfl
  | succ n ih =>
    intro c h
    obtain ⟨v, r, hq⟩ := List.exists_cons_of_length_pos (Nat.zero_lt_of_lt h)
    have hr := ih { c with a := c.a.setLanded q r } (by
      rw [hq, List.length_cons] at h
      rw [Arch.landed_setLanded]
      exact Nat.lt_of_succ_lt_succ h)
    rw [Core.popMany, Core.readQueue_of_cons hq, hq]
    simp only [Arch.landed_setLanded, Arch.setLanded_setLanded] at hr
    exact hr

/-- A word that its checks let issue has the fields its entry names. -/
theorem fieldWf_of_passes {i : Instr} {s : State} (hp : Passes i s) : i.fieldWf = true := by
  cases hf : i.fieldWf with
  | true => rfl
  | false =>
    rw [Passes, Instr.wordTrap?, hf, Bool.not_false, Bool.true_or, if_pos rfl] at hp
    cases hp

/-- R119: a count of zero is a field that the checks of `qdrop` refuse. -/
theorem qdrop_count_pos {ch : Bool} {q : Port} {n : BitVec 8} {s : State} (hp : Passes (.qdrop ch q n) s) : 0 < n.toNat := by
  have hf := fieldWf_of_passes hp
  simp only [Instr.fieldWf, Instr.fieldsOk, Bool.and_eq_true, bne_iff_ne] at hf
  obtain ⟨⟨hn, -⟩, -⟩ := hf
  exact Nat.pos_of_ne_zero fun h0 => hn (BitVec.eq_of_toNat_eq h0)

/-- The queues with one of them written hold in it what was written. -/
theorem State.adding_landed (s : State) (q : Port) (vs : List Val) (es : List Item) (lt : Nat) :
    (s.adding (SMap.set [] s.issuing.a.queues (Port.num q) vs) es lt).a.landed q = vs := SMap.get_set_same ..

theorem exec_qdrop (ch : Bool) (q : Port) (n : BitVec 8) (s : State) : exec (.qdrop ch q n) s =
    issue (.qdrop ch q n) (fun _ c => do
      let c ← c.popMany q n.toNat
      .ok (c.deliverS .zero (BitVec.ofNat 64 (c.a.landed q).length) 1)) s := rfl

theorem qdrop_gives (s : State) (ch : Bool) (q : Port) (n : BitVec 8) (hn : n.toNat ≤ (s.issuing.a.landed q).length) :
    GivesS (.qdrop ch q n) s (SMap.set [] s.issuing.a.queues (Port.num q) ((s.issuing.a.landed q).drop n.toNat)) .zero
      (BitVec.ofNat 64 ((s.issuing.a.landed q).length - n.toNat)) 1 := by
  intro hp
  obtain ⟨k, hk⟩ := Nat.exists_eq_add_one_of_ne_zero (Nat.ne_of_gt (qdrop_count_pos hp))
  refine delivers_of (exec_qdrop ..) ?_ hp
  rw [hk, Core.popMany_succ q k s.issuing (by omega), Arch.setLanded, State.adding_nil]
  refine congrArg Except.ok ((State.adding_deliverS ..).trans ?_)
  rw [State.adding_landed, List.length_drop]
  rfl

/-! ## The length of a queue (R120) and vector moves (R117) -/

theorem Core.queueWord_eq (c : Core) (q : Port) : c.queueWord q =
    BitVec.ofNat 64 ((c.a.landed q).length % 16 + 16 * (c.reservedBefore q % 16) + 256 * Port.depth q) := by
  simp only [Core.queueWord, Nat.shiftLeft_eq, Nat.mul_comm]

theorem exec_qlen (ch : Bool) (d q : Port) (s : State) :
    exec (.qlen ch d q) s = issue (.qlen ch d q) (fun _ c => .ok (c.deliverS d (c.queueWord q) 1)) s := rfl

theorem qlen_gives (s : State) (ch : Bool) (d q : Port) :
    GivesS (.qlen ch d q) s s.issuing.a.queues d (s.issuing.queueWord q) 1 :=
  delivers_of (exec_qlen ..) (congrArg Except.ok (State.issuing_deliverS ..))

theorem exec_vmov (ch : Bool) (d : Port) (a : Src) (s : State) : exec (.vmov ch d a) s =
    issue (.vmov ch d a) (fun _ c => do let (v, c) ← c.readV a; .ok (c.deliverV d v 0 1)) s := rfl

theorem vmov_gives {s : State} {a : Src} {v : Val} {qs : SMap (List Val)} (h : ReadsV s a v qs) (ch : Bool) (d : Port) :
    GivesV (.vmov ch d a) s qs d (v, 0) 1 := by
  refine delivers_of (exec_vmov ..) ?_
  rw [readsV_eq h]
  exact congrArg Except.ok (State.adding_deliverV s qs [] s.issuing.now d v 0 1)

/-- Settles O5: `qdrop` by induction on the pops (`Core.popMany_succ`), its count being positive by the checks on its fields; `qlen`
and `vmov` by what they deliver. -/
theorem queueWordResults : Obligations.QueueWordResults := by
  unfold Obligations.QueueWordResults
  intro s ch d q
  refine ⟨qdrop_gives s ch q, ?_, fun a v qs h => vmov_gives h ch d⟩
  have h := qlen_gives s ch d q
  rw [Core.queueWord_eq] at h
  exact h

end Sys2Proof.Machine
end

section
/-! PROOFS. Scalar arithmetic (R125, R130-R135, R138): the functions of two operands in the words of the spec, what a word of two
operands and a compare put in flight, and the statements on them. -/
namespace Sys2Proof.Machine

/-! ## The functions of the datapath -/

/-- The upper half of an integer of 128 bits is its quotient by 2^64, rounded down. -/
theorem extractLsb'_ofInt_high (z : Int) : (BitVec.ofInt 128 z).extractLsb' 64 64 = BitVec.ofInt 64 (z / (2 : Int) ^ 64) := by
  apply BitVec.eq_of_toNat_eq
  rw [BitVec.extractLsb'_toNat, BitVec.toNat_ofInt, BitVec.toNat_ofInt, Nat.shiftRight_eq_div_pow]
  omega

/-- R132: the sign-extended operands wrap nothing away, so that `mulh` takes the upper half of their product. -/
theorem mulHigh_eq (x y : W64) : mulHigh x y = (x.signExtend 128 * y.signExtend 128).extractLsb' 64 64 := by
  have hprod : x.signExtend 128 * y.signExtend 128 = BitVec.ofInt 128 (x.toInt * y.toInt) := (BitVec.ofInt_mul ..).symm
  rw [hprod, extractLsb'_ofInt_high, mulHigh]

/-- R131: `min` keeps its first operand where the two are equal, and then they are the same word. -/
theorem ite_slt_eq_ite_toInt_le (x y : W64) : (if x.slt y then x else y) = if x.toInt ≤ y.toInt then x else y := by
  simp only [BitVec.slt_eq_decide, decide_eq_true_eq]
  rcases Int.lt_trichotomy x.toInt y.toInt with h | h | h
  · rw [if_pos h, if_pos (Int.le_of_lt h)]
  · rw [BitVec.toInt_inj.mp h, ite_self, ite_self]
  · rw [if_neg (Int.not_lt_of_ge (Int.le_of_lt h)), if_neg (Int.not_le_of_gt h)]

theorem ite_slt_swap_eq_ite_toInt_le (x y : W64) : (if y.slt x then x else y) = if x.toInt ≤ y.toInt then y else x := by
  simp only [BitVec.slt_eq_decide, decide_eq_true_eq, ← Int.not_le, ite_not]

/-- R133: a shift of the library also shifts every bit out where the count is 64 or more. -/
theorem shlW_eq (x n : W64) : shlW x n = x <<< n.toNat := by
  unfold shlW
  split
  · next h => exact (BitVec.shiftLeft_eq_zero h).symm
  · rfl

theorem shrW_eq (x n : W64) : shrW x n = x >>> n.toNat := by
  unfold shrW
  split
  · next h => exact (BitVec.ushiftRight_eq_zero h).symm
  · rfl

theorem sshiftRight_eq_of_le {x : W64} {n : Nat} (h : 64 ≤ n) : x.sshiftRight n = if x.msb then -1 else 0 := by
  cases hx : x.msb with
  | false => exact (BitVec.sshiftRight_eq_of_msb_false hx).trans (BitVec.ushiftRight_eq_zero h)
  | true =>
    rw [BitVec.sshiftRight_eq_of_msb_true hx, BitVec.ushiftRight_eq_zero h]
    rfl

theorem sraW_eq (x n : W64) : sraW x n = x.sshiftRight n.toNat := by
  unfold sraW
  split
  · next h => exact (sshiftRight_eq_of_le h).symm
  · rfl

/-! ## The field of `bfx` (R138) -/

/-- The lowest bit of the field that a control word of `bfx` names. -/
def bfxPos (ctl : W64) : Nat := (ctl.extractLsb' 0 6).toNat

/-- The length of that field, cut at bit 63. -/
def bfxLen (ctl : W64) : Nat := Nat.min (ctl.extractLsb' 8 7).toNat (64 - bfxPos ctl)

theorem fld_eq_toNat (v : W64) (hi lo : Nat) : fld v hi lo = (v.extractLsb' lo (hi + 1 - lo)).toNat :=
  (BitVec.extractLsb'_toNat ..).symm

theorem fld_bit_eq_one (v : W64) (k : Nat) : (fld v k k == 1) = v.getLsbD k := by
  have hw : k + 1 - k = 1 := by omega
  rw [← BitVec.testBit_toNat, Nat.testBit_eq_decide_div_mod_eq, fld, bitsOf, hw, Nat.shiftRight_eq_div_pow]
  rfl

/-- `bfx` extends the field by its sign or by zeros; the empty field is 0 either way. -/
theorem bfxW_eq (x ctl : W64) : bfxW x ctl =
    let field := x.extractLsb' (bfxPos ctl) (bfxLen ctl)
    if bfxLen ctl = 0 then 0 else if ctl.getLsbD 15 then field.signExtend 64 else field.setWidth 64 := by
  have hpos : fld ctl 5 0 = bfxPos ctl := fld_eq_toNat ctl 5 0
  have hlen : Nat.min (fld ctl 14 8) (64 - bfxPos ctl) = bfxLen ctl := congrArg (Nat.min · _) (fld_eq_toNat ctl 14 8)
  have hfield : bitsOf x.toNat (bfxPos ctl) (bfxLen ctl) = (x.extractLsb' (bfxPos ctl) (bfxLen ctl)).toNat :=
    (BitVec.extractLsb'_toNat ..).symm
  simp only [bfxW, hpos, hlen, hfield, fld_bit_eq_one, sextInt_toNat, BitVec.ofNat_toNat, beq_iff_eq]
  rfl

/-- R138: below the length a bit is that of the field, above it a copy of the sign or 0. -/
theorem getLsbD_bfxW (x ctl : W64) {k : Nat} (hk : k < 64) : (bfxW x ctl).getLsbD k =
    if k < bfxLen ctl then x.getLsbD (bfxPos ctl + k)
    else decide (0 < bfxLen ctl) && ctl.getLsbD 15 && x.getLsbD (bfxPos ctl + bfxLen ctl - 1) := by
  rw [bfxW_eq]
  generalize bfxPos ctl = pos, bfxLen ctl = len
  rcases Nat.eq_zero_or_pos len with rfl | hlen
  · exact BitVec.getLsbD_zero
  · have hmsb : (x.extractLsb' pos len).msb = x.getLsbD (pos + len - 1) := by
      rw [BitVec.msb_eq_getLsbD_last, BitVec.getLsbD_extractLsb', decide_eq_true (Nat.sub_one_lt_of_lt hlen), Bool.true_and,
        Nat.add_sub_assoc hlen]
    dsimp only
    rw [if_neg (Nat.ne_of_gt hlen), decide_eq_true hlen, Bool.true_and]
    cases ctl.getLsbD 15 with
    | true =>
      rw [if_pos rfl, BitVec.getLsbD_signExtend, hmsb, decide_eq_true hk, BitVec.getLsbD_extractLsb', Bool.true_and, Bool.true_and]
      split
      · next h => rw [decide_eq_true h, Bool.true_and]
      · rfl
    | false =>
      rw [if_neg Bool.false_ne_true, BitVec.getLsbD_setWidth, BitVec.getLsbD_extractLsb', decide_eq_true hk, Bool.true_and]
      split
      · next h => rw [decide_eq_true h, Bool.true_and]
      · next h => rw [decide_eq_false h, Bool.false_and, Bool.false_and]

/-! ## Words of two operands (R130) and compares (R134) -/

section
variable {s : State} {a b : Src} {x y : W64} {qs : SMap (List Val)} {i : Instr} {d : Port}

theorem binary_of_readsSS (h : ReadsSS s a b x y qs) (d : Port) (lat : Nat) (f : W64 → W64 → W64) :
    s.issuing.binary d a b lat f = .ok (s.adding qs [s.resultS d (f x y) lat] (s.issuing.now + lat)) := by
  obtain ⟨c, hx, hy⟩ := readsSS_eq h
  simp only [Core.binary, hx, hy, bind, Except.bind, State.adding_deliverS, List.nil_append]

/-- A word whose effect is a function of two operands completes with that function of what it read. -/
theorem gives_of_binary (h : ReadsSS s a b x y qs) {lat : Nat} (f : W64 → W64 → W64)
    (he : exec i s = issue i (fun _ c => c.binary d a b lat f) s) : GivesS i s qs d (f x y) lat :=
  delivers_of he (binary_of_readsSS h d lat f)

theorem exec_sel (ch : Bool) (d : Port) (a b : Src) (s : State) : exec (.sel ch d a b) s =
    issue (.sel ch d a b) (fun _ c => c.binary d a b 1 fun x y => if c.a.sys.p then x else y) s := rfl

/-- R125, R135: `sel` reads both operands and chooses by the P of the issuing core. -/
theorem sel_gives (h : ReadsSS s a b x y qs) (ch : Bool) (d : Port) :
    GivesS (.sel ch d a b) s qs d (if s.issuing.a.sys.p then x else y) 1 :=
  delivers_of (exec_sel ..) (binary_of_readsSS h d 1 fun x y => if s.issuing.a.sys.p then x else y)

/-- What a compare with outcome `r` puts in flight: 1 or 0 for its destination and the latch, and `r` for P. -/
def State.compared (s : State) (d : Port) (r : Bool) : List Item :=
  [s.resultS d (if r then 1 else 0) 1, s.entry .s (s.issuing.now + 1) none (.setP r)]

theorem compare_of_readsSS (h : ReadsSS s a b x y qs) (d : Port) (f : W64 → W64 → Bool) :
    s.issuing.compare d a b f = .ok (s.adding qs (s.compared d (f x y)) (s.issuing.now + 1)) := by
  obtain ⟨c, hx, hy⟩ := readsSS_eq h
  simp only [Core.compare, hx, hy, bind, Except.bind, State.adding_deliverS, State.adding_later, State.adding_now,
    List.nil_append, List.singleton_append, State.compared]

theorem delivers_of_compare (h : ReadsSS s a b x y qs) (f : W64 → W64 → Bool)
    (he : exec i s = issue i (fun _ c => c.compare d a b f) s) :
    Passes i s → Delivers i s qs (s.compared d (f x y)) (s.issuing.now + 1) :=
  delivers_of he (compare_of_readsSS h d f)

end

/-- Settles O1: each word is a function of two operands (`gives_of_binary`); `mulh`, `min` and `max` by the lemmas that say their
function in the words of the statement. -/
theorem integerArithmeticResults : Obligations.IntegerArithmeticResults := by
  unfold Obligations.IntegerArithmeticResults
  intro s ch d a b x y qs h
  rw [← mulHigh_eq, ← ite_slt_eq_ite_toInt_le, ← ite_slt_swap_eq_ite_toInt_le]
  exact ⟨gives_of_binary h (· + ·) rfl, gives_of_binary h (· - ·) rfl, gives_of_binary h (· * ·) rfl,
    gives_of_binary h mulHigh rfl, gives_of_binary h (· &&& ·) rfl, gives_of_binary h (· ||| ·) rfl,
    gives_of_binary h (· ^^^ ·) rfl, gives_of_binary h (fun x y => if x.slt y then x else y) rfl,
    gives_of_binary h (fun x y => if y.slt x then x else y) rfl⟩

/-- Settles O2: the shifts agree with those of the library for every count, `sel` chooses by the P of the issuing core, and the
bits of `bfx` are those of `getLsbD_bfxW`. -/
theorem shiftSelectFieldResults : Obligations.ShiftSelectFieldResults := by
  unfold Obligations.ShiftSelectFieldResults
  intro s ch d a b x y qs h
  rw [← shlW_eq, ← shrW_eq, ← sraW_eq]
  exact ⟨gives_of_binary h shlW rfl, gives_of_binary h shrW rfl, gives_of_binary h sraW rfl,
    sel_gives h ch d, bfxW x y, gives_of_binary h bfxW rfl, fun k hk => getLsbD_bfxW x y hk⟩

/-- Settles O3: the three compares put in flight one outcome, to the destination and to P (`compare_of_readsSS`). -/
theorem compareResults : Obligations.CompareResults := by
  unfold Obligations.CompareResults
  intro s ch d a b x y qs h
  exact ⟨delivers_of_compare h (fun x y => x == y) rfl, delivers_of_compare h (fun x y => x.slt y) rfl,
    delivers_of_compare h (fun x y => x.ult y) rfl⟩

end Sys2Proof.Machine
end

section
/-! PROOFS. Encoding and decoding (R34-R36, R48, R61): the fields of a word that is made of its parts, each format read back, the
opcode map, and the statements on them. -/
namespace Sys2Proof

/-! ## Ports (R48) -/

/-- Every port is the port of its number. -/
@[simp] theorem Port.ofCode_code (p : Port) : Port.ofCode p.code = p := by
  cases p with
  | s n | v n | o n | reserved n => revert n; decide
  | latch l => cases l <;> rfl
  | _ => rfl

/-- Every number of seven bits is the number of its port. -/
@[simp] theorem Port.code_ofCode (x : BitVec 7) : (Port.ofCode x).code = x := by
  revert x
  decide

/-! ## The parts of a word (R34) -/

theorem ofBool_getLsbD (x : BitVec w) (n : Nat) : BitVec.ofBool (x.getLsbD n) = x.extractLsb' n 1 := by
  ext i hi
  obtain rfl : i = 0 := by omega
  simp only [BitVec.getElem_ofBool, BitVec.getElem_extractLsb', Nat.add_zero]

@[simp] theorem opcode_encWord (c : Bool) (op : BitVec 8) (p : BitVec 23) : opcode (encWord c op p) = op := by
  unfold opcode encWord
  simp (disch := decide) only [BitVec.extractLsb'_append_eq_of_le, BitVec.extractLsb'_append_eq_of_add_le,
    BitVec.extractLsb'_eq_self, Nat.sub_self]

/-- A field below the opcode lies in the payload. -/
theorem extractLsb'_encWord (c : Bool) (op : BitVec 8) (p : BitVec 23) (lo n : Nat) (h : lo + n ≤ 23) :
    (encWord c op p).extractLsb' lo n = p.extractLsb' lo n :=
  BitVec.extractLsb'_append_eq_of_add_le h

/-- A word is made of its chain bit, its opcode and its payload. -/
theorem encWord_parts (w : Word) : encWord (chainBit w) (opcode w) (w.extractLsb' 0 23) = w := by
  have hparts : w.extractLsb' 31 1 ++ w.extractLsb' 23 8 ++ w.extractLsb' 0 23 = w := by
    rw [BitVec.extractLsb'_append_extractLsb'_eq_extractLsb' (show 31 = 23 + 8 by decide),
      BitVec.extractLsb'_append_extractLsb'_eq_extractLsb' (show 23 = 0 + 23 by decide)]
    exact BitVec.extractLsb'_eq_self
  rw [encWord, chainBit, ofBool_getLsbD]
  exact hparts

/-- A payload with an opcode and a chain bit is the word they are taken from. -/
theorem encWord_eq {w : Word} {op : BitVec 8} {p : BitVec 23} (ho : opcode w = op) (hp : p = w.extractLsb' 0 23) :
    encWord (chainBit w) op p = w := by
  rw [hp, ← ho, encWord_parts]

@[simp] theorem chainBit_encWord (c : Bool) (op : BitVec 8) (p : BitVec 23) : chainBit (encWord c op p) = c :=
  Laws.ChainBit.chain_encWord c op p

theorem getLsbD_encWord (c : Bool) (op : BitVec 8) (p : BitVec 23) (n : Nat) (h : n < 23) :
    (encWord c op p).getLsbD n = p.getLsbD n :=
  BitVec.getLsbD_append.trans (if_pos h)

@[simp] theorem dstField_encWord (c : Bool) (op : BitVec 8) (p : BitVec 23) : dstField (encWord c op p) = p.extractLsb' 16 7 :=
  extractLsb'_encWord c op p 16 7 (by decide)
@[simp] theorem low8_encWord (c : Bool) (op : BitVec 8) (p : BitVec 23) : low8 (encWord c op p) = p.extractLsb' 0 8 :=
  extractLsb'_encWord c op p 0 8 (by decide)
@[simp] theorem imm16_encWord (c : Bool) (op : BitVec 8) (p : BitVec 23) : imm16 (encWord c op p) = p.extractLsb' 0 16 :=
  extractLsb'_encWord c op p 0 16 (by decide)
@[simp] theorem off15_encWord (c : Bool) (op : BitVec 8) (p : BitVec 23) : off15 (encWord c op p) = p.extractLsb' 0 15 :=
  extractLsb'_encWord c op p 0 15 (by decide)
@[simp] theorem dstPort_encWord (c : Bool) (op : BitVec 8) (p : BitVec 23) :
    dstPort (encWord c op p) = .ofCode (p.extractLsb' 16 7) := congrArg Port.ofCode (dstField_encWord c op p)

/-! ## Sources -/

/-- The source of eight bits: a port and the peek bit below it (R51). -/
def Src.ofCode (x : BitVec 8) : Src := ⟨.ofCode (x.extractLsb' 1 7), x.getLsbD 0⟩

@[simp] theorem Src.ofCode_code (a : Src) : Src.ofCode a.code = a := by
  obtain ⟨p, k⟩ := a
  have hport : (p.code ++ BitVec.ofBool k).extractLsb' 1 7 = p.code := BitVec.extractLsb'_append_eq_left
  have hpeek : (p.code ++ BitVec.ofBool k).getLsbD 0 = k := by
    rw [BitVec.getLsbD_append]
    cases k <;> rfl
  rw [Src.ofCode, Src.code, hport, hpeek, Port.ofCode_code]

@[simp] theorem Src.code_ofCode (x : BitVec 8) : (Src.ofCode x).code = x := by
  revert x
  decide

/-- Eight bits of a word as a source. -/
theorem Src.ofCode_extract (w : Word) (lo : Nat) :
    Src.ofCode (w.extractLsb' lo 8) = ⟨.ofCode (w.extractLsb' (lo + 1) 7), w.getLsbD lo⟩ := by
  have hport : (w.extractLsb' lo 8).extractLsb' 1 7 = w.extractLsb' (lo + 1) 7 := by
    ext i hi
    simp only [BitVec.getElem_extractLsb', BitVec.getLsbD_extractLsb', show 1 + i < 8 by omega, decide_true, Bool.true_and,
      Nat.add_assoc]
  rw [Src.ofCode, hport, BitVec.getLsbD_extractLsb']
  rfl

theorem srcA_eq (w : Word) : srcA w = .ofCode (w.extractLsb' 8 8) := (Src.ofCode_extract w 8).symm
theorem srcB_eq (w : Word) : srcB w = .ofCode (w.extractLsb' 0 8) := (Src.ofCode_extract w 0).symm
theorem srcK_eq (w : Word) : srcK w = .ofCode (w.extractLsb' 15 8) := (Src.ofCode_extract w 15).symm

@[simp] theorem srcA_encWord (c : Bool) (op : BitVec 8) (p : BitVec 23) :
    srcA (encWord c op p) = .ofCode (p.extractLsb' 8 8) := by
  rw [srcA_eq, extractLsb'_encWord c op p 8 8 (by decide)]
@[simp] theorem srcB_encWord (c : Bool) (op : BitVec 8) (p : BitVec 23) :
    srcB (encWord c op p) = .ofCode (p.extractLsb' 0 8) := by
  rw [srcB_eq, extractLsb'_encWord c op p 0 8 (by decide)]
@[simp] theorem srcK_encWord (c : Bool) (op : BitVec 8) (p : BitVec 23) :
    srcK (encWord c op p) = .ofCode (p.extractLsb' 15 8) := by
  rw [srcK_eq, extractLsb'_encWord c op p 15 8 (by decide)]

/-! ## The formats read back (R34, R35) -/

theorem decT_encT (k : Bool → Port → Src → Src → Instr) (op : BitVec 8) (c : Bool) (d : Port) (a b : Src) :
    decT k (encT op c d a b) = .ok (k c d a b) := by
  simp (disch := decide) only [decT, encT, chainBit_encWord, dstPort_encWord, srcA_encWord, srcB_encWord,
    BitVec.extractLsb'_append_eq_of_le, BitVec.extractLsb'_append_eq_of_add_le, BitVec.extractLsb'_eq_self, Nat.reduceSub,
    Port.ofCode_code, Src.ofCode_code, Nat.sub_self]
theorem decTA_encTA (k : Bool → Port → Src → Instr) (op : BitVec 8) (c : Bool) (d : Port) (a : Src) :
    decTA k (encTA op c d a) = .ok (k c d a) := by
  simp (disch := decide) only [decTA, encTA, chainBit_encWord, dstPort_encWord, srcA_encWord, low8_encWord,
    BitVec.extractLsb'_append_eq_of_le, BitVec.extractLsb'_append_eq_of_add_le, BitVec.extractLsb'_eq_self, Nat.reduceSub,
    Port.ofCode_code, Src.ofCode_code, BitVec.extractLsb'_zero, Nat.sub_self]
  rfl
theorem decAB_encAB (k : Bool → Src → Src → Instr) (op : BitVec 8) (c : Bool) (a b : Src) :
    decAB k (encAB op c a b) = .ok (k c a b) := by
  simp (disch := decide) only [decAB, encAB, chainBit_encWord, dstField_encWord, srcA_encWord, srcB_encWord,
    BitVec.extractLsb'_append_eq_of_le, BitVec.extractLsb'_append_eq_of_add_le, BitVec.extractLsb'_eq_self, Nat.reduceSub,
    Src.ofCode_code, BitVec.extractLsb'_zero, Nat.sub_self]
  rfl
theorem decA_encA (k : Bool → Src → Instr) (op : BitVec 8) (c : Bool) (a : Src) :
    decA k (encA op c a) = .ok (k c a) := by
  simp (disch := decide) only [decA, encA, chainBit_encWord, dstField_encWord, srcA_encWord, low8_encWord,
    BitVec.extractLsb'_append_eq_of_le, BitVec.extractLsb'_append_eq_of_add_le, BitVec.extractLsb'_eq_self, Nat.reduceSub,
    Src.ofCode_code, BitVec.extractLsb'_zero, Nat.sub_self]
  rfl
theorem decI_encI (k : Bool → Port → Src → BitVec 8 → Instr) (op : BitVec 8) (c : Bool) (d : Port) (a : Src) (i : BitVec 8) :
    decI k (encI op c d a i) = .ok (k c d a i) := by
  simp (disch := decide) only [decI, encI, chainBit_encWord, dstPort_encWord, srcA_encWord, low8_encWord,
    BitVec.extractLsb'_append_eq_of_le, BitVec.extractLsb'_append_eq_of_add_le, BitVec.extractLsb'_eq_self, Nat.reduceSub,
    Port.ofCode_code, Src.ofCode_code, Nat.sub_self]
theorem decDI_encDI (k : Bool → Port → BitVec 8 → Instr) (op : BitVec 8) (c : Bool) (d : Port) (i : BitVec 8) :
    decDI k (encDI op c d i) = .ok (k c d i) := by
  simp (disch := decide) only [decDI, encDI, chainBit_encWord, dstPort_encWord, low8_encWord, extractLsb'_encWord,
    BitVec.extractLsb'_append_eq_of_le, BitVec.extractLsb'_append_eq_of_add_le, BitVec.extractLsb'_eq_self, Nat.reduceSub,
    Port.ofCode_code, BitVec.extractLsb'_zero, Nat.sub_self]
  rfl
theorem decQD_encQD (k : Bool → Port → BitVec 8 → Instr) (op : BitVec 8) (c : Bool) (q : Port) (i : BitVec 8) :
    decQD k (encQD op c q i) = .ok (k c q i) := by
  simp (disch := decide) only [decQD, encQD, chainBit_encWord, dstField_encWord, low8_encWord, extractLsb'_encWord,
    getLsbD_encWord, BitVec.getLsbD_append, BitVec.extractLsb'_append_eq_of_le, BitVec.extractLsb'_append_eq_of_add_le,
    BitVec.extractLsb'_eq_self, Nat.reduceSub, Port.ofCode_code, BitVec.extractLsb'_zero, Nat.sub_self]
  rfl
theorem decQL_encQL (k : Bool → Port → Port → Instr) (op : BitVec 8) (c : Bool) (d q : Port) :
    decQL k (encQL op c d q) = .ok (k c d q) := by
  simp (disch := decide) only [decQL, encQL, chainBit_encWord, dstPort_encWord, extractLsb'_encWord,
    BitVec.extractLsb'_append_eq_of_le, BitVec.extractLsb'_append_eq_of_add_le, BitVec.extractLsb'_eq_self, Nat.reduceSub,
    Port.ofCode_code, BitVec.extractLsb'_zero, Nat.sub_self]
  rfl
theorem decK_encK (k : Bool → Port → BitVec 16 → Instr) (op : BitVec 8) (c : Bool) (d : Port) (i : BitVec 16) :
    decK k (encK op c d i) = .ok (k c d i) := by
  simp (disch := decide) only [decK, encK, chainBit_encWord, dstPort_encWord, imm16_encWord, BitVec.extractLsb'_append_eq_of_le,
    BitVec.extractLsb'_append_eq_of_add_le, BitVec.extractLsb'_eq_self, Port.ofCode_code,
    Nat.sub_self]
theorem decK0_encK0 (k : Bool → BitVec 16 → Instr) (op : BitVec 8) (c : Bool) (i : BitVec 16) :
    decK0 k (encK0 op c i) = .ok (k c i) := by
  simp (disch := decide) only [decK0, encK0, chainBit_encWord, dstField_encWord, imm16_encWord,
    BitVec.extractLsb'_append_eq_of_le, BitVec.extractLsb'_append_eq_of_add_le, BitVec.extractLsb'_eq_self,
    BitVec.extractLsb'_zero, Nat.sub_self]
  rfl
theorem decK8_encK8 (k : Bool → BitVec 8 → Instr) (op : BitVec 8) (c : Bool) (i : BitVec 8) :
    decK8 k (encK8 op c i) = .ok (k c i) := by
  simp (disch := decide) only [decK8, encK8, chainBit_encWord, low8_encWord, extractLsb'_encWord,
    BitVec.extractLsb'_append_eq_of_le, BitVec.extractLsb'_append_eq_of_add_le, BitVec.extractLsb'_eq_self,
    BitVec.extractLsb'_zero, Nat.sub_self]
  rfl
theorem decB_encB (k : Bool → Src → BitVec 15 → Instr) (op : BitVec 8) (c : Bool) (s : Src) (o : BitVec 15) :
    decB k (encB op c s o) = .ok (k c s o) := by
  simp (disch := decide) only [decB, encB, chainBit_encWord, srcK_encWord, off15_encWord, BitVec.extractLsb'_append_eq_of_le,
    BitVec.extractLsb'_append_eq_of_add_le, BitVec.extractLsb'_eq_self, Src.ofCode_code,
    Nat.sub_self]
theorem decB0_encB0 (k : Bool → BitVec 15 → Instr) (op : BitVec 8) (c : Bool) (o : BitVec 15) :
    decB0 k (encB0 op c o) = .ok (k c o) := by
  simp (disch := decide) only [decB0, encB0, chainBit_encWord, off15_encWord, extractLsb'_encWord,
    BitVec.extractLsb'_append_eq_of_le, BitVec.extractLsb'_append_eq_of_add_le, BitVec.extractLsb'_eq_self,
    BitVec.extractLsb'_zero, Nat.sub_self]
  rfl
theorem decRET_encRET (k : Bool → Src → Instr) (op : BitVec 8) (c : Bool) (s : Src) :
    decRET k (encRET op c s) = .ok (k c s) := by
  simp (disch := decide) only [decRET, encRET, chainBit_encWord, srcK_encWord, off15_encWord, BitVec.extractLsb'_append_eq_of_le,
    BitVec.extractLsb'_append_eq_of_add_le, BitVec.extractLsb'_eq_self, Src.ofCode_code,
    BitVec.extractLsb'_zero, Nat.sub_self]
  rfl
theorem decTQ_encTQ (k : Bool → BitVec 3 → Src → Src → Instr) (op : BitVec 8) (c : Bool) (n : BitVec 3) (a b : Src) :
    decTQ k (encTQ op c n a b) = .ok (k c n a b) := by
  simp (disch := decide) only [decTQ, encTQ, chainBit_encWord, srcA_encWord, srcB_encWord, extractLsb'_encWord,
    BitVec.extractLsb'_append_eq_of_le, BitVec.extractLsb'_append_eq_of_add_le, BitVec.extractLsb'_eq_self, Nat.reduceSub,
    Src.ofCode_code, BitVec.extractLsb'_zero, Nat.sub_self]
  rfl
theorem decTQA_encTQA (k : Bool → BitVec 3 → Src → Instr) (op : BitVec 8) (c : Bool) (n : BitVec 3) (a : Src) :
    decTQA k (encTQA op c n a) = .ok (k c n a) := by
  simp (disch := decide) only [decTQA, encTQA, chainBit_encWord, srcA_encWord, low8_encWord, extractLsb'_encWord,
    BitVec.extractLsb'_append_eq_of_le, BitVec.extractLsb'_append_eq_of_add_le, BitVec.extractLsb'_eq_self, Nat.reduceSub,
    Src.ofCode_code, BitVec.extractLsb'_zero, Nat.sub_self]
  rfl
theorem decBUF_encBUF (k : Bool → BitVec 7 → Src → Src → Instr) (op : BitVec 8) (c : Bool) (n : BitVec 7) (a b : Src) :
    decBUF k (encBUF op c n a b) = .ok (k c n a b) := by
  simp (disch := decide) only [decBUF, encBUF, chainBit_encWord, dstField_encWord, srcA_encWord, srcB_encWord,
    BitVec.extractLsb'_append_eq_of_le, BitVec.extractLsb'_append_eq_of_add_le, BitVec.extractLsb'_eq_self, Nat.reduceSub,
    Src.ofCode_code, Nat.sub_self]
theorem decBI_encBI (k : Bool → BitVec 7 → BitVec 8 → Instr) (op : BitVec 8) (c : Bool) (n : BitVec 7) (i : BitVec 8) :
    decBI k (encBI op c n i) = .ok (k c n i) := by
  simp (disch := decide) only [decBI, encBI, chainBit_encWord, dstField_encWord, low8_encWord, extractLsb'_encWord,
    BitVec.extractLsb'_append_eq_of_le, BitVec.extractLsb'_append_eq_of_add_le, BitVec.extractLsb'_eq_self, Nat.reduceSub,
    BitVec.extractLsb'_zero, Nat.sub_self]
  rfl
theorem decMODE_encMODE (k : Bool → Port → Bool → Bool → Instr) (op : BitVec 8) (c : Bool) (d : Port) (h o : Bool) :
    decMODE k (encMODE op c d h o) = .ok (k c d h o) := by
  simp (disch := decide) only [decMODE, encMODE, chainBit_encWord, dstPort_encWord, extractLsb'_encWord, getLsbD_encWord,
    BitVec.getLsbD_append, BitVec.extractLsb'_append_eq_of_le, BitVec.extractLsb'_append_eq_of_add_le,
    BitVec.extractLsb'_eq_self, Nat.reduceSub, Port.ofCode_code, BitVec.extractLsb'_zero, Nat.sub_self]
  cases h <;> cases o <;> rfl
theorem decINV_encINV (k : Bool → Bool → BitVec 6 → Instr) (op : BitVec 8) (c : Bool) (l : Bool) (w : BitVec 6) :
    decINV k (encINV op c l w) = .ok (k c l w) := by
  simp (disch := decide) only [decINV, encINV, chainBit_encWord, dstField_encWord, extractLsb'_encWord, getLsbD_encWord,
    BitVec.getLsbD_append, BitVec.extractLsb'_append_eq_of_le, BitVec.extractLsb'_append_eq_of_add_le,
    BitVec.extractLsb'_eq_self, Nat.reduceSub, BitVec.extractLsb'_zero, Nat.sub_self]
  cases l <;> rfl
theorem decSCOPE_encSCOPE (k : Bool → BitVec 8 → BitVec 2 → Instr) (op : BitVec 8) (c : Bool) (g : BitVec 8) (s : BitVec 2) :
    decSCOPE k (encSCOPE op c g s) = .ok (k c g s) := by
  simp (disch := decide) only [decSCOPE, encSCOPE, chainBit_encWord, dstField_encWord, extractLsb'_encWord,
    BitVec.extractLsb'_append_eq_of_le, BitVec.extractLsb'_append_eq_of_add_le, BitVec.extractLsb'_eq_self, Nat.reduceSub,
    BitVec.extractLsb'_zero, Nat.sub_self]
  rfl
theorem decLT_encLT (k : Bool → Port → BitVec 2 → Instr) (op : BitVec 8) (c : Bool) (d : Port) (s : BitVec 2) :
    decLT k (encLT op c d s) = .ok (k c d s) := by
  simp (disch := decide) only [decLT, encLT, chainBit_encWord, dstPort_encWord, extractLsb'_encWord,
    BitVec.extractLsb'_append_eq_of_le, BitVec.extractLsb'_append_eq_of_add_le, BitVec.extractLsb'_eq_self, Nat.reduceSub,
    Port.ofCode_code, BitVec.extractLsb'_zero, Nat.sub_self]
  rfl
theorem decCTL_encCTL (k : Bool → Port → Bool → Instr) (op : BitVec 8) (c : Bool) (d : Port) (n : Bool) :
    decCTL k (encCTL op c d n) = .ok (k c d n) := by
  simp (disch := decide) only [decCTL, encCTL, chainBit_encWord, dstPort_encWord, extractLsb'_encWord, getLsbD_encWord,
    BitVec.getLsbD_append, BitVec.extractLsb'_append_eq_of_le, BitVec.extractLsb'_append_eq_of_add_le,
    BitVec.extractLsb'_eq_self, Nat.reduceSub, Port.ofCode_code, BitVec.extractLsb'_zero, Nat.sub_self]
  cases n <;> rfl
theorem decPfxImm_encPfxImm (k : BitVec 23 → Instr) (op : BitVec 8) (p : BitVec 23) :
    decPfxImm k (encPfxImm op p) = .ok (k p) := by
  simp (disch := decide) only [decPfxImm, encPfxImm, decPrefix, chainBit_encWord, extractLsb'_encWord,
    BitVec.extractLsb'_eq_self,
    ↓reduceIte]
theorem decPfxFmt_encPfxFmt (k : Bool → BitVec 2 → BitVec 4 → Instr) (op : BitVec 8) (e : Bool) (r : BitVec 2) (n : BitVec 4) :
    decPfxFmt k (encPfxFmt op e r n) = .ok (k e r n) := by
  simp (disch := decide) only [decPfxFmt, encPfxFmt, decPrefix, chainBit_encWord, extractLsb'_encWord, getLsbD_encWord,
    BitVec.getLsbD_append, BitVec.extractLsb'_append_eq_of_le, BitVec.extractLsb'_append_eq_of_add_le,
    BitVec.extractLsb'_eq_self, Nat.reduceSub, BitVec.extractLsb'_zero, Nat.sub_self,
    ↓reduceIte]
  cases e <;> rfl
theorem decPfxTs_encPfxTs (k : BitVec 23 → Instr) (op : BitVec 8) (d : BitVec 23) :
    decPfxTs k (encPfxTs op d) = .ok (k d) := by
  simp (disch := decide) only [decPfxTs, encPfxTs, decPrefix, chainBit_encWord, extractLsb'_encWord,
    BitVec.extractLsb'_eq_self,
    ↓reduceIte]
theorem decPfxRow_encPfxRow (k : Bool → Bool → Instr) (op : BitVec 8) (s l : Bool) :
    decPfxRow k (encPfxRow op s l) = .ok (k s l) := by
  simp (disch := decide) only [decPfxRow, encPfxRow, decPrefix, chainBit_encWord, extractLsb'_encWord, getLsbD_encWord,
    BitVec.getLsbD_append, BitVec.extractLsb'_append_eq_of_le,
    Nat.reduceSub, BitVec.extractLsb'_zero, Nat.sub_self,
    ↓reduceIte]
  cases s <;> cases l <;> rfl
theorem decSfxArv_encSfxArv (k : Bool → BitVec 19 → Instr) (op : BitVec 8) (c : Bool) (a : BitVec 19) :
    decSfxArv k (encSfxArv op c a) = .ok (k c a) := by
  simp (disch := decide) only [decSfxArv, encSfxArv, chainBit_encWord, extractLsb'_encWord, BitVec.extractLsb'_append_eq_of_le,
    BitVec.extractLsb'_append_eq_of_add_le, BitVec.extractLsb'_eq_self,
    BitVec.extractLsb'_zero, Nat.sub_self]
  rfl

/-! ## Every format writes back what it read (R35, R36) -/

theorem reservedZero_eq_ok {ok : Bool} {i j : Instr} : reservedZero ok i = .ok j ↔ ok = true ∧ i = j := by
  cases ok <;> simp [reservedZero]

theorem decPrefix_eq_ok {w : Word} {d : Decoded} {i : Instr} (h : decPrefix w d = .ok i) : d = .ok i ∧ chainBit w = true := by
  unfold decPrefix at h
  split at h
  · split at h
    · next hc => exact ⟨h, hc⟩
    · cases h
  · next hd => exact absurd h (hd i)

theorem decT_encodes {k : Bool → Port → Src → Src → Instr} {op : BitVec 8} {w : Word} {i : Instr}
    (hk : ∀ c d a b, (k c d a b).encode = some (encT op c d a b)) (ho : opcode w = op) (h : decT k w = .ok i) :
    i.encode = some w := by
  cases h
  rw [hk]
  refine congrArg some (encWord_eq ho ?_)
  simp (disch := decide) only [dstPort, Port.code_ofCode, dstField, srcA_eq, srcB_eq, Src.code_ofCode, BitVec.extractLsb'_append_extractLsb'_eq_extractLsb']
theorem decTA_encodes {k : Bool → Port → Src → Instr} {op : BitVec 8} {w : Word} {i : Instr}
    (hk : ∀ c d a, (k c d a).encode = some (encTA op c d a)) (ho : opcode w = op) (h : decTA k w = .ok i) :
    i.encode = some w := by
  obtain ⟨h0, rfl⟩ := reservedZero_eq_ok.1 h
  rw [beq_iff_eq] at h0
  rw [hk]
  refine congrArg some (encWord_eq ho ?_)
  rw [← show w.extractLsb' 0 8 = 0#8 from h0]
  simp (disch := decide) only [dstPort, Port.code_ofCode, dstField, srcA_eq, Src.code_ofCode, BitVec.extractLsb'_append_extractLsb'_eq_extractLsb']
theorem decAB_encodes {k : Bool → Src → Src → Instr} {op : BitVec 8} {w : Word} {i : Instr}
    (hk : ∀ c a b, (k c a b).encode = some (encAB op c a b)) (ho : opcode w = op) (h : decAB k w = .ok i) :
    i.encode = some w := by
  obtain ⟨h0, rfl⟩ := reservedZero_eq_ok.1 h
  rw [beq_iff_eq] at h0
  rw [hk]
  refine congrArg some (encWord_eq ho ?_)
  rw [← show w.extractLsb' 16 7 = 0#7 from h0]
  simp (disch := decide) only [srcA_eq, srcB_eq, Src.code_ofCode, BitVec.extractLsb'_append_extractLsb'_eq_extractLsb']
theorem decA_encodes {k : Bool → Src → Instr} {op : BitVec 8} {w : Word} {i : Instr}
    (hk : ∀ c a, (k c a).encode = some (encA op c a)) (ho : opcode w = op) (h : decA k w = .ok i) :
    i.encode = some w := by
  obtain ⟨h0, rfl⟩ := reservedZero_eq_ok.1 h
  simp only [Bool.and_eq_true, beq_iff_eq] at h0
  obtain ⟨h0, h1⟩ := h0
  rw [hk]
  refine congrArg some (encWord_eq ho ?_)
  rw [← show w.extractLsb' 16 7 = 0#7 from h0, ← show w.extractLsb' 0 8 = 0#8 from h1]
  simp (disch := decide) only [srcA_eq, Src.code_ofCode, BitVec.extractLsb'_append_extractLsb'_eq_extractLsb']
theorem decI_encodes {k : Bool → Port → Src → BitVec 8 → Instr} {op : BitVec 8} {w : Word} {i : Instr}
    (hk : ∀ c d a i, (k c d a i).encode = some (encI op c d a i)) (ho : opcode w = op) (h : decI k w = .ok i) :
    i.encode = some w := by
  cases h
  rw [hk]
  refine congrArg some (encWord_eq ho ?_)
  simp (disch := decide) only [dstPort, Port.code_ofCode, dstField, srcA_eq, Src.code_ofCode, low8, BitVec.extractLsb'_append_extractLsb'_eq_extractLsb']
theorem decDI_encodes {k : Bool → Port → BitVec 8 → Instr} {op : BitVec 8} {w : Word} {i : Instr}
    (hk : ∀ c d i, (k c d i).encode = some (encDI op c d i)) (ho : opcode w = op) (h : decDI k w = .ok i) :
    i.encode = some w := by
  obtain ⟨h0, rfl⟩ := reservedZero_eq_ok.1 h
  rw [beq_iff_eq] at h0
  rw [hk]
  refine congrArg some (encWord_eq ho ?_)
  rw [← show w.extractLsb' 8 8 = 0#8 from h0]
  simp (disch := decide) only [dstPort, Port.code_ofCode, dstField, low8, BitVec.extractLsb'_append_extractLsb'_eq_extractLsb']
theorem decQD_encodes {k : Bool → Port → BitVec 8 → Instr} {op : BitVec 8} {w : Word} {i : Instr}
    (hk : ∀ c q i, (k c q i).encode = some (encQD op c q i)) (ho : opcode w = op) (h : decQD k w = .ok i) :
    i.encode = some w := by
  obtain ⟨h0, rfl⟩ := reservedZero_eq_ok.1 h
  simp only [Bool.and_eq_true, beq_iff_eq, Bool.not_eq_true'] at h0
  obtain ⟨h0, h1⟩ := h0
  rw [hk]
  refine congrArg some (encWord_eq ho ?_)
  have h2 : w.extractLsb' 8 1 = 0#1 := by rw [← ofBool_getLsbD, h1]; rfl
  rw [← show w.extractLsb' 16 7 = 0#7 from h0, ← h2]
  simp (disch := decide) only [Port.code_ofCode, low8, BitVec.extractLsb'_append_extractLsb'_eq_extractLsb']
theorem decQL_encodes {k : Bool → Port → Port → Instr} {op : BitVec 8} {w : Word} {i : Instr}
    (hk : ∀ c d q, (k c d q).encode = some (encQL op c d q)) (ho : opcode w = op) (h : decQL k w = .ok i) :
    i.encode = some w := by
  obtain ⟨h0, rfl⟩ := reservedZero_eq_ok.1 h
  rw [beq_iff_eq] at h0
  rw [hk]
  refine congrArg some (encWord_eq ho ?_)
  rw [← show w.extractLsb' 0 9 = 0#9 from h0]
  simp (disch := decide) only [dstPort, Port.code_ofCode, dstField, BitVec.extractLsb'_append_extractLsb'_eq_extractLsb']
theorem decK_encodes {k : Bool → Port → BitVec 16 → Instr} {op : BitVec 8} {w : Word} {i : Instr}
    (hk : ∀ c d i, (k c d i).encode = some (encK op c d i)) (ho : opcode w = op) (h : decK k w = .ok i) :
    i.encode = some w := by
  cases h
  rw [hk]
  refine congrArg some (encWord_eq ho ?_)
  simp (disch := decide) only [dstPort, Port.code_ofCode, dstField, imm16, BitVec.extractLsb'_append_extractLsb'_eq_extractLsb']
theorem decK0_encodes {k : Bool → BitVec 16 → Instr} {op : BitVec 8} {w : Word} {i : Instr}
    (hk : ∀ c i, (k c i).encode = some (encK0 op c i)) (ho : opcode w = op) (h : decK0 k w = .ok i) :
    i.encode = some w := by
  obtain ⟨h0, rfl⟩ := reservedZero_eq_ok.1 h
  rw [beq_iff_eq] at h0
  rw [hk]
  refine congrArg some (encWord_eq ho ?_)
  rw [← show w.extractLsb' 16 7 = 0#7 from h0]
  simp (disch := decide) only [imm16, BitVec.extractLsb'_append_extractLsb'_eq_extractLsb']
theorem decK8_encodes {k : Bool → BitVec 8 → Instr} {op : BitVec 8} {w : Word} {i : Instr}
    (hk : ∀ c i, (k c i).encode = some (encK8 op c i)) (ho : opcode w = op) (h : decK8 k w = .ok i) :
    i.encode = some w := by
  obtain ⟨h0, rfl⟩ := reservedZero_eq_ok.1 h
  rw [beq_iff_eq] at h0
  rw [hk]
  refine congrArg some (encWord_eq ho ?_)
  rw [← show w.extractLsb' 8 15 = 0#15 from h0]
  simp (disch := decide) only [low8, BitVec.extractLsb'_append_extractLsb'_eq_extractLsb']
theorem decB_encodes {k : Bool → Src → BitVec 15 → Instr} {op : BitVec 8} {w : Word} {i : Instr}
    (hk : ∀ c s o, (k c s o).encode = some (encB op c s o)) (ho : opcode w = op) (h : decB k w = .ok i) :
    i.encode = some w := by
  cases h
  rw [hk]
  refine congrArg some (encWord_eq ho ?_)
  simp (disch := decide) only [srcK_eq, Src.code_ofCode, off15, BitVec.extractLsb'_append_extractLsb'_eq_extractLsb']
theorem decB0_encodes {k : Bool → BitVec 15 → Instr} {op : BitVec 8} {w : Word} {i : Instr}
    (hk : ∀ c o, (k c o).encode = some (encB0 op c o)) (ho : opcode w = op) (h : decB0 k w = .ok i) :
    i.encode = some w := by
  obtain ⟨h0, rfl⟩ := reservedZero_eq_ok.1 h
  rw [beq_iff_eq] at h0
  rw [hk]
  refine congrArg some (encWord_eq ho ?_)
  rw [← show w.extractLsb' 15 8 = 0#8 from h0]
  simp (disch := decide) only [off15, BitVec.extractLsb'_append_extractLsb'_eq_extractLsb']
theorem decRET_encodes {k : Bool → Src → Instr} {op : BitVec 8} {w : Word} {i : Instr}
    (hk : ∀ c s, (k c s).encode = some (encRET op c s)) (ho : opcode w = op) (h : decRET k w = .ok i) :
    i.encode = some w := by
  obtain ⟨h0, rfl⟩ := reservedZero_eq_ok.1 h
  rw [beq_iff_eq] at h0
  rw [hk]
  refine congrArg some (encWord_eq ho ?_)
  rw [← show w.extractLsb' 0 15 = 0#15 from h0]
  simp (disch := decide) only [srcK_eq, Src.code_ofCode, BitVec.extractLsb'_append_extractLsb'_eq_extractLsb']
theorem decTQ_encodes {k : Bool → BitVec 3 → Src → Src → Instr} {op : BitVec 8} {w : Word} {i : Instr}
    (hk : ∀ c n a b, (k c n a b).encode = some (encTQ op c n a b)) (ho : opcode w = op) (h : decTQ k w = .ok i) :
    i.encode = some w := by
  obtain ⟨h0, rfl⟩ := reservedZero_eq_ok.1 h
  rw [beq_iff_eq] at h0
  rw [hk]
  refine congrArg some (encWord_eq ho ?_)
  rw [← show w.extractLsb' 19 4 = 0#4 from h0]
  simp (disch := decide) only [srcA_eq, srcB_eq, Src.code_ofCode, BitVec.extractLsb'_append_extractLsb'_eq_extractLsb']
theorem decTQA_encodes {k : Bool → BitVec 3 → Src → Instr} {op : BitVec 8} {w : Word} {i : Instr}
    (hk : ∀ c n a, (k c n a).encode = some (encTQA op c n a)) (ho : opcode w = op) (h : decTQA k w = .ok i) :
    i.encode = some w := by
  obtain ⟨h0, rfl⟩ := reservedZero_eq_ok.1 h
  simp only [Bool.and_eq_true, beq_iff_eq] at h0
  obtain ⟨h0, h1⟩ := h0
  rw [hk]
  refine congrArg some (encWord_eq ho ?_)
  rw [← show w.extractLsb' 19 4 = 0#4 from h0, ← show w.extractLsb' 0 8 = 0#8 from h1]
  simp (disch := decide) only [srcA_eq, Src.code_ofCode, BitVec.extractLsb'_append_extractLsb'_eq_extractLsb']
theorem decBUF_encodes {k : Bool → BitVec 7 → Src → Src → Instr} {op : BitVec 8} {w : Word} {i : Instr}
    (hk : ∀ c n a b, (k c n a b).encode = some (encBUF op c n a b)) (ho : opcode w = op) (h : decBUF k w = .ok i) :
    i.encode = some w := by
  cases h
  rw [hk]
  refine congrArg some (encWord_eq ho ?_)
  simp (disch := decide) only [srcA_eq, srcB_eq, Src.code_ofCode, dstField, BitVec.extractLsb'_append_extractLsb'_eq_extractLsb']
theorem decBI_encodes {k : Bool → BitVec 7 → BitVec 8 → Instr} {op : BitVec 8} {w : Word} {i : Instr}
    (hk : ∀ c n i, (k c n i).encode = some (encBI op c n i)) (ho : opcode w = op) (h : decBI k w = .ok i) :
    i.encode = some w := by
  obtain ⟨h0, rfl⟩ := reservedZero_eq_ok.1 h
  rw [beq_iff_eq] at h0
  rw [hk]
  refine congrArg some (encWord_eq ho ?_)
  rw [← show w.extractLsb' 8 8 = 0#8 from h0]
  simp (disch := decide) only [dstField, low8, BitVec.extractLsb'_append_extractLsb'_eq_extractLsb']
theorem decMODE_encodes {k : Bool → Port → Bool → Bool → Instr} {op : BitVec 8} {w : Word} {i : Instr}
    (hk : ∀ c d h o, (k c d h o).encode = some (encMODE op c d h o)) (ho : opcode w = op) (h : decMODE k w = .ok i) :
    i.encode = some w := by
  obtain ⟨h0, rfl⟩ := reservedZero_eq_ok.1 h
  rw [beq_iff_eq] at h0
  rw [hk]
  refine congrArg some (encWord_eq ho ?_)
  rw [← show w.extractLsb' 2 14 = 0#14 from h0]
  simp (disch := decide) only [dstPort, Port.code_ofCode, dstField, ofBool_getLsbD, BitVec.extractLsb'_append_extractLsb'_eq_extractLsb']
theorem decINV_encodes {k : Bool → Bool → BitVec 6 → Instr} {op : BitVec 8} {w : Word} {i : Instr}
    (hk : ∀ c l w, (k c l w).encode = some (encINV op c l w)) (ho : opcode w = op) (h : decINV k w = .ok i) :
    i.encode = some w := by
  obtain ⟨h0, rfl⟩ := reservedZero_eq_ok.1 h
  simp only [Bool.and_eq_true, beq_iff_eq] at h0
  obtain ⟨h0, h1⟩ := h0
  rw [hk]
  refine congrArg some (encWord_eq ho ?_)
  rw [← show w.extractLsb' 16 7 = 0#7 from h0, ← show w.extractLsb' 6 9 = 0#9 from h1]
  simp (disch := decide) only [ofBool_getLsbD, BitVec.extractLsb'_append_extractLsb'_eq_extractLsb']
theorem decSCOPE_encodes {k : Bool → BitVec 8 → BitVec 2 → Instr} {op : BitVec 8} {w : Word} {i : Instr}
    (hk : ∀ c g s, (k c g s).encode = some (encSCOPE op c g s)) (ho : opcode w = op) (h : decSCOPE k w = .ok i) :
    i.encode = some w := by
  obtain ⟨h0, rfl⟩ := reservedZero_eq_ok.1 h
  simp only [Bool.and_eq_true, beq_iff_eq] at h0
  obtain ⟨h0, h1⟩ := h0
  rw [hk]
  refine congrArg some (encWord_eq ho ?_)
  rw [← show w.extractLsb' 16 7 = 0#7 from h0, ← show w.extractLsb' 2 6 = 0#6 from h1]
  simp (disch := decide) only [BitVec.extractLsb'_append_extractLsb'_eq_extractLsb']
theorem decLT_encodes {k : Bool → Port → BitVec 2 → Instr} {op : BitVec 8} {w : Word} {i : Instr}
    (hk : ∀ c d s, (k c d s).encode = some (encLT op c d s)) (ho : opcode w = op) (h : decLT k w = .ok i) :
    i.encode = some w := by
  obtain ⟨h0, rfl⟩ := reservedZero_eq_ok.1 h
  rw [beq_iff_eq] at h0
  rw [hk]
  refine congrArg some (encWord_eq ho ?_)
  rw [← show w.extractLsb' 2 14 = 0#14 from h0]
  simp (disch := decide) only [dstPort, Port.code_ofCode, dstField, BitVec.extractLsb'_append_extractLsb'_eq_extractLsb']
theorem decCTL_encodes {k : Bool → Port → Bool → Instr} {op : BitVec 8} {w : Word} {i : Instr}
    (hk : ∀ c d n, (k c d n).encode = some (encCTL op c d n)) (ho : opcode w = op) (h : decCTL k w = .ok i) :
    i.encode = some w := by
  obtain ⟨h0, rfl⟩ := reservedZero_eq_ok.1 h
  rw [beq_iff_eq] at h0
  rw [hk]
  refine congrArg some (encWord_eq ho ?_)
  rw [← show w.extractLsb' 1 15 = 0#15 from h0]
  simp (disch := decide) only [dstPort, Port.code_ofCode, dstField, ofBool_getLsbD, BitVec.extractLsb'_append_extractLsb'_eq_extractLsb']
theorem decPfxImm_encodes {k : BitVec 23 → Instr} {op : BitVec 8} {w : Word} {i : Instr}
    (hk : ∀ p, (k p).encode = some (encPfxImm op p)) (ho : opcode w = op) (h : decPfxImm k w = .ok i) :
    i.encode = some w := by
  obtain ⟨h, hc⟩ := decPrefix_eq_ok h
  cases h
  rw [hk]
  refine congrArg some ((congrArg (encWord · op _) hc.symm).trans (encWord_eq ho ?_))
  simp (disch := decide) only []
theorem decPfxFmt_encodes {k : Bool → BitVec 2 → BitVec 4 → Instr} {op : BitVec 8} {w : Word} {i : Instr}
    (hk : ∀ e r n, (k e r n).encode = some (encPfxFmt op e r n)) (ho : opcode w = op) (h : decPfxFmt k w = .ok i) :
    i.encode = some w := by
  obtain ⟨h, hc⟩ := decPrefix_eq_ok h
  obtain ⟨h0, rfl⟩ := reservedZero_eq_ok.1 h
  rw [beq_iff_eq] at h0
  rw [hk]
  refine congrArg some ((congrArg (encWord · op _) hc.symm).trans (encWord_eq ho ?_))
  rw [← show w.extractLsb' 7 16 = 0#16 from h0]
  simp (disch := decide) only [ofBool_getLsbD, BitVec.extractLsb'_append_extractLsb'_eq_extractLsb']
theorem decPfxTs_encodes {k : BitVec 23 → Instr} {op : BitVec 8} {w : Word} {i : Instr}
    (hk : ∀ d, (k d).encode = some (encPfxTs op d)) (ho : opcode w = op) (h : decPfxTs k w = .ok i) :
    i.encode = some w := by
  obtain ⟨h, hc⟩ := decPrefix_eq_ok h
  cases h
  rw [hk]
  refine congrArg some ((congrArg (encWord · op _) hc.symm).trans (encWord_eq ho ?_))
  simp (disch := decide) only []
theorem decPfxRow_encodes {k : Bool → Bool → Instr} {op : BitVec 8} {w : Word} {i : Instr}
    (hk : ∀ s l, (k s l).encode = some (encPfxRow op s l)) (ho : opcode w = op) (h : decPfxRow k w = .ok i) :
    i.encode = some w := by
  obtain ⟨h, hc⟩ := decPrefix_eq_ok h
  obtain ⟨h0, rfl⟩ := reservedZero_eq_ok.1 h
  rw [beq_iff_eq] at h0
  rw [hk]
  refine congrArg some ((congrArg (encWord · op _) hc.symm).trans (encWord_eq ho ?_))
  rw [← show w.extractLsb' 2 21 = 0#21 from h0]
  simp (disch := decide) only [ofBool_getLsbD, BitVec.extractLsb'_append_extractLsb'_eq_extractLsb']
theorem decSfxArv_encodes {k : Bool → BitVec 19 → Instr} {op : BitVec 8} {w : Word} {i : Instr}
    (hk : ∀ c a, (k c a).encode = some (encSfxArv op c a)) (ho : opcode w = op) (h : decSfxArv k w = .ok i) :
    i.encode = some w := by
  obtain ⟨h0, rfl⟩ := reservedZero_eq_ok.1 h
  rw [beq_iff_eq] at h0
  rw [hk]
  refine congrArg some (encWord_eq ho ?_)
  rw [← show w.extractLsb' 0 4 = 0#4 from h0]
  simp (disch := decide) only [BitVec.extractLsb'_append_extractLsb'_eq_extractLsb']

/-! ## The opcode map (R61) -/

theorem opcode_of_toNat {w : Word} {n : Nat} (h : (opcode w).toNat = n) : opcode w = BitVec.ofNat 8 n := by
  rw [← h, BitVec.ofNat_toNat, BitVec.setWidth_eq]

theorem ofWord0_encodes {w : Word} {i : Instr} (h : ofWord0 w = .ok i) : i.encode = some w := by
  unfold ofWord0 at h
  split at h
  case h_1 ho => exact decPfxImm_encodes (fun _ => rfl) (opcode_of_toNat ho) h
  case h_2 ho => exact decPfxFmt_encodes (fun _ _ _ => rfl) (opcode_of_toNat ho) h
  case h_3 ho => exact decPfxTs_encodes (fun _ => rfl) (opcode_of_toNat ho) h
  case h_4 ho => exact decPfxRow_encodes (fun _ _ => rfl) (opcode_of_toNat ho) h
  case h_5 ho => exact decSfxArv_encodes (fun _ _ => rfl) (opcode_of_toNat ho) h
  case h_6 ho => exact decTA_encodes (fun _ _ _ => rfl) (opcode_of_toNat ho) h
  case h_7 ho => exact decTA_encodes (fun _ _ _ => rfl) (opcode_of_toNat ho) h
  case h_8 ho => exact decK_encodes (fun _ _ _ => rfl) (opcode_of_toNat ho) h
  case h_9 ho => exact decQD_encodes (fun _ _ _ => rfl) (opcode_of_toNat ho) h
  case h_10 ho => exact decQL_encodes (fun _ _ _ => rfl) (opcode_of_toNat ho) h
  case h_11 ho => exact decT_encodes (fun _ _ _ _ => rfl) (opcode_of_toNat ho) h
  case h_12 ho => exact decI_encodes (fun _ _ _ _ => rfl) (opcode_of_toNat ho) h
  case h_13 ho => exact decI_encodes (fun _ _ _ _ => rfl) (opcode_of_toNat ho) h
  case h_14 => cases h

theorem ofWord1_encodes {w : Word} {i : Instr} (h : ofWord1 w = .ok i) : i.encode = some w := by
  unfold ofWord1 at h
  split at h
  case h_17 => cases h
  all_goals exact decT_encodes (fun _ _ _ _ => rfl) (opcode_of_toNat ‹_›) h

theorem ofWord2_encodes {w : Word} {i : Instr} (h : ofWord2 w = .ok i) : i.encode = some w := by
  unfold ofWord2 at h
  split at h
  case h_1 ho => exact decI_encodes (fun _ _ _ _ => rfl) (opcode_of_toNat ho) h
  case h_2 ho => exact decTA_encodes (fun _ _ _ => rfl) (opcode_of_toNat ho) h
  case h_3 ho => exact decTA_encodes (fun _ _ _ => rfl) (opcode_of_toNat ho) h
  case h_4 ho => exact decT_encodes (fun _ _ _ _ => rfl) (opcode_of_toNat ho) h
  case h_5 => cases h

theorem ofWord3_encodes {w : Word} {i : Instr} (h : ofWord3 w = .ok i) : i.encode = some w := by
  unfold ofWord3 at h
  split at h
  case h_1 ho => exact decB0_encodes (fun _ _ => rfl) (opcode_of_toNat ho) h
  case h_4 ho => exact decB0_encodes (fun _ _ => rfl) (opcode_of_toNat ho) h
  case h_5 ho => exact decRET_encodes (fun _ _ => rfl) (opcode_of_toNat ho) h
  case h_8 ho => exact decK0_encodes (fun _ _ => rfl) (opcode_of_toNat ho) h
  case h_9 ho => exact decA_encodes (fun _ _ => rfl) (opcode_of_toNat ho) h
  case h_10 ho => exact decK0_encodes (fun _ _ => rfl) (opcode_of_toNat ho) h
  case h_11 ho => exact decK8_encodes (fun _ _ => rfl) (opcode_of_toNat ho) h
  case h_12 ho => exact decK0_encodes (fun _ _ => rfl) (opcode_of_toNat ho) h
  case h_13 => cases h
  all_goals exact decB_encodes (fun _ _ _ => rfl) (opcode_of_toNat ‹_›) h

theorem ofWord4_encodes {w : Word} {i : Instr} (h : ofWord4 w = .ok i) : i.encode = some w := by
  unfold ofWord4 at h
  split at h
  case h_8 ho => exact decTA_encodes (fun _ _ _ => rfl) (opcode_of_toNat ho) h
  case h_17 => cases h
  all_goals exact decT_encodes (fun _ _ _ _ => rfl) (opcode_of_toNat ‹_›) h

theorem ofWord5_encodes {w : Word} {i : Instr} (h : ofWord5 w = .ok i) : i.encode = some w := by
  unfold ofWord5 at h
  split at h
  case h_7 ho => exact decT_encodes (fun _ _ _ _ => rfl) (opcode_of_toNat ho) h
  case h_9 ho => exact decT_encodes (fun _ _ _ _ => rfl) (opcode_of_toNat ho) h
  case h_10 ho => exact decT_encodes (fun _ _ _ _ => rfl) (opcode_of_toNat ho) h
  case h_11 => cases h
  all_goals exact decTA_encodes (fun _ _ _ => rfl) (opcode_of_toNat ‹_›) h

theorem ofWord6_encodes {w : Word} {i : Instr} (h : ofWord6 w = .ok i) : i.encode = some w := by
  unfold ofWord6 at h
  split at h
  case h_8 => cases h
  all_goals exact decT_encodes (fun _ _ _ _ => rfl) (opcode_of_toNat ‹_›) h

theorem ofWord7_encodes {w : Word} {i : Instr} (h : ofWord7 w = .ok i) : i.encode = some w := by
  unfold ofWord7 at h
  split at h
  case h_1 ho => exact decA_encodes (fun _ _ => rfl) (opcode_of_toNat ho) h
  case h_2 ho => exact decA_encodes (fun _ _ => rfl) (opcode_of_toNat ho) h
  case h_6 ho => exact decA_encodes (fun _ _ => rfl) (opcode_of_toNat ho) h
  case h_7 ho => exact decTA_encodes (fun _ _ _ => rfl) (opcode_of_toNat ho) h
  case h_11 ho => exact decTA_encodes (fun _ _ _ => rfl) (opcode_of_toNat ho) h
  case h_12 ho => exact decMODE_encodes (fun _ _ _ _ => rfl) (opcode_of_toNat ho) h
  case h_13 => cases h
  all_goals exact decAB_encodes (fun _ _ _ => rfl) (opcode_of_toNat ‹_›) h

theorem ofWord8_encodes {w : Word} {i : Instr} (h : ofWord8 w = .ok i) : i.encode = some w := by
  unfold ofWord8 at h
  split at h
  case h_1 ho => exact decI_encodes (fun _ _ _ _ => rfl) (opcode_of_toNat ho) h
  case h_3 ho => exact decI_encodes (fun _ _ _ _ => rfl) (opcode_of_toNat ho) h
  case h_5 ho => exact decTA_encodes (fun _ _ _ => rfl) (opcode_of_toNat ho) h
  case h_7 ho => exact decBUF_encodes (fun _ _ _ _ => rfl) (opcode_of_toNat ho) h
  case h_8 ho => exact decBI_encodes (fun _ _ _ => rfl) (opcode_of_toNat ho) h
  case h_9 ho => exact decT_encodes (fun _ _ _ _ => rfl) (opcode_of_toNat ho) h
  case h_10 ho => exact decT_encodes (fun _ _ _ _ => rfl) (opcode_of_toNat ho) h
  case h_11 ho => exact decDI_encodes (fun _ _ _ => rfl) (opcode_of_toNat ho) h
  case h_12 ho => exact decT_encodes (fun _ _ _ _ => rfl) (opcode_of_toNat ho) h
  case h_13 => cases h
  all_goals exact decAB_encodes (fun _ _ _ => rfl) (opcode_of_toNat ‹_›) h

theorem ofWord9_encodes {w : Word} {i : Instr} (h : ofWord9 w = .ok i) : i.encode = some w := by
  unfold ofWord9 at h
  split at h
  case h_6 ho => exact decK8_encodes (fun _ _ => rfl) (opcode_of_toNat ho) h
  case h_7 ho => exact decK8_encodes (fun _ _ => rfl) (opcode_of_toNat ho) h
  case h_8 ho => exact decDI_encodes (fun _ _ _ => rfl) (opcode_of_toNat ho) h
  case h_9 ho => exact decTQA_encodes (fun _ _ _ => rfl) (opcode_of_toNat ho) h
  case h_10 ho => exact decINV_encodes (fun _ _ _ => rfl) (opcode_of_toNat ho) h
  case h_12 => cases h
  all_goals exact decTQ_encodes (fun _ _ _ _ => rfl) (opcode_of_toNat ‹_›) h

theorem ofWordA_encodes {w : Word} {i : Instr} (h : ofWordA w = .ok i) : i.encode = some w := by
  unfold ofWordA at h
  split at h
  case h_1 ho => exact decT_encodes (fun _ _ _ _ => rfl) (opcode_of_toNat ho) h
  case h_5 ho => exact decTA_encodes (fun _ _ _ => rfl) (opcode_of_toNat ho) h
  case h_6 ho => exact decSCOPE_encodes (fun _ _ _ => rfl) (opcode_of_toNat ho) h
  case h_7 ho => exact decSCOPE_encodes (fun _ _ _ => rfl) (opcode_of_toNat ho) h
  case h_8 ho => exact decSCOPE_encodes (fun _ _ _ => rfl) (opcode_of_toNat ho) h
  case h_9 ho => exact decLT_encodes (fun _ _ _ => rfl) (opcode_of_toNat ho) h
  case h_11 ho => exact decA_encodes (fun _ _ => rfl) (opcode_of_toNat ho) h
  case h_12 ho => exact decI_encodes (fun _ _ _ _ => rfl) (opcode_of_toNat ho) h
  case h_14 => cases h
  all_goals exact decAB_encodes (fun _ _ _ => rfl) (opcode_of_toNat ‹_›) h

theorem ofWordB_encodes {w : Word} {i : Instr} (h : ofWordB w = .ok i) : i.encode = some w := by
  unfold ofWordB at h
  split at h
  case h_4 ho => exact decCTL_encodes (fun _ _ _ => rfl) (opcode_of_toNat ho) h
  case h_5 ho => exact decA_encodes (fun _ _ => rfl) (opcode_of_toNat ho) h
  case h_6 ho => exact decT_encodes (fun _ _ _ _ => rfl) (opcode_of_toNat ho) h
  case h_7 ho => exact decTA_encodes (fun _ _ _ => rfl) (opcode_of_toNat ho) h
  case h_11 ho => exact decT_encodes (fun _ _ _ _ => rfl) (opcode_of_toNat ho) h
  case h_12 ho => exact decT_encodes (fun _ _ _ _ => rfl) (opcode_of_toNat ho) h
  case h_13 ho => exact decT_encodes (fun _ _ _ _ => rfl) (opcode_of_toNat ho) h
  case h_14 => cases h
  all_goals exact decAB_encodes (fun _ _ _ => rfl) (opcode_of_toNat ‹_›) h

theorem ofWordC_encodes {w : Word} {i : Instr} (h : ofWordC w = .ok i) : i.encode = some w := by
  unfold ofWordC at h
  split at h
  case h_1 ho => exact decK0_encodes (fun _ _ => rfl) (opcode_of_toNat ho) h
  case h_2 ho => exact decK0_encodes (fun _ _ => rfl) (opcode_of_toNat ho) h
  case h_3 ho => exact decSCOPE_encodes (fun _ _ _ => rfl) (opcode_of_toNat ho) h
  case h_4 ho => exact decDI_encodes (fun _ _ _ => rfl) (opcode_of_toNat ho) h
  case h_5 ho => exact decI_encodes (fun _ _ _ _ => rfl) (opcode_of_toNat ho) h
  case h_6 => cases h

/-- R34-R36: a word that decodes is the word of its instruction. -/
theorem encode_of_ofWord {w : Word} {i : Instr} (h : Instr.ofWord w = .ok i) : i.encode = some w := by
  unfold Instr.ofWord at h
  split at h
  · exact ofWord0_encodes h
  · exact ofWord1_encodes h
  · exact ofWord2_encodes h
  · exact ofWord3_encodes h
  · exact ofWord4_encodes h
  · exact ofWord5_encodes h
  · exact ofWord6_encodes h
  · exact ofWord7_encodes h
  · exact ofWord8_encodes h
  · exact ofWord9_encodes h
  · exact ofWordA_encodes h
  · exact ofWordB_encodes h
  · exact ofWordC_encodes h
  · cases h

@[simp] theorem opcode_encT (op : BitVec 8) (c : Bool) (d : Port) (a b : Src) : opcode (encT op c d a b) = op :=
  opcode_encWord ..
@[simp] theorem opcode_encTA (op : BitVec 8) (c : Bool) (d : Port) (a : Src) : opcode (encTA op c d a) = op :=
  opcode_encWord ..
@[simp] theorem opcode_encAB (op : BitVec 8) (c : Bool) (a b : Src) : opcode (encAB op c a b) = op :=
  opcode_encWord ..
@[simp] theorem opcode_encA (op : BitVec 8) (c : Bool) (a : Src) : opcode (encA op c a) = op :=
  opcode_encWord ..
@[simp] theorem opcode_encI (op : BitVec 8) (c : Bool) (d : Port) (a : Src) (i : BitVec 8) : opcode (encI op c d a i) = op :=
  opcode_encWord ..
@[simp] theorem opcode_encDI (op : BitVec 8) (c : Bool) (d : Port) (i : BitVec 8) : opcode (encDI op c d i) = op :=
  opcode_encWord ..
@[simp] theorem opcode_encQD (op : BitVec 8) (c : Bool) (q : Port) (i : BitVec 8) : opcode (encQD op c q i) = op :=
  opcode_encWord ..
@[simp] theorem opcode_encQL (op : BitVec 8) (c : Bool) (d q : Port) : opcode (encQL op c d q) = op :=
  opcode_encWord ..
@[simp] theorem opcode_encK (op : BitVec 8) (c : Bool) (d : Port) (i : BitVec 16) : opcode (encK op c d i) = op :=
  opcode_encWord ..
@[simp] theorem opcode_encK0 (op : BitVec 8) (c : Bool) (i : BitVec 16) : opcode (encK0 op c i) = op :=
  opcode_encWord ..
@[simp] theorem opcode_encK8 (op : BitVec 8) (c : Bool) (i : BitVec 8) : opcode (encK8 op c i) = op :=
  opcode_encWord ..
@[simp] theorem opcode_encB (op : BitVec 8) (c : Bool) (s : Src) (o : BitVec 15) : opcode (encB op c s o) = op :=
  opcode_encWord ..
@[simp] theorem opcode_encB0 (op : BitVec 8) (c : Bool) (o : BitVec 15) : opcode (encB0 op c o) = op :=
  opcode_encWord ..
@[simp] theorem opcode_encRET (op : BitVec 8) (c : Bool) (s : Src) : opcode (encRET op c s) = op :=
  opcode_encWord ..
@[simp] theorem opcode_encTQ (op : BitVec 8) (c : Bool) (n : BitVec 3) (a b : Src) : opcode (encTQ op c n a b) = op :=
  opcode_encWord ..
@[simp] theorem opcode_encTQA (op : BitVec 8) (c : Bool) (n : BitVec 3) (a : Src) : opcode (encTQA op c n a) = op :=
  opcode_encWord ..
@[simp] theorem opcode_encBUF (op : BitVec 8) (c : Bool) (n : BitVec 7) (a b : Src) : opcode (encBUF op c n a b) = op :=
  opcode_encWord ..
@[simp] theorem opcode_encBI (op : BitVec 8) (c : Bool) (n : BitVec 7) (i : BitVec 8) : opcode (encBI op c n i) = op :=
  opcode_encWord ..
@[simp] theorem opcode_encMODE (op : BitVec 8) (c : Bool) (d : Port) (h o : Bool) : opcode (encMODE op c d h o) = op :=
  opcode_encWord ..
@[simp] theorem opcode_encINV (op : BitVec 8) (c : Bool) (l : Bool) (w : BitVec 6) : opcode (encINV op c l w) = op :=
  opcode_encWord ..
@[simp] theorem opcode_encSCOPE (op : BitVec 8) (c : Bool) (g : BitVec 8) (s : BitVec 2) : opcode (encSCOPE op c g s) = op :=
  opcode_encWord ..
@[simp] theorem opcode_encLT (op : BitVec 8) (c : Bool) (d : Port) (s : BitVec 2) : opcode (encLT op c d s) = op :=
  opcode_encWord ..
@[simp] theorem opcode_encCTL (op : BitVec 8) (c : Bool) (d : Port) (n : Bool) : opcode (encCTL op c d n) = op :=
  opcode_encWord ..
@[simp] theorem opcode_encPfxImm (op : BitVec 8) (p : BitVec 23) : opcode (encPfxImm op p) = op :=
  opcode_encWord ..
@[simp] theorem opcode_encPfxFmt (op : BitVec 8) (e : Bool) (r : BitVec 2) (n : BitVec 4) : opcode (encPfxFmt op e r n) = op :=
  opcode_encWord ..
@[simp] theorem opcode_encPfxTs (op : BitVec 8) (d : BitVec 23) : opcode (encPfxTs op d) = op :=
  opcode_encWord ..
@[simp] theorem opcode_encPfxRow (op : BitVec 8) (s l : Bool) : opcode (encPfxRow op s l) = op :=
  opcode_encWord ..
@[simp] theorem opcode_encSfxArv (op : BitVec 8) (c : Bool) (a : BitVec 19) : opcode (encSfxArv op c a) = op :=
  opcode_encWord ..

/-- R34-R36: the word of an instruction decodes to it. -/
theorem ofWord_of_encode {i : Instr} {w : Word} (h : i.encode = some w) : Instr.ofWord w = .ok i := by
  cases i <;> cases h
  all_goals simp only [Instr.ofWord, BitVec.reduceToNat, Nat.reduceDiv, ofWord0, ofWord1, ofWord2, ofWord3, ofWord4, ofWord5,
    ofWord6, ofWord7, ofWord8, ofWord9, ofWordA, ofWordB, ofWordC, opcode_encT, opcode_encTA, opcode_encAB, opcode_encA,
    opcode_encI, opcode_encDI, opcode_encQD, opcode_encQL, opcode_encK, opcode_encK0, opcode_encK8, opcode_encB, opcode_encB0,
    opcode_encRET, opcode_encTQ, opcode_encTQA, opcode_encBUF, opcode_encBI, opcode_encMODE, opcode_encINV, opcode_encSCOPE,
    opcode_encLT, opcode_encCTL, opcode_encPfxImm, opcode_encPfxFmt, opcode_encPfxTs, opcode_encPfxRow, opcode_encSfxArv,
    decT_encT, decTA_encTA, decAB_encAB, decA_encA, decI_encI, decDI_encDI, decQD_encQD, decQL_encQL, decK_encK, decK0_encK0,
    decK8_encK8, decB_encB, decB0_encB0, decRET_encRET, decTQ_encTQ, decTQA_encTQA, decBUF_encBUF, decBI_encBI, decMODE_encMODE,
    decINV_encINV, decSCOPE_encSCOPE, decLT_encLT, decCTL_encCTL, decPfxImm_encPfxImm, decPfxFmt_encPfxFmt, decPfxTs_encPfxTs,
    decPfxRow_encPfxRow, decSfxArv_encSfxArv]

/-- R3: four bytes in memory order are the word they are taken from. -/
theorem wordOfBytes_bytesOfWord (w : Word) :
    wordOfBytes (w.extractLsb' 0 8) (w.extractLsb' 8 8) (w.extractLsb' 16 8) (w.extractLsb' 24 8) = w := by
  have hbytes : w.extractLsb' 24 8 ++ w.extractLsb' 16 8 ++ w.extractLsb' 8 8 ++ w.extractLsb' 0 8 = w.extractLsb' 0 32 := by
    simp (disch := decide) only [BitVec.extractLsb'_append_extractLsb'_eq_extractLsb']
  exact hbytes.trans BitVec.extractLsb'_eq_self

theorem ofBytes_bytesOfWord (w : Word) (rest : List Byte) : Instr.ofBytes (bytesOfWord w ++ rest) = (Instr.ofWord w, rest) :=
  congrArg (fun v => (Instr.ofWord v, rest)) (wordOfBytes_bytesOfWord w)

/-- The rows that have a word are those that issue on a pipe, the prefixes and the suffix. -/
theorem isWordInstr_eq (i : Instr) : Machine.isWordInstr i = i.encode.isSome := by
  cases i <;> rfl

/-- Settles O51: every format reads back what it wrote (`ofWord_of_encode`), at the four bytes of the word whatever follows them. -/
theorem encodedWordsDecode : Obligations.EncodedWordsDecode := by
  unfold Obligations.EncodedWordsDecode
  intro i
  refine ⟨by rw [isWordInstr_eq], fun w rest h => ?_⟩
  rw [ofBytes_bytesOfWord, ofWord_of_encode h]

/-- Settles O52: every format writes back what it read (`encode_of_ofWord`). -/
theorem decodedWordsEncode : Obligations.DecodedWordsEncode := fun _ _ => encode_of_ofWord

/-- Settles O50: the words of the list are closed terms, which the decoder evaluates. -/
theorem specWordsDecode : Obligations.SpecWordsDecode := by
  unfold Obligations.SpecWordsDecode
  decide

end Sys2Proof
end

section
/-! PROOFS. Vector words (R121, R122, R173-R181, R183, R185, R190-R195): what a word of one or two vector operands puts in flight, and
the statements on them. -/
namespace Sys2Proof.Machine

/-! ## Checks of an effect -/

theorem Core.need_of {c : Core} {b : Bool} {code : TrapCode} (h : b = true) : c.need b code = .ok () := by
  rw [Core.need, if_pos h]

theorem Core.noPoison_of {c : Core} {k : Kind} (h : k.poisoned = false) : c.noPoison k = .ok () := by
  rw [Core.noPoison, h, if_neg Bool.false_ne_true]

/-- A result without flags is one entry in flight. -/
theorem State.resultV_zero (s : State) (d : Port) (v : Val) (lat : Nat) :
    s.resultV d (v, 0) lat = [s.result s.issuing.vPipe s.issuing.vPipe.latch d v lat] := rfl

/-- Popping the head of a queue after the operands are read leaves the queues of the statement. -/
theorem State.adding_readQueue {s : State} {qs : SMap (List Val)} {es : List Item} {lt : Nat} {d : Port} {z : Val} {rest : List Val}
    (h : SMap.get [] qs (Port.num d) = z :: rest) :
    (s.adding qs es lt).readQueue d false = .ok (z, s.adding (SMap.set [] qs (Port.num d) rest) es lt) :=
  Core.readQueue_of_cons h

section
variable {s : State} {a b : Src} {x y : Val} {k : W64} {qs : SMap (List Val)}

/-! ## Words of two vector operands (R172, R173) -/

theorem vecBinary_of_readsVV (h : ReadsVV s a b x y qs) (d : Port) (lat : Nat → Nat) (f : Nat → Nat → Nat → Nat → Nat × Flags) :
    s.issuing.vecBinary d a b lat f = .ok (s.adding qs (s.resultV d
      (zipElems (widthOf (fVtype s.issuing.fmt)) x y (f (fVtype s.issuing.fmt) (fRnd s.issuing.fmt))) (lat (fVtype s.issuing.fmt)))
      (s.issuing.now + lat (fVtype s.issuing.fmt))) := by
  obtain ⟨c, hx, hy⟩ := readsVV_eq h
  simp only [Core.vecBinary, hx, hy, bind, Except.bind, State.adding_deliverV, List.nil_append]

/-- A word whose effect is an element function of two vectors gives it. -/
theorem givesV_of_vecBinary {i : Instr} (h : ReadsVV s a b x y qs) (d : Port) (lat : Nat → Nat)
    (f : Nat → Nat → Nat → Nat → Nat × Flags) (he : exec i s = issue i (fun _ c => c.vecBinary d a b lat f) s) :
    GivesV i s qs d (zipElems (widthOf (fVtype s.issuing.fmt)) x y (f (fVtype s.issuing.fmt) (fRnd s.issuing.fmt)))
      (lat (fVtype s.issuing.fmt)) :=
  delivers_of he (vecBinary_of_readsVV h d lat f)

theorem vecUnary_of_readsV (h : ReadsV s a x qs) (d : Port) (lat : Nat) (f : Nat → Nat → Nat → Nat × Flags) :
    s.issuing.vecUnary d a lat f = .ok (s.adding qs (s.resultV d
      (mapElems (widthOf (fVtype s.issuing.fmt)) x (f (fVtype s.issuing.fmt) (fRnd s.issuing.fmt))) lat) (s.issuing.now + lat)) := by
  simp only [Core.vecUnary, readsV_eq h, bind, Except.bind, State.adding_deliverV, List.nil_append]

/-- A word whose effect is an element function of one vector gives it. -/
theorem givesV_of_vecUnary {i : Instr} (h : ReadsV s a x qs) (d : Port) (lat : Nat) (f : Nat → Nat → Nat → Nat × Flags)
    (he : exec i s = issue i (fun _ c => c.vecUnary d a lat f) s) :
    GivesV i s qs d (mapElems (widthOf (fVtype s.issuing.fmt)) x (f (fVtype s.issuing.fmt) (fRnd s.issuing.fmt))) lat :=
  delivers_of he (vecUnary_of_readsV h d lat f)

/-- R173: a count of at least the width shifts every bit out. -/
theorem elemShl_eq (t x y : Nat) : elemShl t x y = x * 2 ^ y % 2 ^ widthOf t := by
  unfold elemShl
  split
  · next hw => exact (Nat.mod_eq_zero_of_dvd (Nat.dvd_mul_left_of_dvd (Nat.pow_dvd_pow 2 hw) x)).symm
  · rw [Nat.shiftLeft_eq]

end

/-- Settles O7: every word of the family is an element function of two vectors (`givesV_of_vecBinary`). -/
theorem vectorArithmeticResults : Obligations.VectorArithmeticResults := by
  unfold Obligations.VectorArithmeticResults
  intro s ch d a b x y qs h
  simp only [← elemShl_eq]
  exact ⟨givesV_of_vecBinary h d arithLat elemAdd rfl, givesV_of_vecBinary h d arithLat elemSub rfl,
    givesV_of_vecBinary h d arithLat elemMul rfl,
    givesV_of_vecBinary h d (fun _ => 2) (fun t _ x y => (elemMinMax false t x y, 0)) rfl,
    givesV_of_vecBinary h d (fun _ => 2) (fun t _ x y => (elemMinMax true t x y, 0)) rfl,
    givesV_of_vecBinary h d (fun _ => 2) (fun _ _ x y => (x &&& y, 0)) rfl,
    givesV_of_vecBinary h d (fun _ => 2) (fun _ _ x y => (x ||| y, 0)) rfl,
    givesV_of_vecBinary h d (fun _ => 2) (fun _ _ x y => (x ^^^ y, 0)) rfl,
    givesV_of_vecBinary h d (fun _ => 2) (fun t _ x y => (elemShl t x y, 0)) rfl,
    givesV_of_vecBinary h d (fun _ => 2) (fun t _ x y => (elemShr t x y, 0)) rfl⟩

/-! ## Fused multiply-add, compares and selection (R174-R176) -/

section
variable {s : State} {a b : Src} {x y : Val} {qs : SMap (List Val)}

/-- R174: the three operands of a fused multiply-add, element by element. -/
def fusedElems (s : State) (sub : Bool) (x y z : Val) : VecRes :=
  vecOf (widthOf (fVtype s.issuing.fmt)) fun i =>
    (elemFma sub (fVtype s.issuing.fmt) (fRnd s.issuing.fmt) (x.elem (widthOf (fVtype s.issuing.fmt)) i)
      (y.elem (widthOf (fVtype s.issuing.fmt)) i) (z.elem (widthOf (fVtype s.issuing.fmt)) i),
     ((x.elemKind (widthOf (fVtype s.issuing.fmt)) i).join (y.elemKind (widthOf (fVtype s.issuing.fmt)) i)).join
       (z.elemKind (widthOf (fVtype s.issuing.fmt)) i))

theorem fma_of_readsVV (h : ReadsVV s a b x y qs) (sub : Bool) {d : Port} {z : Val} {rest : List Val}
    (hz : SMap.get [] qs (Port.num d) = z :: rest) :
    s.issuing.fma sub d a b = .ok (s.adding (SMap.set [] qs (Port.num d) rest)
      (s.resultV d (fusedElems s sub x y z) (arithLat (fVtype s.issuing.fmt)))
      (s.issuing.now + arithLat (fVtype s.issuing.fmt))) := by
  obtain ⟨c, hx, hy⟩ := readsVV_eq h
  simp only [Core.fma, hx, hy, bind, Except.bind, State.adding_readQueue hz, State.adding_deliverV, List.nil_append]
  rfl

/-- R175: what a compare of two vectors puts in flight: all ones or zeros to each element, and its results to M. -/
def State.comparedV (s : State) (d : Port) (f : Nat → Nat → Bool) (x y : Val) : List Item :=
  let w := widthOf (fVtype s.issuing.fmt)
  let rs := (upto (2048 / w)).map fun i => f (x.elem w i) (y.elem w i)
  s.resultV d (Val.ofElems w (rs.map fun r => (if r then 2 ^ w - 1 else 0, .clean)), 0) 2 ++
    [s.entry s.issuing.vPipe (s.issuing.now + 2) none (.setM (BitVec.ofNat 256 (ofBits rs)))]

theorem vecCompare_of_readsVV (h : ReadsVV s a b x y qs) (hk : (x.anyKind.join y.anyKind).poisoned = false) (d : Port)
    (f : Nat → Nat → Nat → Bool) :
    s.issuing.vecCompare d a b f =
      .ok (s.adding qs (s.comparedV d (f (fVtype s.issuing.fmt)) x y) (s.issuing.now + 2)) := by
  obtain ⟨c, hx, hy⟩ := readsVV_eq h
  simp only [Core.vecCompare, hx, hy, bind, Except.bind, Core.noPoison_of hk, State.adding_deliverV, State.adding_later,
    State.adding_now, State.adding_vPipe, List.nil_append]
  rfl

end

/-- Settles O8: the fused words by `fma_of_readsVV`, the compares by `vecCompare_of_readsVV`. -/
theorem fusedCompareSelectResults : Obligations.FusedCompareSelectResults := by
  unfold Obligations.FusedCompareSelectResults
  intro s ch d a b x y qs h
  refine ⟨fun z rest hz => ⟨?_, ?_⟩,
    fun hk => ⟨?_, ?_⟩, ?_⟩
  · exact delivers_of (rfl : execVfma ch d a b s = _) (fma_of_readsVV h false hz)
  · exact delivers_of (rfl : execVfms ch d a b s = _) (fma_of_readsVV h true hz)
  · exact delivers_of (rfl : execVceq ch d a b s = _) (vecCompare_of_readsVV h hk d elemEq)
  · exact delivers_of (rfl : execVclt ch d a b s = _) (vecCompare_of_readsVV h hk d elemLt)
  · refine delivers_of (rfl : execVsel ch d a b s = _) ?_
    obtain ⟨c, hx, hy⟩ := readsVV_eq h
    simp only [hx, hy, bind, Except.bind, State.adding_deliverV, List.nil_append]

/-! ## Words of one vector operand (R177, R179, R181) -/

/-- Settles O9: an element function of one vector (`givesV_of_vecUnary`), or a function of the whole vector. -/
theorem vectorUnaryResults : Obligations.VectorUnaryResults := by
  unfold Obligations.VectorUnaryResults
  intro s ch d a x qs h
  refine ⟨givesV_of_vecUnary h d 2 (fun t _ p => (elemAbs t p, 0)) rfl, givesV_of_vecUnary h d 8 (fnCode .rcp) rfl,
    givesV_of_vecUnary h d 8 (fnCode .rsq) rfl, givesV_of_vecUnary h d 8 (fnCode .exp2) rfl,
    givesV_of_vecUnary h d 8 (fnCode .log2) rfl, delivers_of (rfl : execVred ch d a s = _) ?_,
    delivers_of (rfl : execVredx ch d a s = _) ?_, delivers_of (rfl : execVcomp ch d a s = _) ?_⟩
  all_goals simp only [readsV_eq h, bind, Except.bind, State.adding_deliverV, List.nil_append, beq_iff_eq]

/-- Settles O10: each word is a function of its two operands, delivered without flags. -/
theorem permuteHashResults : Obligations.PermuteHashResults := by
  unfold Obligations.PermuteHashResults
  intro s ch d a b
  refine ⟨fun x y qs h => delivers_of (rfl : execVperm ch d a b s = _) ?_,
    fun x k qs h => ⟨delivers_of (rfl : execVlane ch d a b s = _) ?_, delivers_of (rfl : execVhash ch d a b s = _) ?_⟩⟩
  · obtain ⟨c, hx, hy⟩ := readsVV_eq h
    simp only [hx, hy, bind, Except.bind, State.adding_deliverV, List.nil_append]
  all_goals
    obtain ⟨c, hx, hk⟩ := readsVS_eq h
    simp only [hx, hk, bind, Except.bind, State.adding_deliverV, List.nil_append]

/-! ## Broadcast, extraction and insertion (R121, R122) -/

/-- Settles O6: `vbcast` reads one scalar, or two in C128; `vext` delivers to a scalar port; `vins` pops its old vector. -/
theorem broadcastExtractInsertResults : Obligations.BroadcastExtractInsertResults := by
  unfold Obligations.BroadcastExtractInsertResults
  intro s ch d a b
  refine ⟨fun x qs h ht => delivers_of (rfl : execVbcast ch d a b s = _) ?_,
    fun x y qs h ht => delivers_of (rfl : execVbcast ch d a b s = _) ?_,
    fun n v qs h hk => delivers_of (rfl : execVext ch d a n s = _) ?_,
    fun n x qs v rest h hz => delivers_of (rfl : execVins ch d a n s = _) ?_⟩
  · simp only [readsS_eq h, bind, Except.bind, beq_eq_false_iff_ne.2 ht, Bool.false_eq_true, ↓reduceIte, State.adding_deliverV,
      List.nil_append]
  · obtain ⟨c, hx, hy⟩ := readsSS_eq h
    simp only [hx, hy, bind, Except.bind, ht, beq_self_eq_true, ↓reduceIte, State.adding_deliverV, List.nil_append,
      Nat.shiftLeft_eq, Nat.mul_comm]
  · simp only [readsV_eq h, bind, Except.bind, Core.noPoison_of hk, State.adding_vPipe, State.adding_deliver, List.nil_append,
      extSigned, Bool.or_eq_true, beq_iff_eq, or_assoc]
  · simp only [readsS_eq h, bind, Except.bind, State.adding_readQueue hz, State.adding_deliverV, List.nil_append]

/-! ## Conversions (R185, R190-R195) -/

section
variable {s : State} {a b : Src} {x : Val} {p : W64} {qs : SMap (List Val)}

theorem convertScalar_of_readsVS (h : ReadsVS s a b x p qs)
    (hp : p.toNat < partCount (widthOf (fVtype s.issuing.fmt)) (widthOf (fCtype s.issuing.fmt))) (d : Port)
    (f : Nat → Nat → Nat → Nat → Nat × Flags) :
    s.issuing.convertScalar d a b f = .ok (s.adding qs (s.resultV d
      (convertPart (widthOf (fVtype s.issuing.fmt)) (widthOf (fCtype s.issuing.fmt)) p.toNat x
        (fun _ => f (fVtype s.issuing.fmt) (fCtype s.issuing.fmt) (fRnd s.issuing.fmt)) fun _ => .clean) 4)
      (s.issuing.now + 4)) := by
  obtain ⟨c, hx, hk⟩ := readsVS_eq h
  simp only [Core.convertScalar, hx, hk, bind, Except.bind, Core.need_of (decide_eq_true hp), State.adding_deliverV, List.nil_append]

end

/-- Settles O11: the words with a scalar part number by `convertScalar_of_readsVS`; those with a scale operand once its checks let it
through. -/
theorem conversionResults : Obligations.ConversionResults := by
  unfold Obligations.ConversionResults
  intro s ch d a b
  refine ⟨fun x p qs h hp => ⟨
      delivers_of (rfl : execVcvt ch d a b s = _) (convertScalar_of_readsVS h hp d convElem),
      delivers_of (rfl : execVpack ch d a b s = _) (convertScalar_of_readsVS h hp d fun _ td _ e => (e % 2 ^ widthOf td, 0)),
      delivers_of (rfl : execVunpack ch d a b s = _) (convertScalar_of_readsVS h hp d fun ts td _ e =>
        (if isSigned ts then wrapInt (intVal ts e) (widthOf td) else e, 0))⟩,
    fun x q qs h hk hp => ⟨delivers_of (rfl : execVquant ch d a b s = _) ?_, delivers_of (rfl : execVdequant ch d a b s = _) ?_⟩,
    fun x q qs h hk hp => delivers_of (rfl : execVcvts ch d a b s = _) ?_,
    fun x ctl qs h hw hp => delivers_of (rfl : execVscale ch d a b s = _) ?_⟩
  · obtain ⟨c, hx, hq⟩ := readsVV_eq h
    simp only [hx, hq, bind, Except.bind, Core.noPoison_of hk, Core.need_of (decide_eq_true hp), State.adding_deliverV,
      List.nil_append]
  · obtain ⟨c, hx, hq⟩ := readsVV_eq h
    simp only [hx, hq, bind, Except.bind, Core.noPoison_of hk, Core.need_of (decide_eq_true hp), State.adding_deliverV,
      List.nil_append]
  · obtain ⟨c, hx, hq⟩ := readsVV_eq h
    simp only [hx, hq, bind, Except.bind, Core.noPoison_of hk, Core.need_of (decide_eq_true hp), State.adding_deliverV,
      List.nil_append]
  · obtain ⟨c, hx, hq⟩ := readsVS_eq h
    simp only [hx, hq, bind, Except.bind, Core.need_of hw, Core.need_of (decide_eq_true hp), State.adding_deliverV,
      List.nil_append, List.map_map]
    rfl

end Sys2Proof.Machine
end

section
/-! PROOFS. Scratchpad words (R127, R242-R244, R247-R255): loads, stores, atomics, row gathers and buffers. -/
namespace Sys2Proof.Machine

/-! ## A word that traps -/

/-- A word that its checks let issue and whose effect traps takes that trap. -/
theorem traps_of {i : Instr} {body : Body} {s : State} {t : Trap} (hp : Passes i s) (he : exec i s = issue i body s)
    (hb : body s s.issuing = .error t) : exec i s = .next (takeTrap s.cur t s) := by
  rw [he, issue]
  have hw : Instr.wordTrap? i (s.core s.cur) = none := hp
  have hb' : body s ((s.core s.cur).retireAt (s.core s.cur).now) = .error t := hb
  simp only [hw, hb']

theorem Core.need_fails {c : Core} {b : Bool} {code : TrapCode} (h : b = false) : c.need b code = .error (c.wordTrap code) := by
  rw [Core.need, h, if_neg Bool.false_ne_true]

/-! ## What reading operands leaves alone -/

@[simp] theorem State.adding_immS (s : State) (qs : SMap (List Val)) (es : List Item) (lt w v : Nat) :
    (s.adding qs es lt).immS w v = s.issuing.immS w v := rfl
@[simp] theorem State.adding_wordTrap (s : State) (qs : SMap (List Val)) (es : List Item) (lt : Nat) (k : TrapCode) :
    (s.adding qs es lt).wordTrap k = s.issuing.wordTrap k := rfl
@[simp] theorem State.adding_need (s : State) (qs : SMap (List Val)) (es : List Item) (lt : Nat) (b : Bool) (k : TrapCode) :
    (s.adding qs es lt).need b k = s.issuing.need b k := rfl
@[simp] theorem State.adding_noPoison (s : State) (qs : SMap (List Val)) (es : List Item) (lt : Nat) (k : Kind) :
    (s.adding qs es lt).noPoison k = s.issuing.noPoison k := rfl
@[simp] theorem State.adding_lanes (s : State) (qs : SMap (List Val)) (es : List Item) (lt : Nat) (v : Val) (n : Nat) :
    (s.adding qs es lt).lanes v n = s.issuing.lanes v n := rfl
@[simp] theorem State.adding_checkLanes (s : State) (qs : SMap (List Val)) (es : List Item) (lt : Nat) (ls : List Nat)
    (al n : Nat) (f : Nat → Bool) : (s.adding qs es lt).checkLanes ls al n f = s.issuing.checkLanes ls al n f := rfl
@[simp] theorem State.adding_readGuard (s : State) (qs : SMap (List Val)) (es : List Item) (lt : Nat) (r : List (Nat × Nat × Nat)) :
    (s.adding qs es lt).readGuard r = s.issuing.readGuard r := rfl
@[simp] theorem State.adding_writeGuard (s : State) (qs : SMap (List Val)) (es : List Item) (lt : Nat) (r : List (Nat × Nat × Nat)) :
    (s.adding qs es lt).writeGuard r = s.issuing.writeGuard r := rfl
@[simp] theorem State.adding_atomicGuard (s : State) (qs : SMap (List Val)) (es : List Item) (lt : Nat) (r : List (Nat × Nat × Nat)) :
    (s.adding qs es lt).atomicGuard r = s.issuing.atomicGuard r := rfl
@[simp] theorem State.adding_moveGuard (s : State) (qs : SMap (List Val)) (es : List Item) (lt : Nat)
    (r w : List (Nat × Nat × Nat)) : (s.adding qs es lt).moveGuard r w = s.issuing.moveGuard r w := rfl
@[simp] theorem State.adding_buf (s : State) (qs : SMap (List Val)) (es : List Item) (lt n : Nat) :
    (s.adding qs es lt).a.buf n = s.issuing.a.buf n := rfl
@[simp] theorem State.adding_bufs (s : State) (qs : SMap (List Val)) (es : List Item) (lt : Nat) :
    (s.adding qs es lt).a.bufs = s.issuing.a.bufs := rfl
@[simp] theorem State.adding_filled (s : State) (qs : SMap (List Val)) (es : List Item) (lt : Nat) :
    (s.adding qs es lt).filled = s.issuing.filled := rfl

/-- Until something is put in flight, the slots meet the writes that they met. -/
theorem State.adding_slotTaken (s : State) (qs : SMap (List Val)) (lt a first last : Nat) :
    (s.adding qs [] lt).slotTaken a first last = s.issuing.slotTaken a first last := by
  simp only [Core.slotTaken, State.adding, List.append_nil]

/-- The slot of a destination as `deliver` and the loads write it. -/
theorem ite_reserves_eq_destSlot (d : Port) : (if Port.reserves d then some d else none) = destSlot d := rfl

/-! ## Addresses (R127) -/

theorem Core.spadAddr_of {c : Core} {v : W64} {align len : Nat} (ha : v.toNat % align = 0) (hl : v.toNat + len ≤ spadSize) :
    c.spadAddr v align len = .ok v.toNat := by
  simp only [Core.spadAddr, ha, hl, BEq.rfl, decide_true, Bool.and_self, ↓reduceIte]

theorem Core.spadAddr_misaligned {c : Core} {v : W64} {align len : Nat} (ha : v.toNat % align ≠ 0) :
    c.spadAddr v align len = .error (c.wordTrap .range) := by
  simp only [Core.spadAddr, beq_eq_false_iff_ne.2 ha, Bool.false_and, Bool.false_eq_true, ↓reduceIte]

/-- Settles O12: the address is taken (`Core.spadAddr_of`), or refused where it is misaligned, and the guards of the statement are
those of the core after its operands. -/
theorem loadResults : Obligations.LoadResults := by
  unfold Obligations.LoadResults
  intro s ch d a i
  refine ⟨fun b qs h hp => ?_, fun b qs h hp ha hl hg => ?_, fun v qs ls as h hls has hg => ?_⟩
  · refine ⟨fun ha hl hg => delivers_of (rfl : execLd ch d a i s = _) ?_ hp, fun ha => traps_of hp (rfl : execLd ch d a i s = _) ?_⟩
    · simp only [readsS_eq h, bind, Except.bind, State.adding_immS, Core.spadAddr_of ha hl,
        State.adding_readGuard, State.adding_now, State.adding_later, State.adding_retireAt, List.nil_append, hg,
        ite_reserves_eq_destSlot]
    · simp only [readsS_eq h, bind, Except.bind, State.adding_immS, Core.spadAddr_misaligned ha,
        State.adding_wordTrap]
  · refine delivers_of (rfl : execVld ch d a i s = _) ?_ hp
    simp only [readsS_eq h, bind, Except.bind, State.adding_immS, Core.spadAddr_of ha hl,
      State.adding_readGuard, State.adding_now, State.adding_vPipe, State.adding_later, State.adding_retireAt, List.nil_append, hg,
      ite_reserves_eq_destSlot]
  · refine delivers_of (rfl : execVgath ch d a s = _) ?_
    simp only [readsV_eq h, bind, Except.bind, State.adding_lanes, State.adding_checkLanes, hls, has,
      State.adding_readGuard, State.adding_now, State.adding_vPipe, State.adding_later, State.adding_retireAt, List.nil_append, hg,
      ite_reserves_eq_destSlot]

/-! ## Stores -/

theorem rangeFrom_zero (n : Nat) : rangeFrom 0 n = upto n := rfl

/-- A scatter puts one write in flight for each lane that takes part, numbered from the first. -/
theorem State.adding_scatter (s : State) (qs : SMap (List Val)) (lt : Nat) (p : Pipe) (t w : Nat) (v : Val) :
    ∀ (ls : List (Option (Nat × BitVec 3))) (i : Nat) (es : List Item),
      (s.adding qs es lt).scatter p t w v i ls = s.adding qs (es ++ (ls.zip (rangeFrom i ls.length)).filterMap fun (e, i) =>
        e.map fun x => s.entry p t none (.write x.1 (v.elemWords w i))) lt := by
  intro ls
  induction ls with
  | nil => intro i es; simp only [Core.scatter, List.zip_nil_left, List.filterMap_nil, List.append_nil]
  | cons l ls ih =>
    intro i es
    cases l with
    | none =>
      rw [Core.scatter, ih]
      simp only [List.length_cons, rangeFrom, List.zip_cons_cons, List.filterMap_cons, Option.map_none]
    | some x =>
      rw [Core.scatter, State.adding_later, ih]
      simp only [List.length_cons, rangeFrom, List.zip_cons_cons, List.filterMap_cons, Option.map_some, List.append_assoc,
        List.singleton_append]

/-- Settles O13: a store puts its write in flight once its address and guards let it through; a scatter one for each lane
(`State.adding_scatter`). -/
theorem storeResults : Obligations.StoreResults := by
  unfold Obligations.StoreResults
  intro s ch a b
  refine ⟨fun x v qs h ha hl hg => delivers_of (rfl : execSt ch a b s = _) ?_,
    fun v x qs h ha hl hg => delivers_of (rfl : execVst ch a b s = _) ?_,
    fun v l qs ls as h hls has hg => delivers_of (rfl : execVscat ch a b s = _) ?_⟩
  · obtain ⟨c, hx, hv⟩ := readsSS_eq h
    simp only [hx, hv, bind, Except.bind, Core.spadAddr_of ha hl, State.adding_writeGuard, State.adding_now,
      State.adding_later, State.adding_retireAt, List.nil_append, hg]
  · obtain ⟨c, hv, hx⟩ := readsVS_eq h
    simp only [hx, hv, bind, Except.bind, Core.spadAddr_of ha hl, State.adding_writeGuard, State.adding_now,
      State.adding_vPipe, State.adding_later, State.adding_retireAt, List.nil_append, hg]
  · obtain ⟨c, hv, hl⟩ := readsVV_eq h
    simp only [hv, hl, bind, Except.bind, State.adding_lanes, State.adding_checkLanes, hls, has, State.adding_writeGuard,
      State.adding_now, State.adding_vPipe, hg, State.adding_scatter, State.adding_retireAt, List.nil_append, rangeFrom_zero]

/-! ## Atomics and row gathers -/

/-- A value below a power of two has no bit at or above it. -/
theorem within_of_lt {v : W64} {hi : Nat} (h : v.toNat < 2 ^ (hi + 1)) : within v (ones hi 0) = true := by
  rw [within, ones, beq_iff_eq, Nat.shiftLeft_zero, Nat.sub_zero, Nat.and_two_pow_sub_one_eq_mod, Nat.mod_eq_of_lt h]

/-- A field of one bit is that bit. -/
theorem fld_one_bit_eq (v : W64) (n : Nat) : (fld v n n == 1) = v.getLsbD n := by
  rw [fld, bitsOf, show n + 1 - n = 1 by omega, Nat.pow_one, Nat.shiftRight_eq_div_pow, ← BitVec.testBit_toNat,
    Nat.testBit_eq_decide_div_mod_eq]
  rfl

/-- A core with other read-modify-write slots (R244). -/
def Core.withSlots (c : Core) (l : List (Nat × Nat × Nat × Nat)) : Core := { c with a := { c.a with slots := l } }

theorem Core.later_withSlots (c : Core) (l : List (Nat × Nat × Nat × Nat)) (p : Pipe) (lt : Nat) (dst : Option Port) (act : Act) :
    (c.withSlots l).later p lt dst act = (c.later p lt dst act).withSlots l := rfl
theorem Core.retireAt_withSlots (c : Core) (l : List (Nat × Nat × Nat × Nat)) (lt : Nat) :
    (c.withSlots l).retireAt lt = (c.retireAt lt).withSlots l := rfl
theorem State.withSlots_now (s : State) (qs : SMap (List Val)) (es : List Item) (lt : Nat) (l : List (Nat × Nat × Nat × Nat)) :
    ((s.adding qs es lt).withSlots l).now = s.issuing.now := rfl
theorem State.withSlots_vPipe (s : State) (qs : SMap (List Val)) (es : List Item) (lt : Nat) (l : List (Nat × Nat × Nat × Nat)) :
    ((s.adding qs es lt).withSlots l).vPipe = s.issuing.vPipe := rfl

/-- Slots that are free open on each bank once, beside those still live. -/
theorem State.adding_openSlots (s : State) (qs : SMap (List Val)) (lt first last : Nat) {as : List Nat}
    (h : (as.all fun x => !s.issuing.slotTaken x first last) = true) :
    (s.adding qs [] lt).openSlots first last as = .ok ((s.adding qs [] lt).withSlots
      ((s.issuing.a.slots.filter fun (_, _, l, _) => s.issuing.now ≤ l) ++
        (as.foldl (fun (bs : List Nat) x => if bs.contains (bankOf x) then bs else bs ++ [bankOf x]) []).map fun k =>
          (k, first, last, s.issuing.cx.word))) := by
  have hnone : (as.find? fun x => (s.adding qs [] lt).slotTaken x first last) = none := by
    rw [List.find?_eq_none]
    intro x hx
    rw [State.adding_slotTaken, Bool.not_eq_true, ← Bool.not_eq_true']
    exact List.all_eq_true.1 h x hx
  rw [Core.openSlots, hnone]
  rfl

/-- A row gather puts one read in flight for each destination row. -/
theorem State.adding_gatherRows (s : State) (qs : SMap (List Val)) (lt : Nat) (p : Pipe) (dest n rb : Nat) :
    ∀ (ls : List (Option (Nat × BitVec 3))) (i : Nat) (es : List Item),
      (s.adding qs es lt).gatherRows p dest n rb i ls = s.adding qs (es ++ (ls.zip (rangeFrom i ls.length)).map fun (x, i) =>
        s.entry p (s.issuing.now + 2 + i) none (.readRow (x.map Prod.fst) n rb (dest + rb * i))) lt := by
  intro ls
  induction ls with
  | nil => intro i es; simp only [Core.gatherRows, List.zip_nil_left, List.map_nil, List.append_nil]
  | cons l ls ih =>
    intro i es
    rw [Core.gatherRows, State.adding_later, ih]
    simp only [List.length_cons, rangeFrom, List.zip_cons_cons, List.map_cons, List.append_assoc, List.singleton_append,
      State.adding_now]

/-- Settles O14: the slots by `State.adding_openSlots`, the rows by `State.adding_gatherRows`. -/
theorem atomicRowGatherResults : Obligations.AtomicRowGatherResults := by
  unfold Obligations.AtomicRowGatherResults
  refine ⟨fun s ch d a b => ⟨fun desc v qs h hlt hop hal hg hs hp => ?_, fun l v qs ls as h hls has hg hs hp => ?_⟩,
    fun s ch d a b l ctl qs ls as h hw h8 hmin hmax hd64 hfit hls has hmeet hg => ?_⟩
  · refine completes_of hp (rfl : execAtom ch d a b s = _) ?_
    obtain ⟨c, hx, hv⟩ := readsSS_eq h
    have hslots : ([fld desc 22 0].all fun x => !s.issuing.slotTaken x (s.issuing.now + 1) (s.issuing.now + 3)) = true := by
      rw [List.all_cons, List.all_nil, Bool.and_true, hs, Bool.not_false]
    have hneed : (within desc (ones 26 0) && fld desc 26 24 != 7 && fld desc 22 0 % (if desc.getLsbD 23 then 8 else 4) == 0) = true := by
      rw [within_of_lt hlt, bne_iff_ne.2 hop, hal]
      rfl
    simp only [hx, hv, bind, Except.bind, fld_one_bit_eq, Core.need_of hneed, State.adding_atomicGuard, State.adding_now, hg,
      State.adding_openSlots s qs _ _ _ hslots, ite_reserves_eq_destSlot, State.withSlots_now, Core.later_withSlots,
      Core.retireAt_withSlots, State.adding_later, State.adding_retireAt, List.nil_append]
    rfl
  · refine completes_of hp (rfl : execVatom ch d a b s = _) ?_
    obtain ⟨c, hx, hv⟩ := readsVV_eq h
    simp only [hx, hv, bind, Except.bind, State.adding_lanes, State.adding_checkLanes, hls, has, State.adding_atomicGuard,
      State.adding_now, hg, State.adding_openSlots s qs _ _ _ hs, ite_reserves_eq_destSlot, State.withSlots_now,
      State.withSlots_vPipe, Core.later_withSlots, Core.retireAt_withSlots, State.adding_later, State.adding_retireAt,
      List.nil_append]
    rfl
  · refine delivers_of (rfl : execRgath ch d a b s = _) ?_
    obtain ⟨c, hx, hv⟩ := readsVS_eq h
    have hneed : (within ctl (ones 40 32 + ones 29 24 + ones 22 0) && fld ctl 40 32 % 8 == 0 && decide (8 ≤ fld ctl 40 32) &&
        decide (fld ctl 40 32 ≤ aCount (fSparse s.issuing.fmt)) && fld ctl 22 0 % 64 == 0 &&
        decide (fld ctl 22 0 + aBytes (fAtype s.issuing.fmt) (fSparse s.issuing.fmt) * (fld ctl 29 24 + 1) ≤ spadSize)) = true := by
      simp only [hw, h8, hmin, hmax, hd64, hfit, BEq.rfl, decide_true, Bool.and_self]
    simp only [hx, hv, bind, Except.bind, Core.need_of hneed, State.adding_lanes, State.adding_checkLanes, hls, has,
      Core.need_of hmeet, State.adding_now, State.adding_moveGuard, hg, State.adding_vPipe, State.adding_gatherRows,
      State.adding_deliverV, State.resultV_zero, State.adding_retireAt, List.nil_append, rangeFrom_zero]
    rfl

/-! ## Buffers (R242, R254, R255) -/

/-- What a buffer word puts in flight: the descriptor in force one LT later, and its word in `l.s`. -/
def State.becomes (s : State) (n : Nat) (b : Buf) (filled : Nat) : List Item :=
  [s.entry .s (s.issuing.now + 1) none (.bufSet n b.base b.size b.state), s.resultS .zero (bufWord b filled) 1]

theorem State.adding_setBuf (s : State) (qs : SMap (List Val)) (lt n : Nat) (b : Buf) (filled : Nat) :
    (s.adding qs [] lt).setBuf n b filled = s.adding qs (s.becomes n b filled) (s.issuing.now + 1) := by
  simp only [Core.setBuf, State.adding_now, State.adding_later, State.adding_deliverS, List.nil_append, List.singleton_append,
    State.becomes]

theorem State.issuing_setBuf (s : State) (n : Nat) (b : Buf) (filled : Nat) :
    s.issuing.setBuf n b filled = s.adding s.issuing.a.queues (s.becomes n b filled) (s.issuing.now + 1) := by
  conv => lhs; rw [State.issuing_eq_adding]
  exact State.adding_setBuf ..

/-- R254: the table of codes and the states they start from. -/
theorem bsetTo_eq (k : BitVec 8) (st : Nat) : bsetTo k.toNat st =
    if k = 1 ∧ st = 0 then some 1 else if k = 2 ∧ st = 1 then some 2 else if k = 3 ∧ st = 2 then some 3
    else if k = 4 ∧ st = 3 then some 0 else if k = 5 then some 0 else none := by
  have hk : ∀ n : BitVec 8, k = n ↔ k.toNat = n.toNat := fun n => BitVec.toNat_inj.symm
  simp only [hk]
  unfold bsetTo
  split
  case h_6 h5 h1 h2 h3 h4 =>
    rw [if_neg fun h => h1 h.1 h.2, if_neg fun h => h2 h.1 h.2, if_neg fun h => h3 h.1 h.2, if_neg fun h => h4 h.1 h.2]
    exact (if_neg h5).symm
  all_goals simp_all

theorem Arch.buf_set (bufs : SMap Buf) (k m : Nat) (b : Buf) :
    SMap.get Buf.none_ (SMap.set Buf.none_ bufs k b) m = if m = k then b else SMap.get Buf.none_ bufs m := SMap.get_set ..

/-- R242, R254: what putting a descriptor in force changes. -/
theorem Core.performBufSet_effect (c : Core) (k base size st : Nat) :
    let c' := c.performBufSet k base size st
    c' = { c with a := { c.a with bufs := c'.a.bufs }, filled := c'.filled } ∧
      (∀ m, c'.a.buf m = if m = k then { base := base, size := size, state := st } else c.a.buf m) ∧
      ∀ m, SMap.get 0 c'.filled m = if m = k ∧ st = 1 ∧ (c.a.buf k).state = 0 then 0 else SMap.get 0 c.filled m := by
  refine ⟨rfl, fun m => Arch.buf_set .., fun m => ?_⟩
  simp only [Core.performBufSet, Bool.and_eq_true, beq_iff_eq]
  by_cases hfill : st = 1 ∧ (c.a.buf k).state = 0
  · simp only [hfill, and_self, and_true, ↓reduceIte, SMap.get_set]
  · simp only [hfill, and_false, ↓reduceIte]

/-- Settles O15: the words by what `setBuf` puts in flight, the codes by `bsetTo_eq`, the effect by `Core.performBufSet_effect`. -/
theorem bufferWordResults : Obligations.BufferWordResults := by
  unfold Obligations.BufferWordResults
  intro s ch n
  refine ⟨fun x y base size qs h hst hal hsz hfit hlo hmeet hp => ?_, fun k hp => ⟨fun st hdest => ?_, fun hdest => ?_⟩,
    fun d m => delivers_of (rfl : execBstat ch d m s = _) (congrArg Except.ok (State.issuing_deliverS ..)),
    fun c old x i k base size st hi => ⟨c.performBufSet k base size st, ?_, Core.performBufSet_effect c k base size st⟩⟩
  · refine delivers_of (rfl : execBdecl ch n x y s = _) ?_ hp
    obtain ⟨c, hx, hy⟩ := readsSS_eq h
    have hrange : (base.toNat % 64 == 0 && decide (size.toNat ≤ 131072) && decide (base.toNat + 64 * size.toNat ≤ spadSize) &&
        decide (base.toNat < spadSize)) = true := by
      simp only [hal, hsz, hfit, hlo, BEq.rfl, decide_true, Bool.and_self]
    have hfree : (s.issuing.a.bufs.all fun (k, o) =>
        k == n.toNat || o.size == 0 || size == 0 || !meets base.toNat (64 * size.toNat) o.base (64 * o.size)) = true := by
      simpa [List.all_eq_true, or_assoc] using hmeet
    simp only [hx, hy, bind, Except.bind, State.adding_buf, State.adding_bufs, State.adding_filled,
      Core.need_of (beq_iff_eq.2 hst), Core.need_of hrange, Core.need_of hfree, State.adding_setBuf, State.becomes]
  · refine delivers_of (rfl : execBset ch n k s = _) ?_ hp
    have hto : bsetTo k.toNat (s.issuing.a.buf n.toNat).state = some st := (bsetTo_eq ..).trans hdest
    simp only [hto, State.issuing_setBuf, beq_iff_eq, State.becomes]
  · refine traps_of hp (rfl : execBset ch n k s = _) ?_
    have hto : bsetTo k.toNat (s.issuing.a.buf n.toNat).state = none := (bsetTo_eq ..).trans hdest
    simp only [hto]
  · rw [Core.perform]
    simp only [hi]

end Sys2Proof.Machine
end

section
/-! PROOFS. Control words (R139-R147, R153, R155, R160-R164): transfers, loops, idling and releases. -/
namespace Sys2Proof.Machine

/-! ## Checks of a transfer -/

theorem Core.notDelay_of {c : Core} (h : c.a.taken = none) : c.notDelay = .ok () := by
  rw [Core.notDelay, h]
  exact Core.need_of rfl

theorem targetOk_of {t : Nat} (hl : t % 64 ≠ 0) (ha : t % 4 = 0) : targetOk t = .ok () := by
  simp only [targetOk, beq_eq_false_iff_ne.2 hl, ha, bne_self_eq_false, Bool.or_self, Bool.false_eq_true, ↓reduceIte]

section
variable {s : State} {k : Src} {o : BitVec 15} {v : W64} {qs : SMap (List Val)}

/-- R160: a conditional branch reads its condition after its target is checked. -/
theorem branchIf_of_readsS (h : ReadsS s k v qs) (hd : s.issuing.a.taken = none) (hl : s.issuing.target o % 64 ≠ 0)
    (ha : s.issuing.target o % 4 = 0) (test : W64 → Bool) :
    s.issuing.branchIf k o test = .ok (if test v then (s.adding qs [] s.issuing.now).take (s.issuing.target o) true
      else s.adding qs [] s.issuing.now) := by
  simp only [Core.branchIf, Core.notDelay_of hd, targetOk_of hl ha, readsS_eq h, bind, Except.bind]

end

/-- Settles O16: the checks of a transfer let it through (`Core.notDelay_of`, `targetOk_of`); a conditional branch by
`branchIf_of_readsS`. -/
theorem branchResults : Obligations.BranchResults := by
  unfold Obligations.BranchResults
  intro s ch o k
  refine fun hd => ⟨fun hl ha => ⟨fun hp => completes_of hp (rfl : execBr ch o s = _) ?_, fun v qs h => ⟨fun hp => ?_, fun hp => ?_⟩,
    fun r hr hp => ?_, fun x hx hp => ?_⟩, fun v qs h hl ha hlt hp => ?_⟩
  · simp only [Core.notDelay_of hd, targetOk_of hl ha, bind, Except.bind]
    rfl
  · refine completes_of hp (rfl : execBrz ch k o s = _) ?_
    simp only [branchIf_of_readsS h hd hl ha, beq_iff_eq]
    rfl
  · refine completes_of hp (rfl : execBrnz ch k o s = _) ?_
    simp only [branchIf_of_readsS h hd hl ha, bne_iff_ne, ne_eq, ite_not]
    rfl
  · refine completes_of hp (rfl : execCall ch o s = _) ?_
    simp only [Core.notDelay_of hd, targetOk_of hl ha, bind, Except.bind, hr, State.issuing_deliverS, State.adding_retireAt]
    rfl
  · refine completes_of hp (rfl : execCall ch o s = _) ?_
    simp only [Core.notDelay_of hd, targetOk_of hl ha, bind, Except.bind, hx]
  · refine completes_of hp (rfl : execRet ch k s = _) ?_
    simp only [Core.notDelay_of hd, targetOk_of hl ha, readsS_eq h, Core.need_of (decide_eq_true hlt), bind, Except.bind]
    rfl

/-! ## Loops -/

/-- R144: a loop that may be nested where it stands. -/
theorem Core.nestOk_of {c : Core} {last : Nat} (hlen : c.a.loops.length < 4) (hword : c.cx.word < last)
    (hin : ∀ e ∈ c.a.loops.head?, last ≤ e.last) : c.nestOk last = true := by
  unfold Core.nestOk
  cases hloops : c.a.loops with
  | nil => simp only [List.length_nil, hword, Nat.zero_lt_succ, decide_true, Bool.and_self]
  | cons e r =>
    rw [hloops] at hlen hin
    simp only [hlen, hword, hin e rfl, decide_true, Bool.and_self]

/-- A core with other loops entered (R143). -/
def Core.withLoops (c : Core) (l : List LoopEntry) : Core := { c with a := { c.a with loops := l } }

/-- Settles O17: its checks let the loop through (`Core.nestOk_of`); then its count decides whether it is entered. -/
theorem loopResults : Obligations.LoopResults := by
  unfold Obligations.LoopResults
  intro s ch k o v qs h
  refine fun hd hl ha hlen hword hin => ⟨fun hv hp => completes_of hp (rfl : execLoop ch k o s = _) ?_,
    fun hv hp => completes_of hp (rfl : execLoopf ch k o s = _) ?_⟩
  all_goals
    have hnest : (s.adding qs [] s.issuing.now).nestOk (s.issuing.target o) = true := Core.nestOk_of hlen hword hin
    simp only [Core.loopWord, Core.notDelay_of hd, targetOk_of hl ha, readsS_eq h, bind, Except.bind, Bool.false_eq_true, ↓reduceIte,
      Core.need_of (within_of_lt hv), Core.need_of hnest, beq_iff_eq]
    split
  · rfl
  · rfl
  · rfl
  · exact congrArg (fun d : Core => Except.ok (d.withLoops _)) (State.adding_later ..)

/-! ## Idling, halting and releases -/

theorem Core.idleTo_of {c : Core} {lt : Nat} (h : lt < 2 ^ 48) : c.idleTo lt = .ok { c with cx := { c.cx with next := lt } } := by
  rw [Core.idleTo, if_pos (show lt ≤ maxLt by unfold maxLt; omega)]

/-- Settles O18: idling by `Core.idleTo_of`; a rendezvous and a step record a release LT that follows the issue LT. -/
theorem idleReleaseResults : Obligations.IdleReleaseResults := by
  unfold Obligations.IdleReleaseResults
  refine ⟨fun s ch => ⟨fun n hn hp => completes_of hp (rfl : execNop ch n s = _) (Core.idleTo_of hn), fun a t qs h hp => ⟨?_, ?_⟩,
    fun n hp => completes_of hp (rfl : execHalt ch n s = _) rfl⟩, fun s ch l hl hlt => ⟨fun g k hk hr hp => ?_, fun b hb hp => ?_⟩⟩
  · intro hlt ht
    refine completes_of hp (rfl : execWaitlt ch a s = _) ?_
    have hsoon : decide ((s.adding qs [] s.issuing.now).now + 1 ≤ t.toNat) = true := decide_eq_true hlt
    simp only [readsS_eq h, bind, Except.bind, Core.need_of (decide_eq_true ht), Core.need_of hsoon, Core.idleTo_of ht]
  · intro hle ht
    refine traps_of hp (rfl : execWaitlt ch a s = _) ?_
    have hlate : decide ((s.adding qs [] s.issuing.now).now + 1 ≤ t.toNat) = false :=
      decide_eq_false (Nat.not_le.2 (Nat.lt_succ_of_le hle))
    simp only [readsS_eq h, bind, Except.bind, Core.need_of (decide_eq_true ht), Core.need_fails hlate, State.adding_wordTrap]
  · refine completes_of hp (rfl : execRdv ch g s = _) ?_
    have hfree : (SMap.get none s.issuing.a.rdv k).isNone = true := by rw [hr]; rfl
    simp only [hl, bind, Except.bind, Core.need_of (decide_eq_true hlt), hk, Core.need_of hfree]
    rfl
  · refine completes_of hp (rfl : execStep ch b s = _) ?_
    simp only [hl, bind, Except.bind, Core.need_of (decide_eq_true hlt), Core.idleTo_of hb]
    rfl

end Sys2Proof.Machine
end

section
/-! PROOFS. Matrix words (R196-R234): what they put in flight on the core they leave, and the statement on the loads of the array. -/
namespace Sys2Proof.Machine

/-- What an effect that does not trap has passed. -/
theorem ok_of_bind {ε α β : Type} {x : Except ε α} {f : α → Except ε β} {r : β} (h : (x >>= f) = .ok r) :
    ∃ v, x = .ok v ∧ f v = .ok r := by
  cases x with
  | error e => cases h
  | ok v => exact ⟨v, rfl, h⟩

theorem ok_bind {ε α β : Type} {v : α} {f : α → Except ε β} : ((.ok v : Except ε α) >>= f) = f v := rfl

/-! ## Items in flight on any core -/

/-- What `later` puts in flight. -/
def Core.newItem (c : Core) (p : Pipe) (lt : Nat) (dst : Option Port) (act : Act) : Item :=
  { lt := lt, issue := c.now, pipe := p, word := c.cx.word, dst := dst, ready := !c.slow, act := act }

theorem Core.later_eq_withItems (c : Core) (p : Pipe) (lt : Nat) (dst : Option Port) (act : Act) :
    c.later p lt dst act = c.withItems [c.newItem p lt dst act] := rfl

@[simp] theorem Core.withItems_newItem (c : Core) (es : List Item) : (c.withItems es).newItem = c.newItem := rfl
@[simp] theorem Core.withItems_now (c : Core) (es : List Item) : (c.withItems es).now = c.now := rfl

theorem Core.withItems_withItems (c : Core) (es fs : List Item) : (c.withItems es).withItems fs = c.withItems (es ++ fs) := by
  simp only [Core.withItems, List.append_assoc]

theorem Core.withItems_nil (c : Core) : c.withItems [] = c := by
  simp only [Core.withItems, List.append_nil]

/-- A row of items put in flight one by one. -/
theorem Core.foldl_later {α : Type} (p : Pipe) (lt : α → Nat) (act : α → Act) : ∀ (xs : List α) (c : Core),
    xs.foldl (fun c x => c.later p (lt x) none (act x)) c = c.withItems (xs.map fun x => c.newItem p (lt x) none (act x)) := by
  intro xs
  induction xs with
  | nil => intro c; exact c.withItems_nil.symm
  | cons x xs ih =>
    intro c
    rw [List.foldl_cons, ih, Core.later_eq_withItems, Core.withItems_withItems]
    rfl

/-- The same where each is due some LTs after issue. -/
theorem Core.foldl_later_now {α : Type} (p : Pipe) (k : α → Nat) (act : α → Act) (xs : List α) (c : Core) :
    xs.foldl (fun c x => c.later p (c.now + 1 + k x) none (act x)) c =
      c.withItems (xs.map fun x => c.newItem p (c.now + 1 + k x) none (act x)) := by
  induction xs generalizing c with
  | nil => exact c.withItems_nil.symm
  | cons x xs ih =>
    rw [List.foldl_cons, ih, Core.later_eq_withItems, Core.withItems_withItems]
    rfl

/-- What a word adds, apart from the core after its operands. -/
theorem State.adding_eq_withItems (s : State) (qs : SMap (List Val)) (es : List Item) (lt : Nat) :
    s.adding qs es lt = ((s.adding qs [] s.issuing.now).withItems es).retireAt lt := by
  simp only [State.adding, Core.withItems, List.append_nil]
  rfl

@[simp] theorem State.adding_sys (s : State) (qs : SMap (List Val)) (es : List Item) (lt : Nat) :
    (s.adding qs es lt).a.sys = s.issuing.a.sys := rfl

@[simp] theorem State.adding_newItem (s : State) (qs : SMap (List Val)) (es : List Item) (lt : Nat) :
    (s.adding qs es lt).newItem = s.entry := rfl

/-! ## Issue on pipe M -/

/-- A word of pipe M whose effect is defined on the issuing core completes with it. -/
theorem completes_of_M {i : Instr} {body : Body} {s : State} {c : Core} (hp : Passes i s) (he : exec i s = issueM i body s)
    (hb : body s s.issuing = .ok c) : Completes i s c :=
  completes_of hp he (by simp only [hb])

/-- The trap of a word of pipe M is a matrix trap (R216). -/
theorem traps_of_M {i : Instr} {body : Body} {s : State} {t : Trap} (hp : Passes i s) (he : exec i s = issueM i body s)
    (hb : body s s.issuing = .error t) : exec i s = .next (takeTrap s.cur { t with matrix := true } s) :=
  traps_of hp he (by simp only [hb])

/-- A core whose array is occupied until an LT (R206). -/
def Core.withArray (c : Core) (f : Nat) : Core := { c with a := { c.a with arrayFree := f } }
/-- A core with another matrix store. -/
def Core.withMx (c : Core) (m : Matrix) : Core := { c with mx := m }

@[simp] theorem Core.withArray_now (c : Core) (f : Nat) : (c.withArray f).now = c.now := rfl
@[simp] theorem Core.withArray_sys (c : Core) (f : Nat) : (c.withArray f).a.sys = c.a.sys := rfl
@[simp] theorem Core.withMx_now (c : Core) (m : Matrix) : (c.withMx m).now = c.now := rfl
@[simp] theorem Core.withArray_newItem (c : Core) (f : Nat) : (c.withArray f).newItem = c.newItem := rfl
@[simp] theorem Core.withMx_newItem (c : Core) (m : Matrix) : (c.withMx m).newItem = c.newItem := rfl
@[simp] theorem Core.withMx_mx (c : Core) (m : Matrix) : (c.withMx m).mx = m := rfl
@[simp] theorem Core.withMx_sys (c : Core) (m : Matrix) : (c.withMx m).a.sys = c.a.sys := rfl

/-- R206: the array is free, and is occupied. -/
theorem Core.claimArray_of {c : Core} {f : Nat} (h : c.a.arrayFree ≤ c.now) :
    c.claimArray f = .ok (c.withArray f) := by
  simp only [Core.claimArray, bind, Except.bind, Core.need_of (decide_eq_true h), Core.withArray]

/-- Settles O19: each load passes its checks, puts its reads or placements in flight, and marks what it occupies. -/
theorem matrixLoadResults : Obligations.MatrixLoadResults := by
  unfold Obligations.MatrixLoadResults
  intro s ch a b
  refine ⟨fun ctl qs h hw hk hal hfit hg hfree hp => ?_, fun ctl qs v rest h hq hlt hfree hp => ?_,
    fun ctl v qs h hw hside hp => ?_, fun v ctl qs h hk hlt hrows hp => ?_⟩
  · refine completes_of_M hp (rfl : execMxLdb ch a s = _) ?_
    have hneed : (within ctl (ones 38 32 + ones 30 24 + ones 22 0) && decide (fld ctl 30 24 + (fld ctl 38 32 + 1) ≤ 128) &&
        fld ctl 22 0 % 64 == 0 && decide (fld ctl 22 0 + 2048 * (fld ctl 38 32 + 1) ≤ spadSize)) = true := by
      simp only [hw, hk, hal, hfit, BEq.rfl, decide_true, Bool.and_self]
    have hclaim := fun f => Core.claimArray_of (c := s.adding qs [] s.issuing.now) (f := f) hfree
    simp only [readsS_eq h, bind, Except.bind, Core.need_of hneed, State.adding_now, State.adding_readGuard, hg, hclaim,
      Core.foldl_later_now]
    conv => rhs; rw [State.adding_eq_withItems]
    rfl
  · refine completes_of_M hp (rfl : execMxLdbs ch a s = _) ?_
    have hclaim := fun f => Core.claimArray_of (c := s.adding (SMap.set [] qs (Port.num .mxB) rest) [] s.issuing.now) (f := f) hfree
    simp only [readsS_eq h, bind, Except.bind, Core.need_of (within_of_lt hlt), State.adding_readQueue hq, State.adding_now, hclaim]
    conv => rhs; rw [State.adding_eq_withItems]
    rfl
  · refine completes_of_M hp (rfl : execMxLds ch a b s = _) ?_
    obtain ⟨c, hx, hy⟩ := readsSV_eq h
    have hneed : (within ctl (ones 17 8 + 1) && ((fld ctl 0 0 == 1) || decide (fld ctl 17 8 < 128))) = true := by
      rw [hw, Bool.true_and, Bool.or_eq_true, beq_iff_eq, decide_eq_true_eq]
      exact hside
    simp only [hx, hy, bind, Except.bind, Core.need_of hneed, State.adding_now, State.adding_later, List.nil_append]
    rfl
  · refine completes_of_M hp (rfl : execMxArow ch a b s = _) ?_
    obtain ⟨c, hx, hy⟩ := readsVS_eq h
    have hneed : (within ctl 3 && (upto 64).all fun k => bitsOf (v.elem 32 k) 23 9 == 0 && v.elem 32 k % 64 == 0) = true := by
      rw [show within ctl 3 = true from within_of_lt (hi := 1) hlt, Bool.true_and, List.all_eq_true]
      intro k hmem
      obtain ⟨hsmall, hal⟩ := hrows k ((mem_upto 64 k).1 hmem)
      rw [bitsOf, Nat.shiftRight_eq_div_pow, Nat.div_eq_of_lt (show v.elem 32 k < 2 ^ 23 from hsmall), hal]
      rfl
    simp only [hx, hy, bind, Except.bind, Core.noPoison_of hk, Core.need_of hneed, State.adding_now, State.adding_later,
      List.nil_append]
    rfl

end Sys2Proof.Machine
end

section
/-! PROOFS. Passes of the array (R197-R229). -/
namespace Sys2Proof.Machine

/-! ## Passes -/

@[simp] theorem State.adding_listAt (s : State) (qs : SMap (List Val)) (lt x : Nat) :
    (s.adding qs [] lt).listAt x = s.issuing.listAt x := by
  simp only [Core.listAt, State.adding, List.append_nil]

/-- R211: what the rows of a pass leave in the matrix store depends on the store alone. -/
theorem Core.shadowRows_congr {c d cs : Core} {ovw : Bool} {rows : List Nat} (hmx : d.mx = c.mx)
    (h : c.shadowRows ovw rows = .ok cs) : d.shadowRows ovw rows = .ok (d.withMx cs.mx) := by
  simp only [Core.shadowRows, Core.withMx] at h ⊢
  rw [hmx]
  split at h
  · cases h; rw [if_pos ‹_›]
  · split at h
    · cases h
    · cases h; rw [if_neg ‹_›, if_neg ‹_›]

/-- A core with the queues of another. -/
def Core.withQueues (c d : Core) : Core := { c with a := { c.a with queues := d.a.queues } }

@[simp] theorem Core.withQueues_newItem (c d : Core) : (c.withQueues d).newItem = c.newItem := rfl
@[simp] theorem Core.withQueues_mx (c d : Core) : (c.withQueues d).mx = c.mx := rfl

theorem Core.readQueue_congr {c d c' : Core} {p : Port} {k : Bool} {v : Val} (hq : d.a.queues = c.a.queues)
    (h : c.readQueue p k = .ok (v, c')) : d.readQueue p k = .ok (v, d.withQueues c') := by
  have hl : d.a.landed p = c.a.landed p := by rw [Arch.landed, hq, Arch.landed]
  simp only [Core.readQueue] at h ⊢
  rw [hl]
  split at h
  · cases h
  · cases h
    cases k
    · simp only [Core.withQueues, Arch.setLanded, hq, Bool.false_eq_true, ↓reduceIte]
    · simp only [Core.withQueues, ← hq, ↓reduceIte]

/-- R200: what a pass pops depends on the queues alone, and changes them alone. -/
theorem Core.popRows_congr (rb : Nat) : ∀ (n : Nat) {c d c' : Core} {rows : List (List PWord)}, d.a.queues = c.a.queues →
    c.popRows rb n = .ok (rows, c') → d.popRows rb n = .ok (rows, d.withQueues c') := by
  intro n
  induction n with
  | zero =>
    intro c d c' rows hq h
    simp only [Core.popRows] at h ⊢
    cases h
    simp only [Core.withQueues, ← hq]
  | succ n ih =>
    intro c d c' rows hq h
    rw [Core.popRows] at h ⊢
    obtain ⟨⟨v, c₁⟩, hv, h⟩ := ok_of_bind h
    rw [Core.readQueue_congr hq hv, ok_bind]
    dsimp only at h ⊢
    split at h
    · next hrb =>
      obtain ⟨⟨r, c₂⟩, hr, h⟩ := ok_of_bind h
      cases h
      simp only [if_pos hrb, ih (c := c₁) (d := d.withQueues c₁) rfl hr, ok_bind]
      rfl
    · next hrb =>
      obtain ⟨⟨w, c₂⟩, hw, h⟩ := ok_of_bind h
      obtain ⟨⟨r, c₃⟩, hr, h⟩ := ok_of_bind h
      cases h
      simp only [if_neg hrb, Core.readQueue_congr (c := c₁) (d := d.withQueues c₁) rfl hw,
        ih (c := c₂) (d := (d.withQueues c₁).withQueues c₂) rfl hr, ok_bind]
      rfl

/-- The rows of a pass in flight, one every `wa` LTs. -/
theorem Core.passRows_eq (c : Core) (p : Pass) (first wa : Nat) (src : Nat → RowSrc) (n : Nat) :
    c.passRows p first wa src n = c.withItems ((upto n).map fun i =>
      c.newItem .m (first + i * wa) none (.passRow p i (src i) (first + i * wa + wa + 11))) :=
  Core.foldl_later ..

theorem Core.withMx_withQueues (c d : Core) (m : Matrix) : (c.withMx m).withQueues d = (c.withQueues d).withMx m := rfl
theorem Core.withArray_withQueues (c d : Core) (f : Nat) : (c.withArray f).withQueues d = (c.withQueues d).withArray f := rfl
theorem Core.withMx_withItems (c : Core) (m : Matrix) (es : List Item) : (c.withMx m).withItems es = (c.withItems es).withMx m := rfl
theorem Core.withArray_withItems (c : Core) (f : Nat) (es : List Item) :
    (c.withArray f).withItems es = (c.withItems es).withArray f := rfl

theorem State.adding_withQueues (s : State) (qs : SMap (List Val)) (d : Core) (es : List Item) (lt : Nat) :
    (s.adding qs es lt).withQueues d = s.adding d.a.queues es lt := rfl

theorem Core.matrixDone_eq (c : Core) (m : Matrix) (f lt : Nat) (x : Core) (hx : x = c.retireAt lt) :
    ((c.withArray f).withMx m).matrixDone lt =
      { x with
        mx := m
        a := { x.a with arrayFree := f, mxBusy := x.a.mxBusy ++ [(lt, c.cx.word)] } } := by
  subst hx
  rfl

/-- A pass ended: its entries in flight, its rows shadowed, the array and the word busy until it is done. -/
theorem State.adding_matrixDone (s : State) (qs : SMap (List Val)) (c' : Core) (m : Matrix) (f lt : Nat) (es : List Item) :
    (((((s.adding qs [] s.issuing.now).withArray f).withMx m).withQueues c').withItems es).matrixDone lt =
      { s.adding c'.a.queues es lt with
        mx := m
        a := { (s.adding c'.a.queues es lt).a with
          arrayFree := f, mxBusy := (s.adding c'.a.queues es lt).a.mxBusy ++ [(lt, s.issuing.cx.word)] } } := by
  rw [Core.withMx_withQueues, Core.withArray_withQueues, State.adding_withQueues, Core.withMx_withItems, Core.withArray_withItems]
  exact Core.matrixDone_eq _ m f lt _ (State.adding_eq_withItems ..)

/-! ## Items at their LT -/

/-- R203: the entry of a pass gathers the flags of one of its items. -/
theorem Core.collectFlags_eq (c : Core) (i : Item) (f : Flags) :
    c.collectFlags i f = { c with a := { c.a with inflight := c.a.inflight.map (i.gathers f) } } := by
  refine congrArg (fun l => { c with a := { c.a with inflight := l } }) (List.map_congr_left fun j _ => ?_)
  unfold Item.gathers
  cases j.act with
  | flags g => simp only [Bool.and_eq_true, beq_iff_eq, and_assoc]
  | _ => rfl

/-- An item that carries no flags gathers none. -/
theorem Item.gathers_of_not_flags {i j : Item} (f : Flags) (h : ∀ g, j.act ≠ .flags g) : i.gathers f j = j := by
  unfold Item.gathers
  split
  · next g hg => exact absurd hg (h g)
  · rfl

theorem Core.pendingCheck_some {c : Core} {i : Item} {x lo len w : Nat} (h : c.pendingWord i.word i.issue x lo len = some w) :
    c.pendingCheck i x lo len = .error (Trap.at_ .pendingRead w) := by
  simp only [Core.pendingCheck, h]

theorem Core.pendingCheck_none {c : Core} {i : Item} {x lo len : Nat} (h : c.pendingWord i.word i.issue x lo len = none) :
    c.pendingCheck i x lo len = .ok () := by
  simp only [Core.pendingCheck, h]

theorem Core.followFree_eq (c : Core) (i : Item) (lt : Nat) (act : Act) :
    c.followFree i lt act = c.withItems [c.successor i lt none act] := rfl

/-- R200, R203: a row of a pass read by its address. -/
theorem Core.performPassRow_addr {c old : Core} {i : Item} {x : Nat} (p : Pass) (r addr y : Nat)
    (hfit : addr + aBytes (fAtype p.fmt.toNat) (fSparse p.fmt.toNat) ≤ spadSize)
    (hpend : old.pendingWord i.word i.issue x addr (aBytes (fAtype p.fmt.toNat) (fSparse p.fmt.toNat)) = none) :
    let e := p.fmt.toNat
    let sum := passRow c.mx p r (c.spadWords addr (aBytes (fAtype e) (fSparse e) / 4))
    c.performPassRow old i x p r (.addr addr) y = .ok { c with a := { c.a with inflight := c.a.inflight.map (i.gathers sum.flags) ++
      [c.successor i y none (.accUpdate (p.acc + r * rowsPerOut e) p.ovw sum.checked sum.rows)] } } := by
  have hrow := Core.pendingCheck_none hpend
  simp only [Core.performPassRow, Core.passWords, Core.rowAddr, if_neg (Nat.not_lt.2 hfit), hrow, Except.map, bind, Except.bind,
    Core.collectFlags_eq, Core.followFree_eq, Core.withItems, List.map_append, List.map_cons, List.map_nil]
  rw [Item.gathers_of_not_flags _ (by intro g hg; cases hg)]

/-- R202, R205: what stops the read of a row. -/
theorem Core.performPassRow_addr_error {c old : Core} {i : Item} {x : Nat} {t : Trap} (p : Pass) (r addr y : Nat)
    (h : c.rowAddr old i x (aBytes (fAtype p.fmt.toNat) (fSparse p.fmt.toNat)) (.addr addr) = .error t) :
    c.performPassRow old i x p r (.addr addr) y = .error t := by
  simp only [Core.performPassRow, Core.passWords, h, bind, Except.bind]

/-- Settles O20. -/
theorem matrixRunResults : Obligations.MatrixRunResults := by
  unfold Obligations.MatrixRunResults
  intro s ch a b x y qs cs h
  refine fun hok hfree hsh hp => ⟨fun hsrc hg => ?_, fun rows c' hsrc hpop => ?_, ?_⟩
  · refine completes_of_M hp (rfl : execMxRun ch a b s = _) ?_
    obtain ⟨c, hx, hy⟩ := readsSS_eq h
    have hclaim := fun f => Core.claimArray_of (c := s.adding qs [] s.issuing.now) (f := f) hfree
    have hshadow := fun f => Core.shadowRows_congr (c := s.issuing) (d := (s.adding qs [] s.issuing.now).withArray f) rfl hsh
    simp only [hx, hy, bind, Except.bind, Core.need_of hok, hsrc, Bool.false_eq_true, ↓reduceIte, State.adding_now,
      State.adding_listAt, State.adding_readGuard, hg, hclaim, Core.withArray_sys, State.adding_sys, hshadow, Core.passRows_eq,
      Core.passFlags, Core.later_eq_withItems, Core.withItems_withItems]
    conv => rhs; rw [State.adding_eq_withItems]
    rfl
  · refine completes_of_M hp (rfl : execMxRun ch a b s = _) ?_
    obtain ⟨c, hx, hy⟩ := readsSS_eq h
    have hclaim := fun f => Core.claimArray_of (c := s.adding qs [] s.issuing.now) (f := f) hfree
    have hshadow := fun f => Core.shadowRows_congr (c := s.issuing) (d := (s.adding qs [] s.issuing.now).withArray f) rfl hsh
    have hrows := fun f => Core.popRows_congr _ _ (c := s.adding qs [] s.issuing.now) (d := ((s.adding qs [] s.issuing.now).withArray f).withMx cs.mx) rfl hpop
    simp only [hx, hy, bind, Except.bind, Core.need_of hok, hsrc, ↓reduceIte, State.adding_now,
      hclaim, Core.withArray_sys, State.adding_sys, hshadow, hrows, Core.foldl_later]
    simp only [Core.later_eq_withItems, Core.withItems_withItems, Core.withItems_newItem, Core.withQueues_newItem,
      Core.withMx_newItem, Core.withArray_newItem, State.adding_newItem, Core.withQueues_mx, Core.withMx_mx]
    exact congrArg Except.ok (State.adding_matrixDone ..)
  · intro c old x i p r y addr hact
    have hperform : c.perform old x i = c.performPassRow old i x p r (.addr addr) y := by simp only [Core.perform, hact]
    rw [hperform]
    refine ⟨fun hbig => ?_, fun hfit w hw => ?_, fun hfit hpend => Core.performPassRow_addr p r addr y hfit hpend⟩
    · exact Core.performPassRow_addr_error p r addr y (by simp only [Core.rowAddr, if_pos hbig])
    · exact Core.performPassRow_addr_error p r addr y
        (by simp only [Core.rowAddr, if_neg (Nat.not_lt.2 hfit), Core.pendingCheck_some hw, Except.map])

end Sys2Proof.Machine
end

section
/-! PROOFS. The pass of a logical pair (R218, R219, R229). -/
namespace Sys2Proof.Machine

/-- A row of items put in flight one by one, whose act looks at nothing that is in flight. -/
theorem Core.foldl_later_of {α : Type} {p : Pipe} {lt : α → Nat} {act : Core → α → Act}
    (hact : ∀ (c : Core) (es : List Item) (x : α), act (c.withItems es) x = act c x) (xs : List α) (c : Core) :
    xs.foldl (fun c x => c.later p (lt x) none (act c x)) c = c.withItems (xs.map fun x => c.newItem p (lt x) none (act c x)) := by
  induction xs generalizing c with
  | nil => exact c.withItems_nil.symm
  | cons x xs ih =>
    rw [List.foldl_cons, ih, Core.later_eq_withItems, Core.withItems_withItems]
    simp only [Core.withItems_newItem, hact, List.map_cons, List.singleton_append]

/-- A core with another sequence number for its next pass of a pair. -/
def Core.withPseq (c : Core) (n : BitVec 32) : Core := { c with a := { c.a with pseq := n } }

@[simp] theorem Core.withPseq_newItem (c : Core) (n : BitVec 32) : (c.withPseq n).newItem = c.newItem := rfl
@[simp] theorem Core.withPseq_lcore (c : Core) (n : BitVec 32) : (c.withPseq n).lcore = c.lcore := rfl
@[simp] theorem Core.withMx_lcore (c : Core) (m : Matrix) : (c.withMx m).lcore = c.lcore := rfl
@[simp] theorem Core.withArray_lcore (c : Core) (f : Nat) : (c.withArray f).lcore = c.lcore := rfl
@[simp] theorem Core.withMx_pseq (c : Core) (m : Matrix) : (c.withMx m).a.pseq = c.a.pseq := rfl
@[simp] theorem Core.withArray_pseq (c : Core) (f : Nat) : (c.withArray f).a.pseq = c.a.pseq := rfl
@[simp] theorem Core.withItems_lcore (c : Core) (es : List Item) : (c.withItems es).lcore = c.lcore := rfl
@[simp] theorem Core.withPseq_rowSrc (c : Core) (n : BitVec 32) (d : PassDesc) : d.rowSrc (c.withPseq n) = d.rowSrc c := rfl
@[simp] theorem Core.withMx_rowSrc (c : Core) (m : Matrix) (d : PassDesc) : d.rowSrc (c.withMx m) = d.rowSrc c := rfl
@[simp] theorem Core.withArray_rowSrc (c : Core) (f : Nat) (d : PassDesc) : d.rowSrc (c.withArray f) = d.rowSrc c := rfl

@[simp] theorem State.adding_rowSrc (s : State) (qs : SMap (List Val)) (es : List Item) (lt : Nat) (d : PassDesc) :
    d.rowSrc (s.adding qs es lt) = d.rowSrc s.issuing := rfl
@[simp] theorem State.adding_lcore (s : State) (qs : SMap (List Val)) (es : List Item) (lt : Nat) :
    (s.adding qs es lt).lcore = s.issuing.lcore := rfl
@[simp] theorem State.adding_entry (s : State) (qs : SMap (List Val)) (es : List Item) (lt : Nat) :
    (s.adding qs es lt).cx.entry = s.issuing.cx.entry := rfl
@[simp] theorem State.adding_pseq (s : State) (qs : SMap (List Val)) (es : List Item) (lt : Nat) :
    (s.adding qs es lt).a.pseq = s.issuing.a.pseq := rfl
@[simp] theorem State.adding_targetLt (s : State) (qs : SMap (List Val)) (es : List Item) (lt : Nat) :
    (s.adding qs es lt).targetLt = s.issuing.targetLt := rfl
@[simp] theorem State.coreCount_adding (s t : State) (qs : SMap (List Val)) (es : List Item) (lt : Nat) :
    t.coreCount (s.adding qs es lt) = t.coreCount s.issuing := rfl

/-- What waits at a release LT is in flight but not ready. -/
theorem Core.gate_eq_withItems (c : Core) (p : Pipe) (lt : Nat) (act : Act) :
    c.gate p lt act = c.withItems [{ c.newItem p lt none act with ready := false }] := rfl

theorem Core.withPseq_withItems (c : Core) (n : BitVec 32) (es : List Item) :
    (c.withPseq n).withItems es = (c.withItems es).withPseq n := rfl

theorem Core.withPseq_def (c : Core) (n : BitVec 32) : ({ c with a := { c.a with pseq := n } } : Core) = c.withPseq n := rfl

theorem Core.matrixDone_pseq (c : Core) (m : Matrix) (n : BitVec 32) (f lt : Nat) (x : Core) (hx : x = c.retireAt lt) :
    (((c.withArray f).withMx m).withPseq n).matrixDone lt =
      { x with
        mx := m
        a := { x.a with pseq := n, arrayFree := f, mxBusy := x.a.mxBusy ++ [(lt, c.cx.word)] } } := by
  subst hx
  rfl

/-- A pass of a pair ended: `State.adding_matrixDone` and the next sequence number. -/
theorem State.adding_pairDone (s : State) (qs : SMap (List Val)) (m : Matrix) (n : BitVec 32) (f lt : Nat) (es : List Item) :
    (((((s.adding qs [] s.issuing.now).withArray f).withMx m).withPseq n).withItems es).matrixDone lt =
      { s.adding qs es lt with
        mx := m
        a := { (s.adding qs es lt).a with
          pseq := n, arrayFree := f, mxBusy := (s.adding qs es lt).a.mxBusy ++ [(lt, s.issuing.cx.word)] } } := by
  rw [Core.withPseq_withItems, Core.withMx_withItems, Core.withArray_withItems]
  exact Core.matrixDone_pseq _ m n f lt _ (State.adding_eq_withItems ..)

/-- Settles O21: the row reads, the gate and the rows of both halves follow one another in flight. -/
theorem matrixPairResults : Obligations.MatrixPairResults := by
  unfold Obligations.MatrixPairResults
  intro s ch a b x y qs cs lr h
  refine fun hlr hlate hok hpair hentry hsrc hh hbytes hg hfree hsh hp => ?_
  refine completes_of_M hp (rfl : execMxPair ch a b s = _) ?_
  obtain ⟨c, hx, hy⟩ := readsSS_eq h
  have hclaim := fun f => Core.claimArray_of (c := s.adding qs [] s.issuing.now) (f := f) hfree
  have hshadow := fun f => Core.shadowRows_congr (c := s.issuing) (d := (s.adding qs [] s.issuing.now).withArray f) rfl hsh
  have hboth : (decide ((s.adding qs [] s.issuing.now).lcore ^^^ 1 < s.coreCount (s.adding qs [] s.issuing.now)) &&
      (s.adding qs [] s.issuing.now).cx.entry && !(PassDesc.ofWords x y).src && decide ((PassDesc.ofWords x y).nr + 1 ≤ 128) &&
      decide (((PassDesc.ofWords x y).nr + 1) * aBytes (fAtype s.issuing.fmt) (fSparse s.issuing.fmt) ≤ 32768)) = true := by
    simp only [State.adding_lcore, State.coreCount_adding, State.adding_entry, hpair, hentry, hsrc, hh, hbytes, decide_true,
      Bool.not_false, Bool.and_self]
  have hafter : (s.adding qs [] s.issuing.now).now + ((PassDesc.ofWords x y).nr + 1) < lr := hlate
  simp only [hx, hy, bind, Except.bind, State.adding_now, State.adding_targetLt, hlr, Core.need_of hok, Core.need_of hboth,
    ↓Core.need_of (decide_eq_true hafter), State.adding_listAt,
    State.adding_readGuard, hg, hclaim, Core.withArray_sys, State.adding_sys, hshadow, ↓Core.withPseq_def]
  rw [Core.foldl_later_of fun _ _ _ => rfl]
  simp only [Core.gate_eq_withItems, Core.passRows_eq, Core.passFlags, Core.later_eq_withItems, Core.withItems_withItems,
    Core.withItems_newItem, Core.withItems_lcore, Core.withPseq_lcore, Core.withMx_lcore, Core.withArray_lcore, State.adding_lcore,
    Core.withPseq_rowSrc, Core.withMx_rowSrc, Core.withArray_rowSrc, State.adding_rowSrc, Core.withMx_pseq, Core.withArray_pseq,
    State.adding_pseq, Core.withPseq_newItem, Core.withMx_newItem, Core.withArray_newItem, State.adding_newItem, List.append_assoc]
  exact congrArg Except.ok (State.adding_pairDone ..)

end Sys2Proof.Machine
end

section
/-! PROOFS. Accumulator words (R230-R234): `mx.epi` with OFF = 1 leaves the suffix of its bundle to its own LT, not to its copy. -/
namespace Sys2Proof.Machine

/-- `mx.epi` at hand with OFF = 1: one clean row, to offset 256 of a window of HBM that may be written. -/
def epiState : State :=
  { State.reset with
    cores := [(0, { Core.reset with
      run := .running
      win0 := [(0, BitVec.ofNat 64 (1 <<< 62 + 7 <<< 58 + 2 ^ 20))]
      a := { Arch.reset with
        queues := [(0, [{ bits := BitVec.ofNat 2048 (2 ^ 63 + 256), ep := 0, sp := 0 }]), (1, [{ bits := 0, ep := 0, sp := 0 }])]
        sys := { SysRegs.reset with fmt := SMap.set 0 [] 0 0x9004800#32 } } })] }

/-- The beats of the copy that it issues, as `AccumulatorWordResults` writes them. -/
def epiBeats : List Beat :=
  let outs := (upto (fld (0 : W64) 25 16 + 1)).map fun j =>
    epiRow epiState.issuing.fmt (SMap.get AccRow.zero epiState.issuing.mx.acc (fld (0 : W64) 13 0 + j))
  (upto (ceilDiv ((fld (0 : W64) 25 16 + 1) * (8 * widthOf (fEpit epiState.issuing.fmt))) 64)).map fun j =>
    epiState.issuing.newBeat (256 + 64 * j) 0 (some
      { bits := BitVec.ofNat 512 (bitsOf
          (ofDigits (8 * (8 * widthOf (fEpit epiState.issuing.fmt))) (outs.map Prod.fst)) (512 * j) 512), bad := false })

/-- The core once the copy is issued. -/
def epiIssued : Except Trap Core :=
  let n := fld (0 : W64) 25 16 + 1
  let bo := 8 * widthOf (fEpit epiState.issuing.fmt)
  (epiState.adding [] [] epiState.issuing.now).issueCopy .m 0 (.epi (n * bo)) (some (n * bo)) epiBeats none

/-- The copy is issued, and the word would retire with it. -/
theorem epiIssued_retire : ∃ c, epiIssued = .ok c ∧ c.cx.retire = .copy 0 := by
  have h : (match epiIssued with | .ok c => decide (c.cx.retire = .copy 0) | .error _ => false) = true := by decide +kernel
  split at h
  · next c hc => exact ⟨c, hc, of_decide_eq_true h⟩
  · cases h

/-- The word retires at its own LT, issue LT + L. -/
theorem epi_retire {s : State} (h : exec (.mxEpi false ⟨.s 0, false⟩ ⟨.s 1, false⟩) epiState = .next s) :
    (s.core 0).cx.retire = .at_ 3 := by
  have hrun : (match exec (.mxEpi false ⟨.s 0, false⟩ ⟨.s 1, false⟩) epiState with
      | .next s => decide ((s.core 0).cx.retire = .at_ 3) | _ => false) = true := by decide +kernel
  rw [h] at hrun
  exact of_decide_eq_true hrun

theorem epiState_reads : ReadsSS epiState ⟨.s 0, false⟩ ⟨.s 1, false⟩ (BitVec.ofNat 64 (2 ^ 63 + 256)) 0 [] := by
  have h : (match epiState.issuing.readS ⟨.s 0, false⟩ with
      | .error _ => false
      | .ok (x, c) => match c.readS ⟨.s 1, false⟩ with
        | .error _ => false
        | .ok (y, c') => decide (x = BitVec.ofNat 64 (2 ^ 63 + 256) ∧ y = 0 ∧ c'.a.queues = [])) = true := by decide +kernel
  split at h
  · cases h
  · next x c hx =>
    split at h
    · cases h
    · next y c' hy =>
      obtain ⟨rfl, rfl, hq⟩ := of_decide_eq_true h
      exact ⟨c, c', hx, hy, hq⟩

theorem eq_ok_of_toOption {ε α : Type} {e : Except ε α} {a : α} (h : e.toOption = some a) : e = .ok a := by
  cases e with
  | error _ => cases h
  | ok _ => exact congrArg Except.ok (Option.some.inj h)

/-- Refutes O22: with OFF = 1 the word retires at issue LT + L (log 78), where the statement leaves the core that issued the copy,
on which the word retires with the copy. -/
theorem not_accumulatorWordResults : ¬ Obligations.AccumulatorWordResults := by
  unfold Obligations.AccumulatorWordResults
  intro h
  obtain ⟨-, -, -, -, hepi, -⟩ := h epiState false .zero ⟨.s 0, false⟩ ⟨.s 1, false⟩
  obtain ⟨c', hc', hcopy⟩ := epiIssued_retire
  have hdone := hepi (BitVec.ofNat 64 (2 ^ 63 + 256)) 0 256 [] c' epiState_reads (by decide +kernel) (by decide +kernel)
    (by decide +kernel) (eq_ok_of_toOption (by decide +kernel)) hc' (by decide +kernel)
  have hat := epi_retire hdone
  rw [show epiState.cur = 0 from rfl, State.core_setCore] at hat
  cases hcopy.symm.trans hat

end Sys2Proof.Machine
end

section
/-! PROOFS. Taking a trap (R386), and the values and the invariant at reset. -/
namespace Sys2Proof.Machine

/-! ## Traps -/

/-- A trap code from its number: its place in the table of R387. -/
theorem TrapCode.ofNat_num (a : TrapCode) : TrapCode.ofNat (a.num.toNat - 1) = a := by cases a <;> rfl

theorem TrapCode.num_bounds (a : TrapCode) : 1 ≤ a.num.toNat ∧ a.num.toNat ≤ 0x23 := by cases a <;> decide

theorem TrapCode.num_injective {a b : TrapCode} (h : a.num = b.num) : a = b := by
  rw [← a.ofNat_num, h, b.ofNat_num]

/-- R107: of a bundle in which a word traps nothing stands but the trap and the loaded bits it cleared. -/
theorem State.afterWords_trapped {before entered u : State} {n : Nat} {r : TrapReport} (hrun : (u.core n).run = .trapped)
    (hlast : u.reports.getLast? = some r) :
    State.afterWords before entered u n =
      takeTrap n { code := r.code, addr := r.addr, matrix := r.matrix, exiting := r.exiting, cause := r.cause, dims := [] }
        (before.modCore n fun d => { d with seq := { d.seq with loaded := (u.core n).seq.loaded } }) := by
  simp only [State.afterWords, hrun, hlast, ↓reduceIte]

/-- Settles O60. -/
theorem trapEntryEffects : Obligations.TrapEntryEffects := by
  unfold Obligations.TrapEntryEffects
  refine ⟨fun n x s => ?_, fun before entered u n r => State.afterWords_trapped, fun a b => TrapCode.num_injective, TrapCode.num_bounds⟩
  simp only [takeTrap_core]
  exact ⟨rfl, rfl, rfl, rfl, rfl, rfl, rfl, fun k hk => takeTrap_core_other n k x s hk, takeTrap_package n x s⟩

/-! ## Reset -/

/-- Settles O54. -/
theorem resetMeetsInvariant : Obligations.ResetMeetsInvariant where
  hbm := rfl
  host := rfl
  buffer := rfl
  bar := by decide
  step := by decide
  held := by decide
  up := by decide

/-- Settles O53. -/
theorem resetValues : Obligations.ResetValues := by
  unfold Obligations.ResetValues
  refine ⟨rfl, rfl, rfl, rfl, fun _ => ⟨rfl, rfl⟩, fun _ => rfl, by decide, rfl, rfl, by decide, fun _ _ => rfl, fun a => ?_⟩
  have hkey : (State.reset.blockKey a = none && !State.reset.zeroFill) = true := rfl
  rw [State.hbmByte, if_pos hkey]
  split <;> rfl

end Sys2Proof.Machine
end

section
/-! PROOFS. What a word changes of its core (R15): a copy word of a bound queue writes the barrier object it is bound to. -/
namespace Sys2Proof.Machine

/-- `mx.epi` with OFF = 1 at hand, where queue 0 is bound to the barrier at scratchpad address 0 (R286). -/
def boundEpiState : State :=
  epiState.modCore 0 fun c => { c with a := { c.a with binds := [(0, some 0)], bars := [0] } }

/-- R286: the copy that `mx.epi` issues adds its bytes to PEND of that barrier, in the scratchpad. -/
theorem boundEpi_writes_barrier : ∃ t, exec (.mxEpi false ⟨.s 0, false⟩ ⟨.s 1, false⟩) boundEpiState = .next t ∧
    (t.core 0).spad ≠ (boundEpiState.core 0).spad := by
  have h : (match exec (.mxEpi false ⟨.s 0, false⟩ ⟨.s 1, false⟩) boundEpiState with
      | .next t => decide ((t.core 0).spad ≠ (boundEpiState.core 0).spad) | _ => false) = true := by decide +kernel
  split at h
  · next t ht => exact ⟨t, ht, of_decide_eq_true h⟩
  · cases h

/-- Refutes O57: a word that issues a copy of a bound queue, here `mx.epi`, changes the bytes of the barrier (`boundEpi_writes_barrier`). -/
theorem not_wordsChangeTheirCoreAlone : ¬ Obligations.WordsChangeTheirCoreAlone := by
  unfold Obligations.WordsChangeTheirCoreAlone
  rintro ⟨-, h⟩
  obtain ⟨t, hexec, hspad⟩ := boundEpi_writes_barrier
  obtain ⟨-, -, hkeeps, -⟩ := h _ _ t rfl hexec
  exact hspad (hkeeps rfl)

end Sys2Proof.Machine
end

section
/-! PROOFS. Whatever falls due on a core leaves its scratchpad in canonical form (R204, R237, R311). -/
namespace Sys2Proof.Machine

/-- The scratchpad of a core is in canonical form. -/
abbrev Core.SpadWf (c : Core) : Prop := Memory.wf c.spad = true

theorem foldl_keeps {α β : Type} {P : β → Prop} {f : β → α → β} (hf : ∀ b a, P b → P (f b a)) (l : List α) :
    ∀ b, P b → P (l.foldl f b) := by
  induction l with
  | nil => exact fun _ h => h
  | cons a l ih => exact fun b h => ih _ (hf b a h)

theorem ite_keeps {β : Type} {P : β → Prop} {p : Prop} {d : Decidable p} {a b : β} (ha : P a) (hb : P b) : P (if p then a else b) := by
  split
  · exact ha
  · exact hb

/-! ## Barrier updates -/

theorem Core.SpadWf.putBar {c : Core} (h : c.SpadWf) (a : Nat) (b : BarObj) : (c.putBar a b).SpadWf := wf_storeWords _ _ _ h

theorem Core.SpadWf.ownUpdate {c : Core} (h : c.SpadWf) (a : Nat) (f : BarObj → BarObj) : (c.ownUpdate a f).SpadWf := by
  unfold Core.ownUpdate
  split
  · exact h.putBar _ _
  · exact h

theorem Core.SpadWf.foreignUpdate {c : Core} (h : c.SpadWf) (live : Bool) (a : Nat) (f : BarObj → BarObj) :
    (c.foreignUpdate live a f).SpadWf := by
  have hown : (if live then c.ownUpdate a f else c).SpadWf := ite_keeps (P := Core.SpadWf) (h.ownUpdate a f) h
  exact ite_keeps (P := Core.SpadWf) hown hown

theorem Core.SpadWf.boundUpdate {c : Core} (h : c.SpadWf) (k : Copy) (a : Nat) (f : BarObj → BarObj) : (c.boundUpdate k a f).SpadWf := by
  unfold Core.boundUpdate
  split
  · split
    · exact h
    · exact h.ownUpdate a f
  · exact h.foreignUpdate _ a f

theorem Core.SpadWf.suffixUpdate {c : Core} (h : c.SpadWf) (k : Copy) (a : Nat) (f : BarObj → BarObj) : (c.suffixUpdate k a f).SpadWf := by
  unfold Core.suffixUpdate
  split
  · exact h.ownUpdate a f
  · exact h.foreignUpdate true a f

theorem Core.SpadWf.applyUpdate {c : Core} (h : c.SpadWf) (u : HeldUpdate) : (c.applyUpdate u).SpadWf := by
  unfold Core.applyUpdate
  split
  · exact h.foreignUpdate _ _ _
  · split
    · exact h.suffixUpdate _ _ _
    · exact h
  · split
    · exact h.boundUpdate _ _ _
    · exact h

theorem Core.SpadWf.receiveUpdate {c : Core} (h : c.SpadWf) (u : HeldUpdate) : (c.receiveUpdate u).SpadWf := by
  unfold Core.receiveUpdate
  split
  · exact h
  · exact h.applyUpdate u

theorem Core.SpadWf.copyUpdate {c : Core} (h : c.SpadWf) (k : Copy) (u : BarUpdate) : (c.copyUpdate k u).SpadWf := by
  unfold Core.copyUpdate
  split
  · exact h
  · exact h.receiveUpdate _

/-! ## Beats and copies -/

theorem Core.SpadWf.recount {c : Core} (h : c.SpadWf) (q : Option Nat) : (c.recount q).SpadWf := by
  unfold Core.recount
  split
  · exact h
  · exact h

theorem Core.SpadWf.completeCopy {c : Core} (h : c.SpadWf) (k : Copy) : (c.completeCopy k).SpadWf :=
  foldl_keeps (P := Core.SpadWf) (fun _ _ hc => hc.receiveUpdate _) _ _ h

theorem Core.SpadWf.finishBeat {c : Core} (h : c.SpadWf) (id j : Nat) : (c.finishBeat id j).SpadWf := by
  unfold Core.finishBeat
  split
  · exact h
  next k _ =>
    split
    · exact h
    next b _ =>
      split
      · exact h
      · refine Core.SpadWf.recount ?_ _
        have hset : (c.setCopy (k.setBeat j { b with state := .finished })).SpadWf := h
        have hcount := ite_keeps (P := Core.SpadWf) (p := k.op == .scrub && b.w.isSome) (d := inferInstance) hset
          (hset.copyUpdate (k.setBeat j { b with state := .finished }) (.beats k.beatSize))
        exact ite_keeps (P := Core.SpadWf) (hcount.completeCopy _) hcount

theorem Core.SpadWf.landBeat {c : Core} (h : c.SpadWf) (sp : Nat) (d : BeatData) : (c.landBeat sp d).SpadWf := by
  have hstore : (c.storeWords sp d.words).SpadWf := wf_storeWords _ _ _ h
  unfold Core.landBeat Core.countLanding
  split
  · exact hstore
  · exact hstore

theorem Core.SpadWf.performBeat {c : Core} (h : c.SpadWf) (i : Item) (x id j : Nat) : (c.performBeat i x id j).SpadWf := by
  unfold Core.performBeat
  split
  · exact ite_keeps (P := Core.SpadWf) h ((h.landBeat _ _).finishBeat id j)
  · exact h

theorem Core.SpadWf.performOperands (id : Nat) : ∀ (n j : Nat) {c c' : Core}, c.SpadWf → c.performOperands id j n = .ok c' → c'.SpadWf := by
  intro n
  induction n with
  | zero =>
    intro j c c' h hc
    cases hc
    exact h
  | succ n ih =>
    intro j c c' h hc
    unfold Core.performOperands at hc
    split at hc
    · cases hc
      exact h
    · split at hc
      · cases hc
        exact h
      · obtain ⟨ws, -, hc⟩ := ok_of_bind hc
        exact ih (j + 1) (c := c.setCopy _) h hc

/-! ## What touches no scratchpad -/

theorem Core.setAccRow_spad (c : Core) (n : Nat) (r : AccRow) : (c.setAccRow n r).spad = c.spad := rfl

theorem Core.SpadWf.passUpdate {c : Core} (h : c.SpadWf) (n : Nat) (ovw : Bool) (v : Val) : (c.passUpdate n ovw v).1.SpadWf := by
  unfold Core.passUpdate
  split
  · exact h
  · exact h

theorem Core.SpadWf.accUpdate {c : Core} (h : c.SpadWf) (acc : Nat) (ovw chk : Bool) (rows : List Val) :
    (c.accUpdate acc ovw chk rows).1.SpadWf := by
  have hcheck : (c.residueCheck chk rows).2.SpadWf := by
    unfold Core.residueCheck
    split
    · exact h
    · exact h
  unfold Core.accUpdate
  exact foldl_keeps (P := fun r : Core × Flags => r.1.SpadWf) (fun r e hr => hr.passUpdate e.2 ovw e.1) _ (_, 0) hcheck

theorem Core.SpadWf.sysSet {c : Core} (h : c.SpadWf) (x : Nat) (v : W64) : (c.sysSet x v).SpadWf := by
  unfold Core.sysSet
  split
  · exact h
  · exact h

theorem Core.SpadWf.takeArrival {c c' : Core} {chan e word : Nat} {d : Port} {v : Val} (h : c.SpadWf)
    (ht : c.takeArrival chan e d word = .ok (some (v, c'))) : c'.SpadWf := by
  unfold Core.takeArrival at ht
  split at ht
  · cases ht
  · split at ht
    · cases ht
    · split at ht
      · cases ht
      · split at ht
        · cases ht
        · cases ht
          exact h

theorem Core.SpadWf.landFrom {c : Core} (h : c.SpadWf) (i : Item) (d : Port) (v : Val) (lt : Nat) : (c.landFrom i d v lt).SpadWf := h

theorem Core.SpadWf.followFree {c : Core} (h : c.SpadWf) (i : Item) (lt : Nat) (act : Act) : (c.followFree i lt act).SpadWf := h

/-- R251 -/
theorem Core.SpadWf.performAtom {c c' : Core} {i : Item} {x a : Nat} {op : BitVec 3} {wide : Bool} {v : W64} {d : Port} (h : c.SpadWf)
    (hc : c.performAtom i x op wide a v d = .ok c') : c'.SpadWf := by
  unfold Core.performAtom at hc
  obtain ⟨ws, -, hc⟩ := ok_of_bind hc
  cases hc
  exact h

/-- R252 -/
theorem Core.SpadWf.performVatom {c c' : Core} {i : Item} {x e : Nat} {ls : List (Option (Nat × BitVec 3))} {v : Val} {d : Port}
    (h : c.SpadWf) (hc : c.performVatom i x e ls v d = .ok c') : c'.SpadWf := by
  unfold Core.performVatom at hc
  obtain ⟨m, -, hc⟩ := ok_of_bind hc
  cases hc
  refine Core.SpadWf.landFrom (ite_keeps (P := Core.SpadWf) ?_ ?_) i d _ _
  · refine foldl_keeps (P := Core.SpadWf) ?_ _ c h
    exact fun _ _ hk => hk
  · refine Core.SpadWf.followFree ?_ i _ _
    refine foldl_keeps (P := Core.SpadWf) ?_ _ c h
    exact fun _ _ hk => hk

/-- R204, R213 -/
theorem Core.SpadWf.performPassRow {c c' old : Core} {i : Item} {x r y : Nat} {p : Pass} {src : RowSrc} (h : c.SpadWf)
    (hc : c.performPassRow old i x p r src y = .ok c') : c'.SpadWf := by
  unfold Core.performPassRow at hc
  obtain ⟨ws, -, hc⟩ := ok_of_bind hc
  cases hc
  exact h

theorem Core.SpadWf.clearRows {c : Core} (h : c.SpadWf) (rows : List Nat) : (c.clearRows rows).SpadWf :=
  foldl_keeps (P := Core.SpadWf) (f := fun c r => c.setAccRow r AccRow.zero) (fun _ _ hk => hk) rows c h

/-! ## One item -/

theorem Core.SpadWf.performBarInit {c : Core} (h : c.SpadWf) (a n : Nat) : (c.performBarInit a n).SpadWf :=
  Core.SpadWf.putBar (c := c.detach a) h a (BarObj.init n)

theorem Core.SpadWf.suffixPerform {c : Core} (h : c.SpadWf) (a : Nat) : (c.suffixPerform a).SpadWf := by
  unfold Core.suffixPerform
  dsimp only
  refine Core.SpadWf.ownUpdate (ite_keeps (P := Core.SpadWf) ?_ ?_) a (BarObj.arrive 1)
  · exact h
  · exact h

/-- Settles O59: stores, barrier updates and landings write words and bytes; every other item leaves the scratchpad as it was. -/
theorem itemsKeepScratchpadCanonical : Obligations.ItemsKeepScratchpadCanonical := by
  unfold Obligations.ItemsKeepScratchpadCanonical
  intro c old c' x i h hc
  unfold Core.perform at hc
  cases hact : i.act with rw [hact] at hc
  | write a ws => cases hc; exact wf_storeWords ws c a h
  | barInit a n => cases hc; exact Core.SpadWf.performBarInit h a n
  | barSet a n w0 w1 => cases hc; exact wf_writeBytes _ _ _ (Core.SpadWf.performBarInit h a n)
  | barArrive a k => cases hc; exact Core.SpadWf.ownUpdate h a _
  | suffixArrive a => cases hc; exact Core.SpadWf.suffixPerform h a
  | timedBeat id j => cases hc; exact Core.SpadWf.performBeat h i x id j
  | accUpdate acc ovw chk rows => cases hc; exact Core.SpadWf.accUpdate h acc ovw chk rows
  | accClear first n => cases hc; exact Core.SpadWf.clearRows h _
  | accSet first rows =>
    cases hc
    refine foldl_keeps (P := Core.SpadWf) ?_ _ c h
    exact fun _ _ hk => hk
  | sysWrite y v => cases hc; exact Core.SpadWf.sysSet h y v
  | passRow p r src y => exact Core.SpadWf.performPassRow h hc
  | readCopy id j n =>
    obtain ⟨-, -, hc⟩ := ok_of_bind hc
    exact Core.SpadWf.performOperands id n j h hc
  | readAtom op wide a v d =>
    obtain ⟨-, -, hc⟩ := ok_of_bind hc
    exact Core.SpadWf.performAtom h hc
  | readVatom fmt ls v d =>
    obtain ⟨-, -, hc⟩ := ok_of_bind hc
    exact Core.SpadWf.performVatom h hc
  | receive chan d =>
    obtain ⟨r, hr, hc⟩ := ok_of_bind hc
    cases r with
    | none => cases hc; exact h
    | some r => cases hc; exact Core.SpadWf.takeArrival (c' := r.2) (v := r.1) h hr
  | readScalar a d y =>
    obtain ⟨-, -, hc⟩ := ok_of_bind hc
    obtain ⟨ws, -, hc⟩ := ok_of_bind hc
    cases hc
    exact h
  | readRow src n rb dest =>
    cases src with
    | none => cases hc; exact h
    | some a =>
      obtain ⟨ws, -, hc⟩ := ok_of_bind hc
      cases hc
      exact h
  | readVec a d y | readLanes wide as d y | ldbChunk a k j =>
    obtain ⟨-, -, hc⟩ := ok_of_bind hc
    cases hc
    exact h
  | land d l v => cases l <;> cases hc <;> exact h
  | _ => cases hc; exact h

end Sys2Proof.Machine
end

section
/-! PROOFS. The turn of a core that issues its next bundle (R40, R107): the step runs the words that the bundle decodes to. -/
namespace Sys2Proof.Machine

/-! ## What fetching a bundle leaves of the package -/

@[simp] theorem State.transmit_cores (s : State) (n : Option Nat) (g : Nat) (x : Bool) (bs : List Beat512) (w : List Output) :
    (s.transmit n g x bs w).cores = s.cores := rfl

@[simp] theorem State.crossDie_cores (s : State) (a b : Nat) (bs : List Beat512) : (s.crossDie a b bs).cores = s.cores := by
  unfold State.crossDie
  split <;> rfl

@[simp] theorem State.crossAccess_cores (s : State) (die far : Nat) (bs : List Beat512) (r : Bool) :
    (s.crossAccess die far bs r).cores = s.cores := by
  unfold State.crossAccess
  split <;> simp only [State.crossDie_cores]

@[simp] theorem State.crossRange_cores (s : State) (die a : Nat) (bs : List Byte) (r : Bool) :
    (s.crossRange die a bs r).cores = s.cores := by
  unfold State.crossRange
  exact ite_keeps (P := fun t : State => t.cores = s.cores) rfl (State.crossAccess_cores ..)

/-- The lines read for a bundle: the fetch unit of the core is the one given. -/
theorem State.core_takeReads (s : State) (n : Nat) (rs : LineReads) (d : Core) : (s.takeReads n rs d).core n = d := by
  have hcores : (s.takeReads n rs d).cores = (s.setCore n d).cores := by
    unfold State.takeReads
    refine foldl_keeps (P := fun t : State => t.cores = (s.setCore n d).cores) ?_ rs _ rfl
    intro t r ht
    exact ite_keeps (P := fun t : State => t.cores = (s.setCore n d).cores) ((State.crossRange_cores ..).trans ht) ht
  rw [State.core_congr hcores, State.core_setCore_same]

/-- R157: cycles that pass for a core come off its BUDGET alone. -/
theorem State.core_spend (s : State) (n k : Nat) :
    (s.spend n k).core n = { s.core n with budget := if s.budgetRuns (s.core n) then (s.core n).budget - k else (s.core n).budget } := by
  have hcore : (s.spend n k).core n =
      (if s.budgetRuns (s.core n) then s.setCore n { s.core n with budget := (s.core n).budget - k } else s).core n := State.core_congr rfl n
  rw [hcore]
  split
  · exact State.core_setCore_same s n _
  · rfl

theorem Arch.open_eq (a : Arch) (x : Nat) : a.open_ x = { a with before := (a.open_ x).before } := by
  unfold Arch.open_
  split <;> rfl

/-- A core whose LT comes to x: its LT, the registers it keeps, BUDGET and its wait for a pair; all else stands. -/
theorem State.core_reach (s : State) (n x : Nat) : ∃ before budget,
    (s.reach n x).core n = { s.core n with
      a := { (s.core n).a with before := before, lt := Nat.max (s.core n).a.lt x }, pairWait := 0, budget := budget } := by
  unfold State.reach State.modCore
  dsimp only
  rw [State.core_setCore_same, State.core_spend, Arch.open_eq]
  exact ⟨_, _, rfl⟩

/-! ## Decoded words -/

/-- R52-R54: annotating a bundle with its prefixes changes no word of it. -/
theorem annotate_addr_dec (ws : List (Nat × Word)) : ∀ (imm : Option (BitVec 23)) (fmt : Option (Bool × BitVec 2 × BitVec 4)),
    (annotate imm fmt ws).map (fun x => (x.addr, x.dec)) = ws.map fun p => (p.1, Instr.ofWord p.2) := by
  induction ws with
  | nil => intro imm fmt; rfl
  | cons p ws ih =>
    intro imm fmt
    unfold annotate
    dsimp only
    split
    · simp only [List.map_cons, ih]
    · simp only [List.map_cons, ih]
    · split <;> simp only [List.map_cons, ih]
    · simp only [List.map_cons, ih]

/-- The words that a bundle runs, where each of its words decodes. -/
theorem filterMap_annotate {ws : List (Nat × Word)} {is : List (Nat × Instr)}
    (h : ws.map (fun p => (p.1, Instr.ofWord p.2)) = is.map fun p => (p.1, Decoded.ok p.2)) :
    (annotate none none ws).filterMap (fun x => x.instr?.map fun i => (x.addr, i)) = is := by
  have hpairs := (annotate_addr_dec ws none none).trans h
  have hfm : (annotate none none ws).filterMap (fun x => x.instr?.map fun i => (x.addr, i)) =
      ((annotate none none ws).map fun x => (x.addr, x.dec)).filterMap fun p => match p.2 with
        | .ok i => some (p.1, i)
        | _ => none := by
    rw [List.filterMap_map]
    refine congrArg (fun f => List.filterMap f (annotate none none ws)) (funext fun x => ?_)
    simp only [BWord.instr?, Function.comp_apply]
    cases x.dec <;> rfl
  rw [hfm, hpairs, List.filterMap_map]
  exact List.filterMap_some

/-! ## The turn -/

/-- R40: a bundle that enters no segment runs its words. -/
theorem State.issueBundle_runs (run : Instr → State → Res) {s : State} {n : Nat} {b : Bundle} (htrap : (s.core n).bundleTrap b.words = none)
    (hstart : b.sstart = true → (s.core n).a.superNext = true)
    (hagain : ((s.core n).a.superNext = true ∨ b.sege = true) → (s.core n).a.again = true) :
    s.issueBundle run n b = s.runBundle run s n (s.core n).a.again b.words := by
  have hs : ¬ (b.sstart && !(s.core n).a.superNext) = true := by
    rw [Bool.and_eq_true, Bool.not_eq_true']
    exact fun ⟨h1, h2⟩ => Bool.false_ne_true (h2.symm.trans (hstart h1))
  have he : ¬ (((s.core n).a.superNext || b.sege) && !(s.core n).a.again) = true := by
    rw [Bool.and_eq_true, Bool.not_eq_true', Bool.or_eq_true]
    exact fun ⟨h1, h2⟩ => Bool.false_ne_true (h2.symm.trans (hagain h1))
  simp only [State.issueBundle, htrap, if_neg hs, if_neg he]

/-- A running core with nothing due before its next bundle takes its turn with the bundle (R157). -/
theorem State.turn_bundle (run : Instr → State → Res) {s : State} (hrun : (s.core s.cur).run = .running) (hb : (s.core s.cur).budget ≠ 0)
    (hdue : ∀ x, (s.core s.cur).dueLt = some x → (s.core s.cur).a.next < x) (hstop : s.stopLt (s.core s.cur) = none)
    (hspend : s.budgetRuns (s.core s.cur) = true → (s.core s.cur).a.next - (s.core s.cur).a.lt < (s.core s.cur).budget) :
    s.turn run s.cur = s.bundleTurn run s.cur := by
  have hturn : s.turn run s.cur = s.runTurn run s.cur := by
    unfold State.turn
    dsimp only
    rw [hrun]
  have hdead : s.bundleOrDeadline run s.cur = s.bundleTurn run s.cur := by
    unfold State.bundleOrDeadline
    dsimp only
    rw [hstop]
    refine if_neg ?_
    rw [Bool.and_eq_true, decide_eq_true_eq]
    exact fun ⟨h1, h2⟩ => Nat.not_lt.2 h2 (hspend h1)
  rw [hturn]
  unfold State.runTurn
  dsimp only
  rw [if_neg (by rwa [beq_iff_eq])]
  split
  · next x hx => rw [if_neg (Nat.not_le.2 (hdue x hx)), hdead]
  · exact hdead

/-- R40, R391: a bundle whose fetch is at hand issues on the core that fetched it. -/
theorem State.bundleTurn_issues (run : Instr → State → Res) {s : State} {n : Nat} {b : Bundle} {d : Core}
    (hlt : (s.core n).a.next + 1 ≤ maxLt) (hline : (s.core n).a.pc % 64 ≠ 0) (hal : (s.core n).a.pc % 4 = 0)
    (hneed : (s.reach n (s.core n).a.next).fetchNeed ((s.reach n (s.core n).a.next).core n) 12 (s.core n).a.pc = none)
    (hfetch : (s.reach n (s.core n).a.next).fetchBundle ((s.reach n (s.core n).a.next).core n) = .ok (b, d)) :
    s.bundleTurn run n = ((s.reach n (s.core n).a.next).takeReads n b.reads d).issueBundle run n b := by
  obtain ⟨before, budget, hr⟩ := State.core_reach s n (s.core n).a.next
  have hnext : ((s.reach n (s.core n).a.next).core n).now = (s.core n).a.next := by rw [hr]; rfl
  have hpc : ((s.reach n (s.core n).a.next).core n).a.pc = (s.core n).a.pc := by rw [hr]
  have hok : ¬ ((s.core n).a.pc % 64 == 0 || (s.core n).a.pc % 4 != 0) = true := by
    rw [Bool.or_eq_true, beq_iff_eq, bne_iff_ne, hal]
    exact fun h => h.elim hline fun h => h rfl
  unfold State.bundleTurn
  dsimp only
  rw [hnext, hpc, if_neg (Nat.not_lt.2 hlt), if_neg hok, hneed, hfetch]

/-- R107: one word that neither traps nor goes on to others. -/
theorem runWords_singleton {run : Instr → State → Res} {n a : Nat} {i : Instr} {s t : State}
    (h : run i (s.modCore n fun c => { c with cx := { c.cx with word := a } }) = .next t) : runWords run n [(a, i)] s = .next t := by
  unfold runWords
  rw [h]
  dsimp only
  split <;> rfl

/-- R139: a core with no transfer and no loop goes on behind its bundle. -/
theorem Core.advance_sequential {c : Core} (htaken : c.a.taken = none) (hjump : c.cx.jump = none) (hloops : c.a.loops = []) :
    c.advance false = c.goTo c.cx.after .sequential := by
  have hredirect : c.redirect false = c.goTo c.cx.after .sequential := by
    simp only [Core.redirect, hloops, Core.closeLoops, htaken, hjump, Bool.false_eq_true, ↓reduceIte]
  rw [Core.advance, hredirect]
  simp only [Core.startIteration, Core.goTo, hloops, List.find?_nil]

/-- R15, R40: a bundle that has issued in full, and left no transfer and no loop, has its core at the bundle behind it. -/
theorem State.afterWords_sequential {before entered t : State} {n : Nat} (hrun : (t.core n).run = .running)
    (hheld : (t.core n).cx.held = false) (hover : (t.core n).overflow = none) (hjump : (t.core n).cx.jump = none)
    (htaken : (t.core n).a.taken = none) (hloops : (t.core n).a.loops = []) (hentered : (entered.core n).a.loops = []) :
    let v := (State.afterWords before entered t n).core n
    v.a.pc = (t.core n).cx.after ∧ v.a.lt = (t.core n).a.next ∧ v.a.next = (t.core n).cx.next ∧ v.a.queues = (t.core n).a.queues ∧
      v.spad = (t.core n).spad := by
  have hclose : State.afterWords before entered t n = t.setCore n ((t.core n).closeBundle false) := by
    simp only [State.afterWords, hrun, hheld, hover, hloops, hentered, RunState.halted?, List.length_nil, Nat.lt_irrefl, decide_false,
      Bool.false_eq_true, reduceCtorEq, ↓reduceIte]
  dsimp only
  rw [hclose, State.core_setCore_same]
  simp only [Core.closeBundle, hrun, Core.advance_sequential htaken hjump hloops, Core.goTo, Core.now, and_self]

/-- Settles O56: the turn comes to the bundle (`State.turn_bundle`), which issues (`State.bundleTurn_issues`) and runs its words
(`State.issueBundle_runs`, `filterMap_annotate`). -/
theorem stepRunsDecodedWords : Obligations.StepRunsDecodedWords := by
  unfold Obligations.StepRunsDecodedWords
  intro s b d is
  dsimp only
  intro hagenda hrun hb hdue hstop hspend hlt hline hal hneed hfetch htrap hstart hagain hdec
  have hcore := State.core_takeReads (s.reach s.cur (s.core s.cur).a.next) s.cur b.reads d
  generalize hu : (s.reach s.cur (s.core s.cur).a.next).takeReads s.cur b.reads d = u at hcore ⊢
  have hstep : step s = u.runBundle exec u s.cur (u.core s.cur).a.again b.words := by
    have hturn : step s = s.turn exec s.cur := by unfold step; rw [hagenda]
    rw [hturn, State.turn_bundle exec hrun hb hdue hstop hspend, State.bundleTurn_issues exec hlt hline hal hneed hfetch, hu]
    rw [← hcore] at htrap hstart hagain
    exact State.issueBundle_runs exec htrap hstart hagain
  have hafter : ∀ t, runWords exec s.cur is (u.modCore s.cur fun c => { c with cx := u.issueContext c c.a.again b.words }) = .next t →
      step s = .next (State.afterWords u u t s.cur) := by
    intro t ht
    rw [hstep]
    unfold State.runBundle
    rw [filterMap_annotate hdec]
    unfold State.modCore at ht ⊢
    dsimp only at ht ⊢
    rw [ht]
  refine ⟨hafter, fun a i his t ht => ?_⟩
  subst his
  have hnext := hafter t (runWords_singleton ht)
  refine ⟨hnext, fun hrunning hheld hover hjump htaken hloops hd hafterA => ⟨_, hnext, ?_⟩⟩
  rw [← hafterA]
  exact State.afterWords_sequential hrunning hheld hover hjump htaken hloops (by rw [hcore]; exact hd)

end Sys2Proof.Machine
end

section
/-! PROOFS. Copy words (R256-R265, R278-R283): the checks of their descriptors, and what issuing a copy changes of its core. -/
namespace Sys2Proof.Machine

/-! ## What reading operands leaves alone -/

@[simp] theorem State.adding_windowCheck (s : State) (qs : SMap (List Val)) (es : List Item) (lt : Nat) (v : W64) (len : Nat)
    (perm : Window → Bool) : (s.adding qs es lt).windowCheck v len perm = s.issuing.windowCheck v len perm := rfl
@[simp] theorem State.adding_bufferCheck (s : State) (qs : SMap (List Val)) (es : List Item) (lt : Nat) (w : Bool)
    (r : List (Nat × Nat)) : (s.adding qs es lt).bufferCheck w r = s.issuing.bufferCheck w r := rfl
@[simp] theorem State.adding_newBeats (s : State) (qs : SMap (List Val)) (es : List Item) (lt w sp n : Nat) :
    (s.adding qs es lt).newBeats w sp n = s.issuing.newBeats w sp n := rfl
@[simp] theorem State.adding_newBeat (s : State) (qs : SMap (List Val)) (es : List Item) (lt w sp : Nat) (d : Option BeatData) :
    (s.adding qs es lt).newBeat w sp d = s.issuing.newBeat w sp d := rfl

@[simp] theorem State.adding_gatherBeats (s : State) (qs : SMap (List Val)) (es : List Item) (lt : Nat) (v : Val) (rlen dest : Nat) :
    ∀ n i, (s.adding qs es lt).gatherBeats v rlen dest n i = s.issuing.gatherBeats v rlen dest n i := by
  intro n
  induction n with
  | zero => intro i; rfl
  | succ n ih =>
    intro i
    simp only [Core.gatherBeats, ih, State.adding_windowCheck, State.adding_newBeats]

/-! ## What a copy changes as it is issued -/

/-- A core that differs at most in what copies and their barriers change: the scratchpad, the journal and the updates held, the copies,
and the disturbed translations, of which some are spent. -/
def Core.CopyFrame (c c' : Core) : Prop := ∃ spad bad journal held copies disagree, (∀ a ∈ disagree, a ∈ c.disagree) ∧
  c' = { c with spad := spad, spadBad := bad, journal := journal, held := held, copies := copies, disagree := disagree }

theorem Core.CopyFrame.refl (c : Core) : c.CopyFrame c := ⟨_, _, _, _, _, _, fun _ hx => hx, rfl⟩

theorem Core.CopyFrame.trans {a b c : Core} (hab : a.CopyFrame b) (hbc : b.CopyFrame c) : a.CopyFrame c := by
  obtain ⟨_, _, _, _, _, _, hb, rfl⟩ := hab
  obtain ⟨_, _, _, _, _, _, hc, rfl⟩ := hbc
  exact ⟨_, _, _, _, _, _, fun x hx => hb x (hc x hx), rfl⟩

/-- A core that differs at most in its scratchpad, journal and held updates; its copies stand. -/
def Core.BarFrame (c c' : Core) : Prop := ∃ spad bad journal held,
  c' = { c with spad := spad, spadBad := bad, journal := journal, held := held }

theorem Core.BarFrame.refl (c : Core) : c.BarFrame c := ⟨_, _, _, _, rfl⟩

theorem Core.BarFrame.trans {a b c : Core} (hab : a.BarFrame b) (hbc : b.BarFrame c) : a.BarFrame c := by
  obtain ⟨_, _, _, _, rfl⟩ := hab
  obtain ⟨_, _, _, _, rfl⟩ := hbc
  exact ⟨_, _, _, _, rfl⟩

theorem Core.BarFrame.copies {c c' : Core} (h : c.BarFrame c') : c'.copies = c.copies := by
  obtain ⟨_, _, _, _, rfl⟩ := h
  rfl

theorem Core.BarFrame.copyFrame {c c' : Core} (h : c.BarFrame c') : c.CopyFrame c' := by
  obtain ⟨_, _, _, _, rfl⟩ := h
  exact ⟨_, _, _, _, _, _, fun _ hx => hx, rfl⟩

theorem Core.putBar_frame (c : Core) (a : Nat) (b : BarObj) : c.BarFrame (c.putBar a b) :=
  ⟨_, _, _, _, storeWords_eq _ c a⟩

theorem Core.ownUpdate_frame (c : Core) (a : Nat) (f : BarObj → BarObj) : c.BarFrame (c.ownUpdate a f) :=
  ite_keeps (P := c.BarFrame) (c.putBar_frame a _) (.refl c)

theorem Core.foreignUpdate_frame (c : Core) (live : Bool) (a : Nat) (f : BarObj → BarObj) : c.BarFrame (c.foreignUpdate live a f) := by
  have hown : c.BarFrame (if live then c.ownUpdate a f else c) := ite_keeps (P := c.BarFrame) (c.ownUpdate_frame a f) (.refl c)
  exact ite_keeps (P := c.BarFrame) (hown.trans ⟨_, _, _, _, rfl⟩) hown

theorem Core.boundUpdate_frame (c : Core) (k : Copy) (a : Nat) (f : BarObj → BarObj) : c.BarFrame (c.boundUpdate k a f) :=
  ite_keeps (P := c.BarFrame) (ite_keeps (P := c.BarFrame) (.refl c) (c.ownUpdate_frame a f)) (c.foreignUpdate_frame _ a f)

theorem Core.suffixUpdate_frame (c : Core) (k : Copy) (a : Nat) (f : BarObj → BarObj) : c.BarFrame (c.suffixUpdate k a f) :=
  ite_keeps (P := c.BarFrame) (c.ownUpdate_frame a f) (c.foreignUpdate_frame _ a f)

theorem Core.applyUpdate_frame (c : Core) (u : HeldUpdate) : c.BarFrame (c.applyUpdate u) := by
  unfold Core.applyUpdate
  split
  · exact c.foreignUpdate_frame _ _ _
  · split
    · exact c.suffixUpdate_frame _ _ _
    · exact .refl c
  · split
    · exact c.boundUpdate_frame _ _ _
    · exact .refl c

theorem Core.receiveUpdate_frame (c : Core) (u : HeldUpdate) : c.BarFrame (c.receiveUpdate u) :=
  ite_keeps (P := c.BarFrame) ⟨_, _, _, _, rfl⟩ (c.applyUpdate_frame u)

theorem Core.copyUpdate_frame (c : Core) (k : Copy) (u : BarUpdate) : c.BarFrame (c.copyUpdate k u) := by
  unfold Core.copyUpdate
  split
  · exact .refl c
  · exact c.receiveUpdate_frame _

theorem Core.journalBar_frame {c c' : Core} {a : Nat} (h : c.journalBar a = .ok c') : c.BarFrame c' := by
  unfold Core.journalBar at h
  split at h
  · cases h
    exact .refl c
  · split at h
    · cases h
    · cases h
      exact ⟨_, _, _, _, rfl⟩

/-! ## The newest copy -/

/-- A change to the copies of a core that keeps a property of the copies of one number. -/
def Core.CopyKeeps (N : Nat) (P : Copy → Prop) (c c' : Core) : Prop :=
  c.CopyFrame c' ∧ (((∃ k ∈ c.copies, k.id = N) ∧ ∀ k ∈ c.copies, k.id = N → P k) →
    (∃ k ∈ c'.copies, k.id = N) ∧ ∀ k ∈ c'.copies, k.id = N → P k)

section
variable {N : Nat} {P : Copy → Prop}

theorem Core.CopyKeeps.refl (c : Core) : Core.CopyKeeps N P c c := ⟨.refl c, id⟩

theorem Core.CopyKeeps.trans {a b c : Core} (hab : Core.CopyKeeps N P a b) (hbc : Core.CopyKeeps N P b c) : Core.CopyKeeps N P a c :=
  ⟨hab.1.trans hbc.1, fun h => hbc.2 (hab.2 h)⟩

theorem Core.CopyKeeps.of_barFrame {c c' : Core} (h : c.BarFrame c') : Core.CopyKeeps N P c c' :=
  ⟨h.copyFrame, by rw [h.copies]; exact id⟩

/-- Replacing a copy keeps the property where the new one has it. -/
theorem Core.CopyKeeps.setCopy (c : Core) (k : Copy) (hk : k.id = N → P k) : Core.CopyKeeps N P c (c.setCopy k) := by
  refine ⟨⟨_, _, _, _, _, _, fun _ hx => hx, rfl⟩, fun ⟨⟨x, hx, hxN⟩, hall⟩ => ⟨⟨if x.id == k.id then k else x, ?_, ?_⟩, ?_⟩⟩
  · exact List.mem_map.2 ⟨x, hx, rfl⟩
  · split
    · next heq => rw [← eq_of_beq heq, hxN]
    · exact hxN
  · intro y hy hyN
    obtain ⟨z, hz, rfl⟩ := List.mem_map.1 hy
    split at hyN
    · next heq => rw [if_pos heq]; exact hk hyN
    · next hne => rw [if_neg hne]; exact hall z hz hyN

theorem Core.CopyKeeps.failCopy (c : Core) (k : Copy) (code : TrapCode) (addr : Nat)
    (hk : ∀ st, k.id = N → P { k with state := st }) : Core.CopyKeeps N P c (c.failCopy k code addr) :=
  ite_keeps (P := Core.CopyKeeps N P c) (.refl c)
    ((Core.CopyKeeps.setCopy c { k with state := .failed code (BitVec.ofNat 64 addr) } (hk _)).trans
      (.of_barFrame (Core.copyUpdate_frame _ k _)))

/-- What a change to the beats of a copy must leave as it is for `P`. -/
def BeatBlind (P : Copy → Prop) : Prop := ∀ (k : Copy) (st : CopyState) (bs : List Beat), P k →
  (bs.map fun b => (b.w, b.sp, b.data)) = (k.beats.map fun b => (b.w, b.sp, b.data)) → P { k with state := st, beats := bs }

variable (hP : BeatBlind P)
include hP

theorem Core.CopyKeeps.refuseBeats (c : Core) (k : Copy) (which : Beat → Bool) (code : TrapCode) (hk : k.id = N → P k) :
    Core.CopyKeeps N P c (c.refuseBeats k which code) := by
  have hbeats : ∀ st, k.id = N → P { k with state := st, beats := k.beats.map fun b => if which b then { b with state := .refused code } else b } := by
    intro st hN
    refine hP k st _ (hk hN) ?_
    rw [List.map_map]
    refine List.map_congr_left fun b _ => ?_
    simp only [Function.comp_apply]
    split <;> rfl
  unfold Core.refuseBeats
  refine ite_keeps (P := Core.CopyKeeps N P c) (.refl c) ?_
  dsimp only
  split
  · exact Core.CopyKeeps.setCopy c _ (hbeats _)
  · exact (Core.CopyKeeps.setCopy c _ (hbeats _)).trans (Core.CopyKeeps.failCopy _ _ _ _ hbeats)
  · exact .refl c

theorem Core.CopyKeeps.translateCopy (c : Core) (t : Translation) (k : Copy) (hk : k.id = N → P k) :
    Core.CopyKeeps N P c (c.translateCopy t k) := by
  unfold Core.translateCopy
  refine ite_keeps (P := Core.CopyKeeps N P c) (.refl c) (ite_keeps (P := Core.CopyKeeps N P c) ?_ ?_)
  · refine Core.CopyKeeps.setCopy c _ fun hN => hP k k.state _ (hk hN) ?_
    rw [List.map_map]
    refine List.map_congr_left fun b _ => ?_
    simp only [Function.comp_apply]
    split <;> rfl
  · exact Core.CopyKeeps.refuseBeats hP c k _ _ hk

theorem Core.CopyKeeps.foldl_translateCopy (t : Translation) (ks : List Copy) (hks : ∀ k ∈ ks, k.id = N → P k) :
    ∀ c, Core.CopyKeeps N P c (ks.foldl (fun c k => c.translateCopy t k) c) := by
  induction ks with
  | nil => exact .refl
  | cons k ks ih =>
    intro c
    exact (Core.CopyKeeps.translateCopy hP c t k (hks k List.mem_cons_self)).trans
      (ih (fun x hx => hks x (List.mem_cons_of_mem k hx)) _)

theorem Core.CopyKeeps.applyTranslation (c : Core) (t : Translation) : Core.CopyKeeps N P c (c.applyTranslation t) :=
  ⟨(Core.CopyKeeps.foldl_translateCopy (N := N) (P := fun _ => True) (fun _ _ _ _ _ => trivial) t c.copies
    (fun _ _ _ => trivial) c).1, fun h => (Core.CopyKeeps.foldl_translateCopy hP t c.copies h.2 c).2 h⟩

theorem Core.CopyKeeps.foldl_applyTranslation (ts : List Translation) :
    ∀ c, Core.CopyKeeps N P c (ts.foldl (fun c t => c.applyTranslation t) c) := by
  induction ts with
  | nil => exact .refl
  | cons t ts ih => exact fun c => (Core.CopyKeeps.applyTranslation hP c t).trans (ih _)

theorem Core.CopyKeeps.ownTranslations (c : Core) (k : Copy) (hk : k.id = N → P k) : Core.CopyKeeps N P c (c.ownTranslations k) :=
  (Core.CopyKeeps.refuseBeats hP c k c.disagrees .uncorrectable hk).trans ⟨⟨_, _, _, _, _, _, fun _ hx => (List.mem_filter.1 hx).1, rfl⟩, id⟩

end

/-! ## Issuing a copy (R150, R256, R257) -/

/-- What a copy takes in the commit buffer: whole entries of 64 bytes if it is held (R150). -/
def heldSize : Option Nat → Nat
  | some n => 64 * ceilDiv n 64
  | none => 0

/-- What the statement on issuing says of the new copy. -/
def IssuedCopy (c : Core) (p : Pipe) (q : Nat) (op : CopyOp) (held : Option Nat) (beats : List Beat) (timed : Option Nat) (k : Copy) : Prop :=
  k.q = some q ∧ k.op = op ∧ k.issue = c.now ∧ k.pipe = p ∧
    k.size = heldSize held ∧
    k.released = held.isNone ∧ k.timed = timed ∧ k.inSeg = true ∧
    k.beats.map (fun b => (b.w, b.sp, b.data)) = beats.map fun b => (b.w, b.sp, b.data)

theorem issuedCopy_blind (c : Core) (p : Pipe) (q : Nat) (op : CopyOp) (held : Option Nat) (beats : List Beat) (timed : Option Nat) :
    BeatBlind (IssuedCopy c p q op held beats timed) := by
  intro k st bs hk hbs
  obtain ⟨hq, hop, hissue, hpipe, hsize, hrel, htimed, hseg, hbeats⟩ := hk
  exact ⟨hq, hop, hissue, hpipe, hsize, hrel, htimed, hseg, hbs.trans hbeats⟩

theorem Core.need_ok {c : Core} {b : Bool} {code : TrapCode} {u : Unit} (h : c.need b code = .ok u) : b = true := by
  unfold Core.need at h
  split at h
  · next hb => exact hb
  · cases h

/-- The commit buffer has room where its check passes. -/
theorem Core.commitRoom_ok {c : Core} {n : Nat} (h : c.commitRoom n = .ok ()) : c.heldBytes + 64 * ceilDiv n 64 ≤ 65536 := by
  unfold Core.commitRoom Core.need at h
  split at h
  · next hle => exact of_decide_eq_true hle
  · cases h

theorem ceilDiv_mul_self (k n : Nat) (hk : 0 < k) : ceilDiv (k * n) k = n := by
  rw [ceilDiv, Nat.add_sub_assoc hk, Nat.mul_add_div hk, Nat.div_eq_of_lt (Nat.sub_lt hk Nat.one_pos), Nat.add_zero]

/-- The copy that `issueCopy` appends. -/
def Core.issuedCopy (c : Core) (p : Pipe) (q : Nat) (op : CopyOp) (held : Option Nat) (beats : List Beat) (timed bound : Option Nat) : Copy :=
  { c.newCopy p (some q) op with
    size := heldSize held
    released := held.isNone, beats := beats, timed := timed, bound := bound }

/-- What issuing does once the copy is there: its barrier counts it, and its translations are made (R267, R271, R286). -/
def Core.afterIssue (c : Core) (k : Copy) : Core :=
  let c := match k.bound with | some a => c.boundUpdate k a (BarObj.bindIssue k.bytes) | none => c
  let c := c.ownTranslations k
  c.tlb.foldl (fun c t => c.applyTranslation t) c

theorem Core.afterIssue_keeps {N : Nat} {P : Copy → Prop} (hP : BeatBlind P) (c : Core) (k : Copy) (hk : k.id = N → P k) :
    Core.CopyKeeps N P c (c.afterIssue k) := by
  have hbound : c.BarFrame (match k.bound with | some a => c.boundUpdate k a (BarObj.bindIssue k.bytes) | none => c) := by
    split
    · exact c.boundUpdate_frame ..
    · exact .refl c
  exact (Core.CopyKeeps.of_barFrame hbound).trans
    ((Core.CopyKeeps.ownTranslations hP _ k hk).trans (Core.CopyKeeps.foldl_applyTranslation hP _ _))

/-- R150, R256, R257: issuing a copy has room for it, journals its barrier, appends it and goes on with its translations. -/
theorem Core.issueCopy_cases {c c' : Core} {p : Pipe} {q : Nat} {op : CopyOp} {held : Option Nat} {beats : List Beat} {timed : Option Nat}
    (h : c.issueCopy p q op held beats timed = .ok c') :
    c.commitRoom (heldSize held) = .ok () ∧
    ∃ c0 bound, c.BarFrame c0 ∧
      c' = (c0.addCopy (c0.issuedCopy p q op held beats timed bound)).afterIssue (c0.issuedCopy p q op held beats timed bound) := by
  unfold Core.issueCopy at h
  obtain ⟨⟨⟩, hroom, h⟩ := ok_of_bind h
  refine ⟨by cases held <;> exact hroom, ?_⟩
  generalize c.boundTo q = bound at h
  cases bound with
  | none =>
    obtain ⟨c0, hc0, h⟩ := ok_of_bind h
    cases hc0
    cases h
    exact ⟨c, none, .refl c, by cases held <;> rfl⟩
  | some a =>
    obtain ⟨c0, hc0, h⟩ := ok_of_bind h
    cases h
    exact ⟨c0, some a, Core.journalBar_frame hc0, by cases held <;> rfl⟩

theorem Core.issuedCopy_issued (c : Core) (p : Pipe) (q : Nat) (op : CopyOp) (held : Option Nat) (beats : List Beat)
    (timed bound : Option Nat) : IssuedCopy c p q op held beats timed (c.issuedCopy p q op held beats timed bound) :=
  ⟨rfl, rfl, rfl, rfl, rfl, rfl, rfl, rfl, rfl⟩

/-- The frame of issuing a copy: besides what copies and barriers change, the number of the next one, and the retirement of the word. -/
theorem Core.issueCopy_frame {c c' : Core} {p : Pipe} {q : Nat} {op : CopyOp} {held : Option Nat} {beats : List Beat} {timed : Option Nat}
    (h : c.issueCopy p q op held beats timed = .ok c') :
    Core.CopyFrame { c with nextId := c.nextId + 1, cx := { c.cx with retire := .copy c.nextId } } c' := by
  obtain ⟨-, c0, bound, ⟨_, _, _, _, rfl⟩, rfl⟩ := Core.issueCopy_cases h
  refine Core.CopyFrame.trans ⟨_, _, _, _, _, _, fun _ hx => hx, rfl⟩ (Core.afterIssue_keeps (N := 0) (P := fun _ => True)
    (fun _ _ _ _ _ => trivial) _ _ (fun _ => trivial)).1

/-- R150: the commit buffer has room for a copy that is issued. -/
theorem Core.issueCopy_room {c c' : Core} {p : Pipe} {q : Nat} {op : CopyOp} {held : Option Nat} {beats : List Beat} {timed : Option Nat}
    (h : c.issueCopy p q op held beats timed = .ok c') :
    c.heldBytes + heldSize held ≤ 65536 := by
  have hroom := Core.commitRoom_ok (Core.issueCopy_cases h).1
  cases held with
  | none => exact hroom
  | some n =>
    rwa [heldSize, ceilDiv_mul_self 64 _ (by decide)] at hroom

/-- R256: the copy issued is the newest of the core. -/
theorem Core.issueCopy_newest {c c' : Core} {p : Pipe} {q : Nat} {op : CopyOp} {held : Option Nat} {beats : List Beat} {timed : Option Nat}
    (h : c.issueCopy p q op held beats timed = .ok c') (hids : ∀ k ∈ c.copies, k.id < c.nextId) :
    ∃ k ∈ c'.copies, k.id = c.nextId ∧ IssuedCopy c p q op held beats timed k := by
  obtain ⟨-, c0, bound, hframe, rfl⟩ := Core.issueCopy_cases h
  have hissued : IssuedCopy c p q op held beats timed (c0.issuedCopy p q op held beats timed bound) := by
    obtain ⟨_, _, _, _, rfl⟩ := hframe
    exact Core.issuedCopy_issued ..
  have hid : (c0.issuedCopy p q op held beats timed bound).id = c.nextId := by
    obtain ⟨_, _, _, _, rfl⟩ := hframe
    rfl
  have hkeeps := (Core.afterIssue_keeps (N := c.nextId) (issuedCopy_blind c p q op held beats timed)
    (c0.addCopy (c0.issuedCopy p q op held beats timed bound)) _ (fun _ => hissued)).2
  obtain ⟨⟨k, hk, hkid⟩, hall⟩ := hkeeps ⟨⟨_, List.mem_append_right _ (List.mem_singleton.2 rfl), hid⟩, fun x hx hxid => by
    rcases List.mem_append.1 hx with hold | hnew
    · rw [hframe.copies] at hold
      exact absurd hxid (Nat.ne_of_lt (hids x hold))
    · rw [List.mem_singleton.1 hnew]
      exact hissued⟩
  exact ⟨k, hk, hkid, hall k hk hkid⟩

/-! ## Channels, timed beats and operand reads -/

section
variable (a : Arch) (kindOf : Nat → Nat) (t : Nat) (b : Beat) (bs : List Beat)

/-- R272: a beat of HBM reserves its channel for 333 LTs. -/
theorem Arch.reserveBeats_hbm {w pa : Nat} (hw : b.w = some w) (hpa : b.pa = some pa) (hk : kindOf w = 1) :
    a.reserveBeats kindOf t (b :: bs) =
      { a with chan := SMap.set 0 a.chan (channelOf pa) (Nat.max t (SMap.get 0 a.chan (channelOf pa)) + 333) }.reserveBeats kindOf t bs := by
  rw [Arch.reserveBeats, hw, hpa]
  exact if_pos (beq_iff_eq.2 hk)

theorem Arch.reserveBeats_other (h : ∀ w pa, b.w = some w → b.pa = some pa → kindOf w ≠ 1) :
    a.reserveBeats kindOf t (b :: bs) = a.reserveBeats kindOf t bs := by
  rw [Arch.reserveBeats]
  split
  · next w pa hw hpa => exact if_neg (by rw [beq_iff_eq]; exact h w pa hw hpa)
  · rfl

/-- Reserving channels changes nothing else. -/
theorem Arch.reserveBeats_eq : a.reserveBeats kindOf t bs = { a with chan := (a.reserveBeats kindOf t bs).chan } := by
  induction bs generalizing a with
  | nil => rfl
  | cons b bs ih =>
    rw [Arch.reserveBeats]
    split
    · refine ite_keeps (P := fun x : Arch => x = { a with chan := x.chan }) ?_ (ih a)
      conv => lhs; rw [ih]
    · exact ih a

end

/-- What `gate` puts in flight. -/
def Core.newGate (c : Core) (p : Pipe) (lt : Nat) (act : Act) : Item :=
  { lt := lt, issue := c.now, pipe := p, word := c.cx.word, dst := none, ready := false, act := act }

/-- R260: the landings of a timed copy in flight. -/
theorem Core.timedBeats_eq (p : Pipe) (id n lt : Nat) (c : Core) :
    c.timedBeats p id n lt = c.withItems ((upto n).map fun j => c.newGate p lt (.timedBeat id j)) := by
  unfold Core.timedBeats
  generalize upto n = js
  induction js generalizing c with
  | nil => exact c.withItems_nil.symm
  | cons j js ih =>
    rw [List.foldl_cons, ih, Core.gate_eq_withItems, Core.withItems_withItems]
    rfl

/-- R278: the reads of operands in flight, four beats to an LT. -/
theorem Core.operandReads_eq (c : Core) (p : Pipe) (id n : Nat) :
    c.operandReads p id n = c.withItems ((upto (ceilDiv n 4)).map fun g =>
      c.newItem p (c.now + 1 + g) none (.readCopy id (4 * g) (Nat.min 4 (n - 4 * g)))) :=
  Core.foldl_later_now ..

/-- R260, R261: the landing LT of a timed copy, and what it takes. -/
theorem Core.timedLanding_ok {c : Core} {beats : List Beat} {timed : Option Nat} (h : c.timedLanding beats = .ok timed) :
    (c.cx.ts = none → timed = none) ∧
    ∀ d, c.cx.ts = some d → timed = some (c.now + d.toNat) ∧ c.calendar = true ∧ beats.length ≤ 64 ∧
      ∀ b ∈ beats, ∀ w, b.w = some w → c.kindOf w = 1 := by
  unfold Core.timedLanding at h
  cases hts : c.cx.ts with
  | none =>
    rw [hts] at h
    cases h
    exact ⟨fun _ => rfl, fun _ hd => nomatch hd⟩
  | some d =>
    rw [hts] at h
    obtain ⟨_, hneed, h⟩ := ok_of_bind h
    obtain ⟨lt, hlt, h⟩ := ok_of_bind h
    cases h
    refine ⟨(nomatch ·), fun d' hd' => ?_⟩
    cases hd'
    have hlt' : lt = c.now + d.toNat := by
      simp only [Core.targetLt, hts] at hlt
      split at hlt
      · cases hlt; rfl
      · cases hlt
    have hok := Core.need_ok hneed
    rw [Bool.and_eq_true, Bool.and_eq_true, decide_eq_true_eq, List.all_eq_true] at hok
    obtain ⟨⟨hcal, hlen⟩, hall⟩ := hok
    refine ⟨congrArg some hlt', hcal, hlen, fun b hb w hw => ?_⟩
    have hkind := hall b hb
    rw [hw] at hkind
    exact eq_of_beq hkind

/-- R260, R261, R272: what issuing a get adds. -/
theorem Core.issueGet_ok {c c' : Core} {n : BitVec 3} {op : CopyOp} {beats : List Beat} (h : c.issueGet n op beats = .ok c') :
    ∃ timed c1, c.issueCopy c.cPipe n.toNat op none beats timed = .ok c1 ∧ c.timedLanding beats = .ok timed ∧
      c' = { c1 with a := { c1.a.reserveBeats c1.kindOf c.now beats with
        inflight := c1.a.inflight ++ match timed with
          | some t => (upto beats.length).map fun j => c.newGate c.cPipe t (.timedBeat c.nextId j)
          | none => [] } } := by
  unfold Core.issueGet at h
  obtain ⟨timed, htimed, h⟩ := ok_of_bind h
  obtain ⟨c1, hc1, h⟩ := ok_of_bind h
  refine ⟨timed, c1, hc1, htimed, ?_⟩
  have hframe := Core.issueCopy_frame hc1
  have hnow : c1.now = c.now := by obtain ⟨_, _, _, _, _, _, -, rfl⟩ := hframe; rfl
  have hgate : c1.newGate = c.newGate := by obtain ⟨_, _, _, _, _, _, -, rfl⟩ := hframe; rfl
  cases h
  rw [hnow, Arch.reserveBeats_eq]
  cases timed with
  | none => simp only [List.append_nil]
  | some t =>
    dsimp only
    rw [Core.timedBeats_eq, Core.withItems, ← hgate]
    simp only [Core.newGate, Core.now]

/-- R278, R279: what issuing a put adds. -/
theorem Core.issuePut_ok {c c' : Core} {n : BitVec 3} {op : CopyOp} {w sp k : Nat} (h : c.issuePut n op w sp k = .ok c') :
    c.readGuard (c.operandAccs sp k) = .ok () ∧
    ∃ c1, c.issueCopy c.cPipe n.toNat op (some (64 * k)) (c.newBeats w sp k) none = .ok c1 ∧
      c' = c1.withItems ((upto (ceilDiv k 4)).map fun g =>
        c.newItem c.cPipe (c.now + 1 + g) none (.readCopy c.nextId (4 * g) (Nat.min 4 (k - 4 * g)))) := by
  unfold Core.issuePut at h
  obtain ⟨⟨⟩, hguard, h⟩ := ok_of_bind h
  obtain ⟨c1, hc1, h⟩ := ok_of_bind h
  refine ⟨hguard, c1, hc1, ?_⟩
  have hframe := Core.issueCopy_frame hc1
  have hnow : c1.now = c.now := by obtain ⟨_, _, _, _, _, _, -, rfl⟩ := hframe; rfl
  have hitem : c1.newItem = c.newItem := by obtain ⟨_, _, _, _, _, _, -, rfl⟩ := hframe; rfl
  cases h
  rw [Core.operandReads_eq, hnow, hitem]

/-! ## The words -/

theorem mem_amoType {t : Nat} (h : t ∈ [3, 8, 9, 10]) : amoType t = true := by
  simpa only [amoType, Bool.or_eq_true, beq_iff_eq, List.mem_cons, List.not_mem_nil, or_false, or_assoc] using h

/-- The union of kinds none of which is poisoned. -/
theorem joinAll_clean {ks : List Kind} (h : ∀ k ∈ ks, k.poisoned = false) : (Kind.joinAll ks).poisoned = false := by
  unfold Kind.joinAll
  have hfold : ∀ (l : List Kind) (k0 : Kind), k0.poisoned = false → (∀ k ∈ l, k.poisoned = false) → (l.foldl Kind.join k0).poisoned = false := by
    intro l
    induction l with
    | nil => exact fun _ h0 _ => h0
    | cons k l ih =>
      intro k0 h0 hl
      refine ih _ ?_ fun x hx => hl x (List.mem_cons_of_mem k hx)
      have hk := hl k List.mem_cons_self
      simp only [Kind.poisoned, Bool.or_eq_false_iff] at h0 hk
      simp only [Kind.poisoned, Kind.join, h0, hk, Bool.or_self]
  exact hfold ks _ rfl h

/-- R278: a descriptor whose bits, alignment and range are right. -/
theorem descOk_of {c : Core} {d : W64} {mask len : Nat} (hw : within d mask = true) (hal : fld d 22 0 % 64 = 0)
    (hfit : fld d 22 0 + len ≤ spadSize) : c.descOk d mask len = .ok () := by
  refine Core.need_of ?_
  simp only [descSpad, hw, hal, hfit, BEq.rfl, decide_true, Bool.and_self]

/-- Settles O23: the words' checks pass by their hypotheses, and `issueCopy`, `issueGet` and `issuePut` add what their lemmas say. -/
theorem copyWordResults : Obligations.CopyWordResults := by
  unfold Obligations.CopyWordResults
  refine ⟨fun s ch n a b c' => ⟨fun wa d w qs h => ⟨fun hw hal hfit => ⟨fun hwin hbuf hc hp => ?_, fun hwin hc hp => ?_⟩,
    fun hw hal hfit hk hop ht hwin hc hp => ?_, fun hw hal hfit hk hwin hbuf hc hp => ?_, fun hw hwin hc hp => ?_⟩,
    fun v ctl beats qs h hw hal hfit hclean hbeats hbuf hc hp => ?_⟩, fun c c' n op beats h => ?_, fun a kindOf t b bs =>
    ⟨rfl, fun w pa => a.reserveBeats_hbm kindOf t b bs, a.reserveBeats_other kindOf t b bs⟩,
    fun c c' n op w sp k h => ?_, fun c c' p q op held beats timed hids h => ?_⟩
  · refine completes_of hp (rfl : execCpGet ch n a b s = _) ?_
    obtain ⟨c, hx, hy⟩ := readsSS_eq h
    simp only [hx, hy, bind, Except.bind, descOk_of (mask := plainDesc) hw hal hfit, descBeats, descSpad, State.adding_windowCheck, hwin,
      State.adding_bufferCheck, hbuf, State.adding_newBeats, hc]
  · refine completes_of hp (rfl : execCpPut ch n a b s = _) ?_
    obtain ⟨c, hx, hy⟩ := readsSS_eq h
    simp only [hx, hy, bind, Except.bind, descOk_of (mask := plainDesc) hw hal hfit, descBeats, descSpad, State.adding_windowCheck, hwin, hc]
  · refine completes_of hp (rfl : execCpAmo ch n a b s = _) ?_
    obtain ⟨c, hx, hy⟩ := readsSS_eq h
    have hmask : within d (plainDesc + ones 42 36) = true := hw
    have hneed : (decide (descBeats d ≤ 1024) && decide (fld d 42 40 ≤ 5) && amoType (fld d 39 36)) = true := by
      simp only [descBeats, hk, hop, mem_amoType ht, decide_true, Bool.and_self]
    simp only [hx, hy, bind, Except.bind, descOk_of (mask := plainDesc + ones 42 36) hmask hal hfit, descBeats, descSpad, ↓Core.need_of hneed, State.adding_windowCheck,
      hwin, hc]
  · refine completes_of hp (rfl : execCpScrub ch n a b s = _) ?_
    obtain ⟨c, hx, hy⟩ := readsSS_eq h
    have hbeats : descBeats d ≤ 512 := hk
    have hframe := Core.issueCopy_frame hc
    have hnow : c'.now = s.issuing.now := by obtain ⟨_, _, _, _, _, _, -, rfl⟩ := hframe; rfl
    have hpipe : (s.adding qs [] s.issuing.now).cPipe = s.issuing.cPipe := rfl
    simp only [hx, hy, bind, Except.bind, descOk_of (mask := plainDesc) hw hal hfit, descBeats, descSpad, ↓Core.need_of (decide_eq_true hbeats),
      State.adding_windowCheck, hwin, State.adding_bufferCheck, hbuf, State.adding_newBeats, hpipe, hc, hnow]
  · refine completes_of hp (rfl : execCpFill ch n a b s = _) ?_
    obtain ⟨c, hx, hy⟩ := readsSS_eq h
    have hpipe : (s.adding qs [] s.issuing.now).cPipe = s.issuing.cPipe := rfl
    simp only [hx, hy, bind, Except.bind, Core.need_of hw, State.adding_windowCheck, hwin, hpipe, State.adding_newBeat, PWord.ofNat,
      BitVec.ofNat_toNat, BitVec.setWidth_eq, hc]
  · refine completes_of hp (rfl : execCpGath ch n a b s = _) ?_
    obtain ⟨c, hx, hy⟩ := readsVS_eq h
    have hneed : (within ctl (ones 35 30 + ones 28 24 + ones 22 0) && fld ctl 22 0 % 64 == 0 &&
        decide (fld ctl 22 0 + 64 * (fld ctl 35 30 + 1) * (fld ctl 28 24 + 1) ≤ spadSize)) = true := by
      simp only [hw, hal, hfit, BEq.rfl, decide_true, Bool.and_self]
    have hkinds : (Kind.joinAll ((upto (fld ctl 28 24 + 1)).map (gatherLaneKind v))).poisoned = false := by
      refine joinAll_clean fun k hk => ?_
      obtain ⟨i, hi, rfl⟩ := List.mem_map.1 hk
      exact hclean i ((mem_upto _ i).1 hi)
    simp only [hx, hy, bind, Except.bind, Core.need_of hneed, Core.noPoison_of hkinds, State.adding_gatherBeats, hbeats,
      State.adding_bufferCheck, hbuf, hc]
  · obtain ⟨timed, c1, hc1, htimed, rfl⟩ := Core.issueGet_ok h
    obtain ⟨hnone, hsome⟩ := Core.timedLanding_ok htimed
    exact ⟨timed, c1, hc1, hnone, hsome, rfl⟩
  · obtain ⟨hguard, c1, hc1, rfl⟩ := Core.issuePut_ok h
    exact ⟨hguard, c1, hc1, rfl⟩
  · have hframe := Core.issueCopy_frame h
    have hroom := Core.issueCopy_room h
    obtain ⟨k, hk, hid, hq, hop, hissue, hpipe, hsize, hrel, htimed, hseg, hbeats⟩ := Core.issueCopy_newest h hids
    obtain ⟨_, _, _, _, _, _, -, rfl⟩ := hframe
    exact ⟨by cases held <;> exact hroom, rfl, rfl, rfl, rfl, k, hk, hid, hq, hop, hissue, hpipe, by cases held <;> exact hsize, hrel, htimed,
      hseg, hbeats⟩

end Sys2Proof.Machine
end

section
/-! PROOFS. Words on the queues of copies (R270, R284-R287). -/
namespace Sys2Proof.Machine

section
variable {f : Copy → Option (TrapCode × BitVec 64)} (hf : ∀ k : Copy, k.state = .complete ∨ k.state = .cancelled → f k = none)
include hf

/-- R270, R284: the failure that a wait reports, of the first copy that is neither complete nor cancelled. -/
theorem findSome_failed {mine rest : List Copy} {k : Copy} {e : TrapCode × BitVec 64}
    (hdrop : mine.dropWhile (fun k => k.state == .complete || k.state == .cancelled) = k :: rest) (hk : f k = some e) :
    mine.findSome? f = some e := by
  induction mine with
  | nil => cases hdrop
  | cons x mine ih =>
    rw [List.dropWhile_cons] at hdrop
    split at hdrop
    · next hx =>
      rw [Bool.or_eq_true, beq_iff_eq, beq_iff_eq] at hx
      rw [List.findSome?_cons, hf x hx]
      exact ih hdrop
    · cases hdrop
      rw [List.findSome?_cons, hk]

theorem findSome_settled {mine : List Copy} (h : ∀ k ∈ mine, k.state = .complete ∨ k.state = .cancelled) : mine.findSome? f = none := by
  rw [List.findSome?_eq_none_iff]
  exact fun k hk => hf k (h k hk)

end

theorem filter_never {α : Type} (l : List α) : l.filter (fun _ => false) = [] :=
  List.filter_eq_nil_iff.2 fun _ _ => Bool.false_ne_true

/-- Settles O24. -/
theorem copyQueueWordResults : Obligations.CopyQueueWordResults := by
  unfold Obligations.CopyQueueWordResults
  intro s ch m
  refine ⟨fun hstuck => ⟨fun hp => ⟨fun hm => ?_, fun hm hfull => ?_, fun hm hfull => ?_⟩, fun hp => ⟨fun hall hok => ?_,
    fun k code addr rest hall hdrop hk => ?_, fun hall => ?_⟩⟩, fun d n hp => ?_, fun n a ctl qs h hw hp => ?_,
    fun c old x i q p hact => ?_, fun l w hp => ?_⟩
  · refine completes_of hp (rfl : execCpFence ch m s = _) ?_
    simp only [bind, Except.bind, Core.need_of (congrArg not hstuck), beq_iff_eq.2 hm, ↓reduceIte]
  · refine completes_of hp (rfl : execCpFence ch m s = _) ?_
    simp only [bind, Except.bind, Core.need_of (congrArg not hstuck), beq_eq_false_iff_ne.2 hm, hfull, Bool.false_eq_true, ↓reduceIte]
  · refine completes_of hp (rfl : execCpFence ch m s = _) ?_
    simp only [bind, Except.bind, Core.need_of (congrArg not hstuck), beq_eq_false_iff_ne.2 hm, hfull, Bool.false_eq_true, ↓reduceIte]
  · refine completes_of hp (rfl : execCpWait ch m s = _) ?_
    simp only [bind, Except.bind, Core.need_of (congrArg not hstuck), hall, ↓reduceIte]
    rw [findSome_settled ?_ hok]
    rintro k (hk | hk) <;> rw [hk]
  · refine traps_of hp (rfl : execCpWait ch m s = _) ?_
    simp only [bind, Except.bind, Core.need_of (congrArg not hstuck), hall, ↓reduceIte]
    rw [findSome_failed (e := (code, addr)) ?_ hdrop]
    · rw [hk]
    · rintro k (hk | hk) <;> rw [hk]
  · refine completes_of hp (rfl : execCpWait ch m s = _) ?_
    simp only [bind, Except.bind, Core.need_of (congrArg not hstuck), hall, Bool.false_eq_true, ↓reduceIte]
  · refine completes_of hp (rfl : execCpWp ch d n s = _) ?_
    conv => lhs; rw [State.issuing_eq_adding]
    simp only [State.adding_deliver, State.adding_cPipe, List.nil_append]
    rfl
  · refine completes_of hp (rfl : execCpBind ch n a s = _) ?_
    have hbit : (fld ctl 63 63 == 1) = ctl.getLsbD 63 := fld_one_bit_eq ..
    simp only [readsS_eq h, bind, Except.bind, Core.need_of hw, State.adding_cPipe, State.adding_now, State.adding_later,
      State.adding_retireAt, List.nil_append, hbit]
  · refine ⟨SMap.set none c.a.binds q p, ?_, fun k => SMap.get_set ..⟩
    simp only [Core.perform, hact]
  · refine completes_of hp (rfl : execCpInv ch l w s = _) ?_
    cases l with
    | true => simp only [Bool.not_true, Bool.false_and, filter_never, ↓reduceIte]
    | false => simp only [Bool.not_false, Bool.true_and, Bool.false_eq_true, ↓reduceIte]

end Sys2Proof.Machine
end

section
/-! PROOFS. Stores at their LT (R237, R240): a word whose reads a disturbance makes fail does not read back as it was stored. -/
namespace Sys2Proof.Machine

/-- A core whose reads of scratchpad word 0 fail (R240, R463). -/
def softCore : Core := { Core.reset with soft := [0] }

/-- A store of a clean word there. -/
def softStore : Item :=
  { lt := 1, issue := 0, pipe := .s, word := 0, dst := none, ready := true, act := .write 0 [{ w := 0, k := .clean }] }

/-- R467: while its reads fail the word reads with element poison, also once it has been stored clean. -/
theorem softStore_reads_poison : ∀ c', softCore.perform softCore 1 softStore = .ok c' → (c'.spadWord 0).k = .element := by
  intro c' h
  cases h
  decide

/-- Refutes O58: the store of a word does not end the failure of its reads (`softStore_reads_poison`). -/
theorem not_landingStoreEffects : ¬ Obligations.LandingStoreEffects := by
  unfold Obligations.LandingStoreEffects
  rintro ⟨-, h⟩
  obtain ⟨-, -, -, -, -, -, -, -, -, -, -, -, -, -, hstore⟩ := h softCore softCore 1 softStore
  obtain ⟨c', hperform, hreads, -⟩ := hstore 0 _ rfl rfl
  have hk := softStore_reads_poison c' hperform
  rw [show c'.spadWord 0 = _ from hreads 0 _ rfl] at hk
  cases hk

end Sys2Proof.Machine
end

section
/-! PROOFS. Memory read back (R3, R240): bytes, numbers and words that have been written, and barrier objects in the scratchpad. -/
namespace Sys2Proof.Machine

/-! ## Numbers as digits -/

theorem ofDigits_digits (w : Nat) : ∀ n v, ofDigits w (digits w n v) = v % 2 ^ (w * n) := by
  intro n
  induction n with
  | zero => intro v; rw [Nat.mul_zero, Nat.pow_zero, Nat.mod_one]; rfl
  | succ n ih =>
    intro v
    rw [digits, ofDigits, ih, Nat.mod_mod, Nat.shiftLeft_eq, Nat.shiftRight_eq_div_pow, Nat.mul_succ, Nat.add_comm (w * n) w, Nat.pow_add,
      Nat.mul_comm _ (2 ^ w)]
    exact Nat.mod_mul.symm

theorem ofBytes_toBytes (n v : Nat) : ofBytes (toBytes n v) = v % 2 ^ (8 * n) := by
  have hbyte : ∀ (m u : Nat), ((digits 8 m u).map (BitVec.ofNat 8)).map BitVec.toNat = digits 8 m u := by
    intro m
    induction m with
    | zero => intro u; rfl
    | succ m ih => intro u; simp only [digits, List.map_cons, ih, BitVec.toNat_ofNat, Nat.mod_mod]
  rw [ofBytes, toBytes, hbyte, ofDigits_digits]

/-! ## Bytes -/

theorem length_readBytes (m : List Host.Cell) (a n : Nat) : (readBytes m a n).length = n := by
  rw [readBytes, List.length_map, length_rangeFrom]

/-- Memories that agree on a range read the same there. -/
theorem readBytes_congr {m m' : List Host.Cell} {a n : Nat} (h : ∀ k, a ≤ k → k < a + n → readByte m' k = readByte m k) :
    readBytes m' a n = readBytes m a n :=
  List.map_congr_left fun k hk => let ⟨h1, h2⟩ := (mem_rangeFrom n a k).1 hk; h k h1 h2

theorem readNat_congr {m m' : List Host.Cell} {a n : Nat} (h : ∀ k, a ≤ k → k < a + n → readByte m' k = readByte m k) :
    readNat m' a n = readNat m a n := congrArg ofBytes (readBytes_congr h)

theorem readBytes_writeBytes_same (m : List Host.Cell) (a : Nat) (bs : List Byte) : readBytes (writeBytes m a bs) a bs.length = bs := by
  refine List.ext_getElem (length_readBytes ..) fun i hi hbs => ?_
  simp only [readBytes, List.getElem_map, rangeFrom_eq_range', List.getElem_range', Nat.one_mul]
  exact readByte_writeBytes_inside bs m a i hbs

/-- A number written reads back, as far as its bytes hold it. -/
theorem readNat_writeBytes_toBytes (m : List Host.Cell) (a n v : Nat) : readNat (writeBytes m a (toBytes n v)) a n = v % 2 ^ (8 * n) := by
  have hsame := readBytes_writeBytes_same m a (toBytes n v)
  rw [length_toBytes] at hsame
  rw [readNat, hsame, ofBytes_toBytes]

/-- A number read in two parts. -/
theorem readNat_add (m : List Host.Cell) : ∀ n a k, readNat m a (n + k) = readNat m a n + readNat m (a + n) k * 2 ^ (8 * n) := by
  have hcons : ∀ a n, readNat m a (n + 1) = (readByte m a).toNat + readNat m (a + 1) n * 2 ^ 8 := by
    intro a n
    simp only [readNat, readBytes, rangeFrom, List.map_cons, ofBytes, ofDigits, Nat.shiftLeft_eq, Nat.mod_eq_of_lt (readByte m a).isLt]
  intro n
  induction n with
  | zero => intro a k; simp only [readNat, readBytes, rangeFrom, List.map_nil, ofBytes, ofDigits, Nat.zero_add, Nat.mul_zero, Nat.pow_zero,
      Nat.mul_one, Nat.add_zero]
  | succ n ih =>
    intro a k
    rw [show n + 1 + k = n + k + 1 by omega, hcons, hcons, ih, show a + 1 + n = a + (n + 1) by omega, Nat.mul_add 8 n 1, Nat.pow_add,
      Nat.add_mul, Nat.add_assoc, Nat.mul_assoc]

/-! ## Words of the scratchpad -/

/-- A word stored reads back. -/
theorem readNat_storeWords (ws : List PWord) : ∀ (c : Core) (a k : Nat) (w : PWord), ws[k]? = some w →
    readNat (c.storeWords a ws).spad (a + 4 * k) 4 = w.w.toNat := by
  induction ws with
  | nil => intro c a k w h; cases h
  | cons x ws ih =>
    intro c a k w h
    cases k with
    | zero =>
      cases h
      rw [Core.storeWords, readNat_congr (m := (c.storeWord a x).spad) fun b hb hlt => storeWords_outside ws _ _ b (.inl (by omega))]
      rw [Core.storeWord, Nat.mul_zero, Nat.add_zero, readNat_writeBytes_toBytes]
      exact Nat.mod_eq_of_lt x.w.isLt
    | succ k =>
      rw [Core.storeWords, show a + 4 * (k + 1) = a + 4 + 4 * k by omega]
      exact ih _ _ k w h

/-- Two words stored read back as one number of 64 bits. -/
theorem spad64_storeWords {ws : List PWord} {k : Nat} {v : W64} (c : Core) (a : Nat) (hlo : ws[k]? = some (PWord.ofNat v.toNat))
    (hhi : ws[k + 1]? = some (PWord.ofNat (v.toNat >>> 32))) : (c.storeWords a ws).spad64 (a + 4 * k) = v := by
  have h1 := readNat_storeWords ws c a k _ hlo
  have h2 := readNat_storeWords ws c a (k + 1) _ hhi
  rw [Core.spad64, readNat_add _ 4 (a + 4 * k) 4, h1, show a + 4 * k + 4 = a + 4 * (k + 1) by omega, h2]
  refine BitVec.eq_of_toNat_eq ?_
  have hv := v.isLt
  simp only [PWord.ofNat, BitVec.toNat_ofNat, Nat.shiftRight_eq_div_pow]
  omega

/-! ## Barrier objects (R292) -/

/-- An object whose fields fit theirs. -/
def BarObj.Fits (b : BarObj) : Prop := b.state < 4 ∧ b.expect < 2 ^ 12 ∧ b.left < 2 ^ 12 ∧ b.pend < 2 ^ 36

theorem BarObj.ofWords_fits (w0 w1 : W64) : (BarObj.ofWords w0 w1).Fits :=
  ⟨Nat.mod_lt _ (by decide), Nat.mod_lt _ (by decide), Nat.mod_lt _ (by decide), Nat.mod_lt _ (by decide)⟩

/-- R292: an object is what its words hold. -/
theorem BarObj.ofWords_w0 {b : BarObj} (h : b.Fits) : BarObj.ofWords b.w0 b.w1 = b := by
  obtain ⟨hstate, hexpect, hleft, hpend⟩ := h
  obtain ⟨state, phase, expect, left, pend, w1⟩ := b
  dsimp only at hstate hexpect hleft hpend
  have hphase := Bool.toNat_lt phase
  have hterm : (if phase then 2 ^ 60 else 0) = phase.toNat * 2 ^ 60 := by cases phase <;> rfl
  have hword : (BarObj.mk state phase expect left pend w1).w0.toNat =
      pend + left * 2 ^ 36 + expect * 2 ^ 48 + phase.toNat * 2 ^ 60 + state * 2 ^ 61 := by
    simp only [BarObj.w0, BitVec.toNat_ofNat, hterm, Nat.shiftLeft_eq]
    exact Nat.mod_eq_of_lt (by omega)
  have hbit : (phase.toNat == 1) = phase := by cases phase <;> rfl
  simp only [BarObj.ofWords, fld, bitsOf, hword, Nat.shiftRight_eq_div_pow, BarObj.mk.injEq, and_true]
  refine ⟨by omega, ?_, by omega, by omega, by omega⟩
  rw [show (pend + left * 2 ^ 36 + expect * 2 ^ 48 + phase.toNat * 2 ^ 60 + state * 2 ^ 61) / 2 ^ 60 % 2 ^ (60 + 1 - 60) = phase.toNat by
    omega, hbit]

/-- R292: an object written reads back. -/
theorem Core.bar_putBar (c : Core) (a : Nat) {b : BarObj} (h : b.Fits) : (c.putBar a b).bar a = b := by
  have h0 := spad64_storeWords (ws := words64 b.w0 ++ words64 b.w1) (k := 0) (v := b.w0) c a rfl rfl
  have h1 := spad64_storeWords (ws := words64 b.w0 ++ words64 b.w1) (k := 2) (v := b.w1) c a rfl rfl
  rw [Core.bar, Core.putBar]
  rw [show a + 4 * 0 = a from rfl] at h0
  rw [show a + 4 * 2 = a + 8 from rfl] at h1
  rw [h0, h1, BarObj.ofWords_w0 h]

end Sys2Proof.Machine
end

section
/-! PROOFS. Barrier words (R292-R298, R311-R313): what they put in flight, and what `bar.init` and an arrival do at their LT. -/
namespace Sys2Proof.Machine

@[simp] theorem State.adding_sliceClear (s : State) (qs : SMap (List Val)) (es : List Item) (lt : Nat) (r : List (Nat × Nat × Nat)) :
    (s.adding qs es lt).sliceClear r = s.issuing.sliceClear r := rfl
@[simp] theorem State.adding_slotCheck (s : State) (qs : SMap (List Val)) (es : List Item) (lt : Nat) (r : List (Nat × Nat × Nat)) :
    (s.adding qs es lt).slotCheck r = s.issuing.slotCheck r := rfl
@[simp] theorem State.adding_bars (s : State) (qs : SMap (List Val)) (es : List Item) (lt : Nat) :
    (s.adding qs es lt).a.bars = s.issuing.a.bars := rfl
@[simp] theorem State.adding_bar (s : State) (qs : SMap (List Val)) (es : List Item) (lt a : Nat) :
    (s.adding qs es lt).bar a = s.issuing.bar a := rfl

/-! ## The journal (R298) -/

/-- A core with another journal. -/
def Core.withJournal (c : Core) (j : List (Nat × W64 × W64)) : Core := { c with journal := j }

/-- The journal once an object is in it. -/
def Core.journalled (c : Core) (p : Nat) : List (Nat × W64 × W64) :=
  if c.journal.any fun e => e.1 == p then c.journal else c.journal ++ [(p, c.spad64 p, c.spad64 (p + 8))]

/-- R298: an object is journalled where it is so already, or the journal has room. -/
theorem Core.journalBar_of {c : Core} {p : Nat} (h : (c.journal.any fun e => e.1 == p) = true ∨ c.journal.length < 16) :
    c.journalBar p = .ok (c.withJournal (c.journalled p)) := by
  unfold Core.journalBar Core.journalled
  split
  · rfl
  · next hno => rw [if_neg (Nat.not_le.2 (h.resolve_left hno))]; rfl

/-- The core that the statement leaves, journalled. -/
theorem Core.withJournal_journalled (c d : Core) (p : Nat) (hd : d.journal = c.journal) :
    d.withJournal (c.journalled p) =
      if c.journal.any fun e => e.1 == p then d else { d with journal := c.journal ++ [(p, c.spad64 p, c.spad64 (p + 8))] } := by
  unfold Core.journalled
  split
  · rw [← hd]; rfl
  · rfl

@[simp] theorem Core.withJournal_later (c : Core) (j : List (Nat × W64 × W64)) (p : Pipe) (lt : Nat) (d : Option Port) (act : Act) :
    (c.withJournal j).later p lt d act = (c.later p lt d act).withJournal j := rfl
@[simp] theorem Core.withJournal_deliverS (c : Core) (j : List (Nat × W64 × W64)) (d : Port) (v : W64) (lat : Nat) :
    (c.withJournal j).deliverS d v lat = (c.deliverS d v lat).withJournal j := rfl
@[simp] theorem Core.withJournal_now (c : Core) (j : List (Nat × W64 × W64)) : (c.withJournal j).now = c.now := rfl

theorem State.adding_journalled (s : State) (qs : SMap (List Val)) (lt p : Nat) :
    (s.adding qs [] lt).journalled p = s.issuing.journalled p := rfl

/-! ## At their LT (R294, R295, R299) -/

theorem BarObj.init_fits {n : Nat} (h : n ≤ 4095) : (BarObj.init n).Fits := by
  refine ⟨?_, Nat.lt_succ_of_le h, Nat.lt_succ_of_le h, Nat.two_pow_pos 36⟩
  simp only [BarObj.init]
  split <;> decide

section
variable {b : BarObj} {k : Nat}

/-- R295: an arrival of an ACTIVE barrier lowers LEFT, and completes the phase where nothing is due. -/
theorem BarObj.arrive_active (hs : b.state = 1) (hk : k ≤ b.left) : b.arrive k =
    if b.left = k ∧ b.pend = 0 then { b with phase := !b.phase, left := b.expect } else { b with left := b.left - k } := by
  have hzero : b.left - k = 0 ↔ b.left = k := by omega
  simp only [BarObj.arrive, if_neg (Nat.not_lt.2 hk), BarObj.check, hs, BEq.rfl, Bool.true_and, Bool.and_eq_true, beq_iff_eq, hzero]

/-- R295: more arrivals than are expected fault it. -/
theorem BarObj.arrive_fault (hs : b.state = 1) (hk : b.left < k) :
    b.arrive k = { b with state := 2, w1 := faultRecord TrapCode.range.num 0 0 } := by
  simp only [BarObj.arrive, if_pos hk, BarObj.fault, hs, BEq.rfl, ↓reduceIte, BarObj.check, Nat.reduceBEq, Bool.false_and,
    Bool.false_eq_true]

/-- R295: a barrier that is not ACTIVE completes no phase and takes no fault. -/
theorem BarObj.arrive_inactive (hs : b.state ≠ 1) : b.arrive k = { b with left := if k ≤ b.left then b.left - k else b.left } := by
  by_cases hk : k ≤ b.left
  · simp only [BarObj.arrive, if_neg (Nat.not_lt.2 hk), BarObj.check, beq_eq_false_iff_ne.2 hs, Bool.false_and, Bool.false_eq_true,
      ↓reduceIte, hk]
  · simp only [BarObj.arrive, if_pos (Nat.not_le.1 hk), BarObj.fault, beq_eq_false_iff_ne.2 hs, BarObj.check, Bool.false_and,
      Bool.false_eq_true, ↓reduceIte, hk]

theorem BarObj.Fits.arrive (h : b.Fits) : (b.arrive k).Fits := by
  obtain ⟨hstate, hexpect, hleft, hpend⟩ := h
  by_cases hs : b.state = 1
  · by_cases hk : k ≤ b.left
    · rw [BarObj.arrive_active hs hk]
      split
      · exact ⟨hstate, hexpect, hexpect, hpend⟩
      · exact ⟨hstate, hexpect, Nat.lt_of_le_of_lt (Nat.sub_le ..) hleft, hpend⟩
    · rw [BarObj.arrive_fault hs (Nat.not_le.1 hk)]
      exact ⟨(by decide : 2 < 4), hexpect, hleft, hpend⟩
  · rw [BarObj.arrive_inactive hs]
    refine ⟨hstate, hexpect, ?_, hpend⟩
    dsimp only
    split
    · exact Nat.lt_of_le_of_lt (Nat.sub_le ..) hleft
    · exact hleft

end

theorem Core.putBar_outside (c : Core) (p : Nat) (b : BarObj) {e : Nat} (he : e < p ∨ p + 16 ≤ e) :
    readByte (c.putBar p b).spad e = readByte c.spad e := storeWords_outside _ c p e he

theorem Core.putBar_eq (c : Core) (p : Nat) (b : BarObj) :
    c.putBar p b = { c with spad := (c.putBar p b).spad, spadBad := (c.putBar p b).spadBad } := storeWords_eq _ c p

/-- R294, R299, R311: what `bar.init` changes of its core. -/
theorem Core.performBarInit_eq (c : Core) (p n : Nat) : ∃ spad bad, c.performBarInit p n = { c with
    spad := spad, spadBad := bad, copies := c.copies.map fun k => if k.bound == some p then { k with detached := true } else k
    a := { c.a with bars := if n == 0 then c.a.bars.filter fun b => b != p else (c.a.bars.filter fun b => b != p) ++ [p] } } := by
  unfold Core.performBarInit
  rw [Core.putBar_eq]
  exact ⟨_, _, rfl⟩

theorem Core.performBarInit_spad (c : Core) (p n : Nat) :
    (c.performBarInit p n).spad = ((c.detach p).putBar p (BarObj.init n)).spad := rfl

theorem Core.bar_congr {c d : Core} (h : d.spad = c.spad) (p : Nat) : d.bar p = c.bar p := by
  unfold Core.bar Core.spad64
  rw [h]

theorem Core.hold_now {c c' : Core} {p : Pipe} {op : CopyOp} {n : Nat} (h : c.hold p op n = .ok c') : c'.now = c.now := by
  unfold Core.hold at h
  obtain ⟨_, _, h⟩ := ok_of_bind h
  cases h
  rfl

/-- A phase bit. -/
theorem beq_one_of_lt_two {y : W64} (hy : y.toNat < 2) : (y == 1) = y.getLsbD 0 := by
  have hbit : y.getLsbD 0 = decide (y.toNat = 1) := by
    rw [← BitVec.testBit_toNat, Nat.testBit_zero]
    exact decide_eq_decide.2 (by omega)
  rw [hbit, Bool.eq_iff_iff, beq_iff_eq, decide_eq_true_eq, BitVec.toNat_eq]
  rfl

theorem waitOk {s : State} {qs : SMap (List Val)} {x y : W64} (hy : y.toNat < 2) (hbar : x.toNat ∈ s.issuing.a.bars) :
    (within y 1 && (s.adding qs [] s.issuing.now).a.bars.contains x.toNat) = true := by
  rw [show within y 1 = true from within_of_lt (hi := 0) hy, State.adding_bars, List.contains_eq_mem]
  exact decide_eq_true hbar

/-- Settles O25: the words by their checks, the object by `Core.bar_putBar` and the equations of an arrival. -/
theorem barrierWordResults : Obligations.BarrierWordResults := by
  unfold Obligations.BarrierWordResults
  intro s ch d a b x y qs h
  refine ⟨fun hal hfit hy hroom hbuf hslice hslot hj hp => ?_, fun hw hy1 hy hp => ⟨fun hrem hbar hslice hslot hj => ?_,
    fun c' hrem hcount hhold => ?_⟩, fun hal hfit hy hbar hp => ⟨fun hph => ?_, fun hph hst => ?_, fun hph hst => ?_⟩,
    fun c old lt i p n => ⟨fun hact hn => ?_, fun hact hp => ?_, fun hact hp => ?_⟩⟩
  · refine completes_of hp (rfl : execBarInit ch d a b s = _) ?_
    obtain ⟨c, hx, hyr⟩ := readsSS_eq h
    have hroom' : (y == 0 || (s.adding qs [] s.issuing.now).a.bars.contains x.toNat ||
        decide ((s.adding qs [] s.issuing.now).a.bars.length < 32)) = true := by
      rw [State.adding_bars, Bool.or_eq_true, Bool.or_eq_true, beq_iff_eq, List.contains_eq_mem, decide_eq_true_eq, decide_eq_true_eq,
        or_assoc]
      exact hroom
    have hjournal := Core.journalBar_of (c := s.adding qs [] s.issuing.now) hj
    simp only [hx, hyr, bind, Except.bind, Core.spadAddr_of hal hfit, Core.need_of (decide_eq_true hy), ↓Core.need_of hroom',
      State.adding_now, State.adding_bufferCheck, hbuf, State.adding_sliceClear, hslice, State.adding_slotCheck, hslot, hjournal,
      Core.withJournal_now, Core.withJournal_later, Core.withJournal_deliverS, State.adding_later, State.adding_deliverS, List.nil_append,
      State.adding_journalled, List.cons_append]
    exact congrArg Except.ok (Core.withJournal_journalled s.issuing _ x.toNat rfl)
  · refine completes_of hp (rfl : execBarArv ch a b s = _) ?_
    obtain ⟨c, hx, hyr⟩ := readsSS_eq h
    have hneed : (within x (ones 41 32 + ones 22 4) && decide (1 ≤ y.toNat) && decide (y.toNat ≤ 4095)) = true := by
      simp only [hw, hy1, hy, decide_true, Bool.and_self]
    have hlocal : (fld x 41 41 == 1) = false := (fld_one_bit_eq ..).trans hrem
    have hmem : (s.adding qs [] s.issuing.now).a.bars.contains (16 * fld x 22 4) = true := by
      rw [State.adding_bars, List.contains_eq_mem]
      exact decide_eq_true hbar
    have hjournal := Core.journalBar_of (c := s.adding qs [] s.issuing.now) hj
    simp only [hx, hyr, bind, Except.bind, Core.need_of hneed, hlocal, Bool.false_eq_true, ↓reduceIte, Core.need_of hmem,
      State.adding_now, State.adding_sliceClear, hslice, State.adding_slotCheck, hslot, hjournal, Core.withJournal_now,
      Core.withJournal_later, State.adding_later, List.nil_append, State.adding_journalled]
    exact congrArg Except.ok (Core.withJournal_journalled s.issuing _ (16 * fld x 22 4) rfl)
  · refine completes_of hp (rfl : execBarArv ch a b s = _) ?_
    obtain ⟨c, hx, hyr⟩ := readsSS_eq h
    have hneed : (within x (ones 41 32 + ones 22 4) && decide (1 ≤ y.toNat) && decide (y.toNat ≤ 4095)) = true := by
      simp only [hw, hy1, hy, decide_true, Bool.and_self]
    have hremote : (fld x 41 41 == 1) = true := (fld_one_bit_eq ..).trans hrem
    have hcore : fld x 40 32 < s.coreCount (s.adding qs [] s.issuing.now) := hcount
    have hnow : c'.now = s.issuing.now := (Core.hold_now hhold).trans (State.adding_now ..)
    simp only [hx, hyr, bind, Except.bind, Core.need_of hneed, hremote, ↓reduceIte, ↓Core.need_of (decide_eq_true hcore), hhold, hnow]
  · refine completes_of hp (rfl : execBarWait ch a b s = _) ?_
    obtain ⟨c, hx, hyr⟩ := readsSS_eq h
    have hphase : ((s.issuing.bar x.toNat).phase != (y == 1)) = true := by
      rw [beq_one_of_lt_two hy]
      exact bne_iff_ne.2 hph
    simp only [hx, hyr, bind, Except.bind, Core.spadAddr_of hal hfit, Core.need_of (waitOk hy hbar), State.adding_bar, hphase,
      ↓reduceIte]
  · refine traps_of hp (rfl : execBarWait ch a b s = _) ?_
    obtain ⟨c, hx, hyr⟩ := readsSS_eq h
    have hphase : ((s.issuing.bar x.toNat).phase != (y == 1)) = false := by
      rw [beq_one_of_lt_two hy]
      exact bne_eq_false_iff_eq.2 hph
    simp only [hx, hyr, bind, Except.bind, Core.spadAddr_of hal hfit, Core.need_of (waitOk hy hbar), State.adding_bar, hphase, hst,
      BEq.rfl, Bool.false_eq_true, ↓reduceIte, Nat.shiftLeft_eq]
    rw [Nat.mul_comm _ (2 ^ 6)]
  · refine completes_of hp (rfl : execBarWait ch a b s = _) ?_
    obtain ⟨c, hx, hyr⟩ := readsSS_eq h
    have hphase : ((s.issuing.bar x.toNat).phase != (y == 1)) = false := by
      rw [beq_one_of_lt_two hy]
      exact bne_eq_false_iff_eq.2 hph
    simp only [hx, hyr, bind, Except.bind, Core.spadAddr_of hal hfit, Core.need_of (waitOk hy hbar), State.adding_bar, hphase,
      beq_eq_false_iff_ne.2 hst, Bool.false_eq_true, ↓reduceIte]
  · have hperform : c.perform old lt i = .ok (c.performBarInit p n) := by simp only [Core.perform, hact]
    obtain ⟨spad, bad, heq⟩ := Core.performBarInit_eq c p n
    have hbar := (Core.bar_congr (c.performBarInit_spad p n) p).trans (Core.bar_putBar (c.detach p) p (BarObj.init_fits hn))
    have houtside : ∀ e, e < p ∨ p + 16 ≤ e → readByte (c.performBarInit p n).spad e = readByte c.spad e := by
      rw [Core.performBarInit_spad]
      exact fun e he => Core.putBar_outside (c.detach p) p _ he
    rw [heq] at hbar houtside hperform
    refine ⟨_, ⟨hperform, rfl, houtside⟩, hbar.trans ?_, ?_, ?_⟩
    · simp only [BarObj.init, beq_iff_eq]
    · simp only [beq_iff_eq]
      split <;> simp only [List.append_nil]
    · simp only [beq_iff_eq]
  · simp only [Core.perform, hact, Core.ownUpdate, List.contains_eq_mem, decide_eq_true_eq, if_neg hp]
  · have hperform : c.perform old lt i = .ok (c.putBar p (BarObj.arrive n (c.bar p))) := by
      simp only [Core.perform, hact, Core.ownUpdate, List.contains_eq_mem, decide_eq_true_eq, if_pos hp]
    have hbar : (c.putBar p (BarObj.arrive n (c.bar p))).bar p = BarObj.arrive n (c.bar p) :=
      Core.bar_putBar c p (BarObj.ofWords_fits ..).arrive
    have heq := Core.putBar_eq c p (BarObj.arrive n (c.bar p))
    refine ⟨_, ⟨hperform, ?_, fun e he => Core.putBar_outside c p _ he⟩, ?_, ?_, ?_⟩
    · rw [heq]
    · rw [heq]
    · rw [heq]
    · rw [hbar]
      exact ⟨BarObj.arrive_active, BarObj.arrive_fault, BarObj.arrive_inactive⟩

end Sys2Proof.Machine
end

section
/-! PROOFS. Sends, receives and ordering points (R288-R290, R301, R314-R317, R362). -/
namespace Sys2Proof.Machine

/-! ## Sends and receives -/

/-- Reading an operand of either class and a scalar leaves the core with the queues as the two left them. -/
theorem readAny_readS_eq {s : State} {a b : Src} {r : Bool × Val} {y : W64} {c1 c2 : Core} (h1 : s.issuing.readAny a = .ok (r, c1))
    (h2 : c1.readS b = .ok (y, c2)) : c2 = s.adding c2.a.queues [] s.issuing.now := by
  rw [← State.adding_nil]
  exact queues_twice (Core.readAny_eq h1) (Core.readS_eq h2)

@[simp] theorem State.adding_sendLt (s : State) (qs : SMap (List Val)) (es : List Item) (lt : Nat) :
    (s.adding qs es lt).a.sendLt = s.issuing.a.sendLt := rfl
@[simp] theorem State.dieOfLogical_adding (s t : State) (qs : SMap (List Val)) (es : List Item) (lt n : Nat) :
    t.dieOfLogical (s.adding qs es lt) n = t.dieOfLogical s.issuing n := rfl
@[simp] theorem State.adding_word (s : State) (qs : SMap (List Val)) (es : List Item) (lt : Nat) :
    (s.adding qs es lt).cx.word = s.issuing.cx.word := rfl

/-- Settles O26. -/
theorem sendReceiveResults : Obligations.SendReceiveResults := by
  unfold Obligations.SendReceiveResults
  intro s ch d a b
  refine ⟨fun wide v c1 dest c2 t c' h1 h2 hk hr ht hlast hhold hp => ?_, fun k e qs h hk he hp => ⟨fun hlt => ?_, fun heq hnone => ?_,
    fun v c' heq hsome => ?_⟩⟩
  · refine completes_of hp (rfl : execSnd ch a b s = _) ?_
    have hc2 := readAny_readS_eq h1 h2
    generalize c2.a.queues = qs at hc2
    subst hc2
    have hcore : dest.toNat < s.coreCount (s.adding qs [] s.issuing.now) := hr
    have hle : SMap.get 0 (s.adding qs [] s.issuing.now).a.sendLt dest.toNat ≤ t := hlast
    simp only [h1, h2, bind, Except.bind, Core.noPoison_of hk, ↓Core.need_of (decide_eq_true hcore), State.adding_targetLt,
      State.adding_now, State.dieOfLogical_adding, State.adding_lcore, beq_iff_eq, ht, ↓Core.need_of (decide_eq_true hle)]
    exact hhold
  · refine completes_of hp (rfl : execRcv ch d a s = _) ?_
    have hcore : k.toNat < s.coreCount (s.adding qs [] s.issuing.now) := hk
    simp only [readsS_eq h, bind, Except.bind, ↓Core.need_of (decide_eq_true hcore), State.adding_targetLt, State.adding_now, he, hlt,
      ↓reduceIte, State.adding_cPipe, State.adding_later, State.adding_retireAt, List.nil_append]
    rfl
  · refine completes_of hp (rfl : execRcv ch d a s = _) ?_
    have hcore : k.toNat < s.coreCount (s.adding qs [] s.issuing.now) := hk
    subst heq
    simp only [readsS_eq h, bind, Except.bind, ↓Core.need_of (decide_eq_true hcore), State.adding_targetLt, State.adding_now, he,
      Nat.lt_irrefl, ↓reduceIte, State.adding_word, hnone]
  · refine completes_of hp (rfl : execRcv ch d a s = _) ?_
    have hcore : k.toNat < s.coreCount (s.adding qs [] s.issuing.now) := hk
    subst heq
    simp only [readsS_eq h, bind, Except.bind, ↓Core.need_of (decide_eq_true hcore), State.adding_targetLt, State.adding_now, he,
      Nat.lt_irrefl, ↓reduceIte, State.adding_word, State.adding_cPipe, hsome]

/-! ## Ordering points -/

/-- The entry found by its number is found under a further condition that it meets. -/
theorem find_and_of_find {α : Type} {p q : α → Bool} {l : List α} {x : α} (h : l.find? p = some x) (hq : q x = true) :
    l.find? (fun y => p y && q y) = some x := by
  induction l with
  | nil => cases h
  | cons y l ih =>
    rw [List.find?_cons] at h ⊢
    cases hp : p y with
    | true =>
      rw [hp] at h
      cases h
      rw [hq]
      rfl
    | false =>
      rw [hp] at h
      exact ih h

/-- R362: the completion LT that a fence notes is that of the amplitude instruction in flight whose accesses it names. -/
theorem Core.ampUntil_eq {c : Core} {kind : FenceKind} {e : AmpEntry} {i : Item} {base : Nat} (hi : i ∈ c.a.inflight)
    (hact : i.act = .ampEnd e.id base 0) (hone : ∀ j ∈ c.a.inflight, ∀ id b n, j.act = .ampEnd id b n → j = i)
    (hlog : c.ampLog.find? (fun x => x.id == e.id) = some e) (hacc : e.reads = true ∨ (kind ≠ .acq ∧ e.writes = true)) :
    c.ampUntil kind = some i.lt := by
  have hname : (e.reads || (kind != .acq && e.writes)) = true := by
    rw [Bool.or_eq_true, Bool.and_eq_true, bne_iff_ne]
    exact hacc
  unfold Core.ampUntil
  generalize hl : c.a.inflight = l at hi hone
  clear hl
  induction l with
  | nil => cases hi
  | cons j l ih =>
    rw [List.findSome?_cons]
    by_cases hj : j = i
    · subst hj
      have hfind := find_and_of_find (q := fun x => x.reads || (kind != .acq && x.writes)) hlog hname
      simp only [hact, hfind, Option.map_some]
    · have hmem : i ∈ l := (List.mem_cons.1 hi).resolve_left fun h => hj h.symm
      have hrest := ih hmem fun x hx => hone x (List.mem_cons_of_mem j hx)
      split
      · next heq =>
        split at heq
        · next id b hjact => exact absurd (hone j List.mem_cons_self _ _ _ hjact) hj
        · cases heq
      · exact hrest

/-- R362: a copy that an ordering point covers does not start while the amplitude instruction it notes is in flight. -/
theorem Core.canStart_false {c : Core} {p : OrderPoint} {k : Copy} {i : Item} {id b y : Nat} (hp : p ∈ c.a.points) (hy : p.amp = some y)
    (hi : i ∈ c.a.inflight) (hact : i.act = .ampEnd id b 0) (hlt : i.lt ≤ y) (hpos : p.pos ≤ k.id)
    (hacc : k.isWrite = true ∨ (p.kind ≠ .rel ∧ k.isRead = true)) : c.canStart k = false := by
  have hcovers : p.covers k = true := by
    rw [OrderPoint.covers, Bool.and_eq_true, Bool.or_eq_true, Bool.and_eq_true, bne_iff_ne, decide_eq_true_eq]
    exact ⟨hpos, hacc⟩
  have hopen : c.ampOpen p = true := by
    rw [Core.ampOpen, hy]
    refine List.any_eq_true.2 ⟨i, hi, ?_⟩
    rw [hact, decide_eq_true hlt]
    rfl
  have hany : (c.a.points.any fun p => p.covers k && c.ampOpen p) = true :=
    List.any_eq_true.2 ⟨p, hp, by rw [hcovers, hopen]; rfl⟩
  rw [Core.canStart, hany, Bool.not_true, Bool.and_false]

/-- R301, R316: an ordering point is placed where its group is in a slot. -/
theorem Core.orderPoint_of {c : Core} {kind : FenceKind} {g : BitVec 8} {sc : BitVec 2}
    (h : sc = 1 → (c.slotOfGroup g.toNat).isSome = true) : c.orderPoint kind g sc = .ok
      { c with a := { c.a with points := c.a.points ++ [{ kind := kind, scope := sc, pos := c.nextId, amp := c.ampUntil kind }] } } := by
  have hneed : (sc != 1 || (c.slotOfGroup g.toNat).isSome) = true := by
    rw [Bool.or_eq_true, bne_iff_ne]
    exact (Decidable.em (sc = 1)).elim (fun hs => .inr (h hs)) .inl
  simp only [Core.orderPoint, Core.need_of hneed, bind, Except.bind]

/-- Settles O27. -/
theorem orderingWordResults : Obligations.OrderingWordResults := by
  unfold Obligations.OrderingWordResults
  intro s ch g sc
  refine ⟨fun k e i base => Core.ampUntil_eq, fun p k i id b y => Core.canStart_false, fun h => ⟨fun hp => ?_, fun hp => ?_, fun hp => ?_⟩,
    fun d => ?_⟩
  · exact completes_of hp (rfl : execFence ch g sc s = _) (Core.orderPoint_of h)
  · exact completes_of hp (rfl : execAcq ch g sc s = _) (Core.orderPoint_of h)
  · exact completes_of hp (rfl : execRel ch g sc s = _) (Core.orderPoint_of h)
  · refine delivers_of (rfl : execLtrd ch d sc s = _) ?_
    obtain rfl | rfl | rfl | rfl : sc = 0 ∨ sc = 1 ∨ sc = 2 ∨ sc = 3 := by revert sc; decide
    all_goals exact congrArg Except.ok (State.issuing_deliverS ..)

end Sys2Proof.Machine
end

section
/-! PROOFS. Fabric words (R343-R347). -/
namespace Sys2Proof.Machine

@[simp] theorem State.ctxOf_adding (s t : State) (qs : SMap (List Val)) (es : List Item) (lt : Nat) :
    t.ctxOf (s.adding qs es lt) = t.ctxOf s.issuing := rfl
@[simp] theorem State.adding_window (s : State) (qs : SMap (List Val)) (es : List Item) (lt n : Nat) :
    (s.adding qs es lt).window n = s.issuing.window n := rfl
@[simp] theorem State.adding_nextId (s : State) (qs : SMap (List Val)) (es : List Item) (lt : Nat) :
    (s.adding qs es lt).nextId = s.issuing.nextId := rfl
@[simp] theorem State.adding_slotOfGroup (s : State) (qs : SMap (List Val)) (es : List Item) (lt g : Nat) :
    (s.adding qs es lt).slotOfGroup g = s.issuing.slotOfGroup g := rfl
@[simp] theorem State.adding_slotGen (s : State) (qs : SMap (List Val)) (es : List Item) (lt g : Nat) :
    (s.adding qs es lt).slotGen g = s.issuing.slotGen g := rfl

/-- R271: a translation that agrees leaves the word as it was issued. -/
theorem Core.baseTranslated_agrees {c : Core} {id w : Nat} (h : ((c.window (winOf w)).crit && c.disagree.contains w) = false) :
    c.baseTranslated id w = c := by
  simp only [Core.baseTranslated, h]

theorem Core.baseTranslated_disagrees {c : Core} {id w : Nat} {k : Copy}
    (h : ((c.window (winOf w)).crit && c.disagree.contains w) = true) (hk : c.copy? id = some k) :
    c.baseTranslated id w = { c.failCopy k .uncorrectable w with disagree := c.disagree.erase w } := by
  simp only [Core.baseTranslated, h, hk]

/-- What agreed before a copy was issued agrees once it is. -/
theorem Core.issueCopy_agrees {c c' : Core} {p : Pipe} {q : Nat} {op : CopyOp} {held : Option Nat} {beats : List Beat} {timed : Option Nat}
    (h : c.issueCopy p q op held beats timed = .ok c') {w : Nat} (hw : ((c.window (winOf w)).crit && c.disagree.contains w) = false) :
    ((c'.window (winOf w)).crit && c'.disagree.contains w) = false := by
  obtain ⟨_, _, _, _, _, d, hsub, rfl⟩ := Core.issueCopy_frame h
  rw [Bool.and_eq_false_iff] at hw ⊢
  refine hw.imp_right fun hno => ?_
  rw [List.contains_eq_mem, decide_eq_false_iff_not] at hno ⊢
  exact fun hmem => hno (hsub w hmem)

/-- The extent of a plan's base that `cl.base` names, 0 where its context owns none such (R344). -/
def State.baseExtent (s : State) (c : Core) (ctl : W64) : Nat :=
  match s.plan (fld ctl 15 0) with
  | some p => if p.liveFor (s.ctxOf c) then p.extents.getD (fld ctl 22 20) 0 else 0
  | none => 0

/-- R344: `cl.base` issues its word, and its translation is made. -/
theorem clBase_of {s : State} {a b : Src} {wa ctl : W64} {qs : SMap (List Val)} {w : Nat} {c' : Core} {ch : Bool}
    (h : ReadsSS s a b wa ctl qs) (hctl : ctl.toNat < 2 ^ 23)
    (hwin : s.issuing.windowCheck wa (s.baseExtent s.issuing ctl) (fun w => w.kind == 1 && w.rd && w.wr) = .ok w)
    (hc : (s.adding qs [] s.issuing.now).issueCopy s.issuing.cPipe 0 (.clBase (fld ctl 15 0) (fld ctl 19 16) (fld ctl 22 20)
      (BitVec.ofNat 64 ((s.issuing.window (winOf w)).base + offOf w))) (some 64) [fabricBeat] none = .ok c')
    (hp : Passes (.clBase ch a b) s) : Completes (.clBase ch a b) s (c'.baseTranslated s.issuing.nextId w) := by
  refine completes_of hp (rfl : execClBase ch a b s = _) ?_
  obtain ⟨c, hx, hy⟩ := readsSS_eq h
  have hin : within ctl (ones 22 0) = true := within_of_lt (hi := 22) hctl
  unfold State.baseExtent at hwin
  cases hplan : s.plan (fld ctl 15 0) with
  | none =>
    simp only [hplan] at hwin
    simp only [hx, hy, bind, Except.bind, Core.need_of hin, hplan, State.adding_windowCheck, hwin, State.adding_cPipe,
      State.adding_window, State.adding_nextId, hc]
  | some p =>
    cases hlive : p.liveFor (s.ctxOf s.issuing) <;>
      simp only [hplan, hlive, Bool.false_eq_true, ↓reduceIte] at hwin <;>
      simp only [hx, hy, bind, Except.bind, Core.need_of hin, hplan, State.ctxOf_adding, hlive, Bool.false_eq_true, ↓reduceIte,
        State.adding_windowCheck, hwin, State.adding_cPipe, State.adding_window, State.adding_nextId, hc]

/-- Settles O28. -/
theorem fabricWordResults : Obligations.FabricWordResults := by
  unfold Obligations.FabricWordResults
  intro s ch d a b c'
  refine ⟨fun wa ctl w qs h hctl hwin hc hp => ⟨fun hdis => ?_, fun k hdis hk hwindow hdisagree => ?_⟩, fun w qs h hc hp => ?_,
    fun h sel qs hr hp => ⟨fun hsel => ?_, fun p hsel hplan hlive => ?_, fun hsel hno => ?_⟩,
    fun wide v c1 desc c2 k h1 h2 hk hdesc hslot hrank hc hp => ?_⟩
  · rw [← Core.baseTranslated_agrees (id := s.issuing.nextId) (Core.issueCopy_agrees hc hdis)]
    exact clBase_of h hctl hwin hc hp
  · rw [← hdisagree, ← Core.baseTranslated_disagrees (by rw [hwindow, hdisagree]; exact hdis) hk]
    exact clBase_of h hctl hwin hc hp
  · refine completes_of hp (rfl : execClFire ch a s = _) ?_
    simp only [readsS_eq h, bind, Except.bind, State.adding_cPipe, hc]
  · refine delivers_of (rfl : execClStat ch d a sel s = _) ?_ hp
    simp only [readsS_eq hr, bind, Except.bind, hsel, BEq.rfl, ↓reduceIte, State.adding_cPipe, State.adding_deliver, List.nil_append]
  · refine delivers_of (rfl : execClStat ch d a sel s = _) ?_ hp
    simp only [readsS_eq hr, bind, Except.bind, beq_eq_false_iff_ne.2 hsel, Bool.false_eq_true, ↓reduceIte, hplan, State.ctxOf_adding,
      hlive, State.adding_cPipe, State.adding_deliver, List.nil_append]
  · refine traps_of hp (rfl : execClStat ch d a sel s = _) ?_
    simp only [readsS_eq hr, bind, Except.bind, beq_eq_false_iff_ne.2 hsel, Bool.false_eq_true, ↓reduceIte]
    cases hplan : s.plan h.toNat with
    | none => rfl
    | some p => simp only [State.ctxOf_adding, hno p hplan, Bool.false_eq_true, ↓reduceIte, State.adding_wordTrap]
  · refine completes_of hp (rfl : execPkSnd ch a b s = _) ?_
    have hc2 := readAny_readS_eq h1 h2
    generalize c2.a.queues = qs at hc2
    subst hc2
    have hin : within desc (ones 62 0) = true := within_of_lt (hi := 62) hdesc
    simp only [h1, h2, bind, Except.bind, Core.noPoison_of hk, Core.need_of hin, State.adding_slotOfGroup, hslot,
      Core.need_of (decide_eq_true hrank), State.adding_cPipe, State.adding_slotGen, hc]

end Sys2Proof.Machine
end

section
/-! PROOFS. Amplitude words (R351-R370). -/
namespace Sys2Proof.Machine

/-! ## What the operands leave -/

@[simp] theorem State.adding_ampDesc (s : State) (qs : SMap (List Val)) (es : List Item) (lt : Nat)
    (h : s.issuing.a.sys.amp.valid = true) : (s.adding qs es lt).ampDesc = .ok s.issuing.a.sys.amp := by
  simp only [Core.ampDesc, bind, Except.bind, State.adding_sys, Core.need_of h]

/-- R366: the check of a slice in HBM passes where that of its window does. -/
theorem Core.sliceWindow_of {c : Core} {base : W64} {len w : Nat}
    (h : c.windowCheck base len (fun w => w.kind == 1 && w.rd && w.wr) = .ok w) : c.sliceWindow base len = .ok () := by
  rw [Core.sliceWindow, h]

@[simp] theorem State.adding_sliceWindow (s : State) (qs : SMap (List Val)) (es : List Item) (lt : Nat) (base : W64) (len : Nat) :
    (s.adding qs es lt).sliceWindow base len = s.issuing.sliceWindow base len := rfl
@[simp] theorem State.ampGroupOk_adding (s t : State) (qs : SMap (List Val)) (es : List Item) (lt : Nat) (d : AmpDesc) :
    t.ampGroupOk (s.adding qs es lt) d = t.ampGroupOk s.issuing d := rfl
@[simp] theorem State.ampCores_adding (s t : State) (qs : SMap (List Val)) (es : List Item) (lt : Nat) (d : AmpDesc) :
    t.ampCores (s.adding qs es lt) d = t.ampCores s.issuing d := rfl

/-- R359: the matrix of a gate is popped, and nothing else of the core changes. -/
theorem Core.popMatrix_queues : ∀ (n words : Nat) {c c' : Core} {u : List Val}, c.popMatrix n words = .ok (u, c') →
    ∃ qs, c' = { c with a := { c.a with queues := qs } } := by
  intro n
  induction n with
  | zero => 
    intro words c c' u h
    cases h
    exact ⟨_, rfl⟩
  | succ n ih =>
    intro words c c' u h
    obtain ⟨⟨v, c1⟩, hread, h⟩ := ok_of_bind h
    obtain ⟨⟨⟩, -, h⟩ := ok_of_bind h
    obtain ⟨⟨r, c2⟩, hrest, h⟩ := ok_of_bind h
    obtain ⟨qs, rfl⟩ := ih _ hrest
    cases h
    unfold Core.readQueue at hread
    split at hread <;> cases hread
    exact ⟨qs, rfl⟩

/-! ## Issue of a data instruction -/

/-- The sequence number of a data instruction (R364, R366). -/
def Core.ampNext (c : Core) (op : AmpOp) : Nat := match op with | .init _ => 0 | _ => c.a.ampSeq

/-- Its entry in the replay log, where none stands there yet. -/
def Core.ampFresh (c : Core) (op : AmpOp) (trans : List (Nat × Nat)) (lat : Nat) : AmpEntry :=
  { id := c.a.ampCount, seq := c.ampNext op, live := false, issue := c.now, done_ := c.now + lat, word := c.cx.word, op := op,
    trans := trans, tdone := 0, sent := 0, got := 0, work := none, bad := []
    finished := match op with | .map _ | .swap _ _ => trans.isEmpty | _ => false
    ended := false, result := 0, flags := 0, fault := none }

/-- Its entry, which keeps the progress of one that a rewind left behind. -/
def Core.ampEntry (c : Core) (op : AmpOp) (trans : List (Nat × Nat)) (lat : Nat) : AmpEntry :=
  match c.ampLog.find? fun e => e.id == c.a.ampCount with
  | some e => { e with issue := c.now, done_ := c.now + lat, word := c.cx.word, fault := none, ended := false }
  | none => c.ampFresh op trans lat

/-- The core once a data instruction has started (R361, R364). -/
def Core.ampStarted (c : Core) (d : AmpDesc) (op : AmpOp) (trans : List (Nat × Nat)) (dst : Option Port) (lat : Nat) : Core :=
  let x := { c with ampLog := c.ampLog.filter (fun (e : AmpEntry) => e.id != c.a.ampCount) ++ [c.ampEntry op trans lat]
                    a := { c.a with ampSeq := c.ampNext op + 1, ampCount := c.a.ampCount + 1, ampBusy := [(c.now + lat, c.cx.word)]
                                    ampSlice := if d.hbm then none else some (c.now, d.base, d.bytes) } }
  ((x.later c.cPipe (c.now + 1) none (.ampStart c.a.ampCount)).later c.cPipe (c.now + lat)
    (match dst with | some q => if Port.reserves q then some q else none | none => none)
    (.ampEnd c.a.ampCount d.base (if d.hbm then 0 else d.bytes))).retireAt (c.now + lat)

/-- R294, R352, R361, R364: what a data instruction that starts has met, and the core it leaves. -/
theorem Core.startAmp_ok {c c' : Core} {d : AmpDesc} {op : AmpOp} {trans : List (Nat × Nat)} {dst : Option Port} {lat : Nat}
    (h : c.startAmp d op trans dst lat = .ok c') :
    (c.a.ampBusy.all fun e => e.1 ≤ c.now) = true ∧ c.a.ampCount < 16 ∧
    (d.hbm = false → c.barrierClear [(c.now + lat, d.base, d.bytes)] = .ok () ∧
      c.slotCheck [(c.now + lat, d.base, d.bytes)] = .ok ()) ∧ c' = c.ampStarted d op trans dst lat := by
  unfold Core.startAmp at h
  obtain ⟨⟨⟩, hbusy, h⟩ := ok_of_bind h
  obtain ⟨⟨⟩, hcount, h⟩ := ok_of_bind h
  obtain ⟨⟨⟩, hbuf, h⟩ := ok_of_bind h
  refine ⟨Core.need_ok hbusy, of_decide_eq_true (Core.need_ok hcount), ?_⟩
  cases hh : d.hbm <;> simp only [hh, Bool.false_eq_true, ↓reduceIte] at h
  · obtain ⟨⟨⟩, hbar, h⟩ := ok_of_bind h
    obtain ⟨⟨⟩, hslot, h⟩ := ok_of_bind h
    obtain ⟨⟨⟩, hread, h⟩ := ok_of_bind h
    refine ⟨fun _ => ⟨hbar, hslot⟩, ?_⟩
    cases h
    simp only [Core.ampStarted, hh]
    cases op <;> rfl
  · obtain ⟨⟨⟩, hread, h⟩ := ok_of_bind h
    refine ⟨nofun, ?_⟩
    cases h
    simp only [Core.ampStarted, hh]
    cases op <;> rfl

/-- R364: the entry of a data instruction names it, and one that is fresh is as issued. -/
theorem Core.ampEntry_spec (c : Core) (op : AmpOp) (trans : List (Nat × Nat)) (lat : Nat) :
    (c.ampEntry op trans lat).id = c.a.ampCount ∧ (c.ampEntry op trans lat).issue = c.now ∧
    (c.ampEntry op trans lat).done_ = c.now + lat ∧
    ((∀ o ∈ c.ampLog, o.id ≠ c.a.ampCount) → c.ampEntry op trans lat = c.ampFresh op trans lat) := by
  unfold Core.ampEntry
  cases hfind : c.ampLog.find? fun e => e.id == c.a.ampCount with
  | none => exact ⟨rfl, rfl, rfl, fun _ => rfl⟩
  | some e =>
    have hid : e.id = c.a.ampCount := by simpa only [beq_iff_eq] using List.find?_some hfind
    exact ⟨hid, rfl, rfl, fun hno => absurd hid (hno e (List.mem_of_find?_eq_some hfind))⟩

/-- R244, R294, R352, R355, R361, R364: the start of a data instruction. -/
theorem Core.startAmp_effect (c c' : Core) (d : AmpDesc) (op : AmpOp) (trans : List (Nat × Nat)) (dst : Option Port)
    (lat : Nat) : c.startAmp d op trans dst lat = .ok c' →
    let seq := match op with | .init _ => 0 | _ => c.a.ampSeq
    (∀ e ∈ c.a.ampBusy, e.1 ≤ c.now) ∧ c.a.ampCount < 16 ∧ c'.a.ampSeq = seq + 1 ∧ c'.a.ampCount = c.a.ampCount + 1 ∧
    (d.hbm = false → (∀ b ∈ c.a.bars, meets d.base d.bytes b 16 = false) ∧ c.slotCheck [(c.now + lat, d.base, d.bytes)] = .ok ()) ∧
    c'.a.ampBusy = [(c.now + lat, c.cx.word)] ∧ c'.cx.retire = .at_ (c.now + lat) ∧
    (∃ e ∈ c'.ampLog, e.id = c.a.ampCount ∧ e.issue = c.now ∧ e.done_ = c.now + lat ∧
      ((∀ o ∈ c.ampLog, o.id ≠ c.a.ampCount) → e.seq = seq ∧ e.op = op ∧ e.trans = trans ∧ e.tdone = 0)) ∧
    ∃ i j, c'.a.inflight = c.a.inflight ++ [i, j] ∧ i.act = .ampStart c.a.ampCount ∧ i.lt = c.now + 1 ∧
      j.act = .ampEnd c.a.ampCount d.base (if d.hbm then 0 else d.bytes) ∧ j.lt = c.now + lat ∧ c'.spad = c.spad ∧
      c'.a.sys = c.a.sys := by
  intro h
  obtain ⟨hbusy, hcount, hbar, rfl⟩ := Core.startAmp_ok h
  obtain ⟨hid, hissue, hdone, hfresh⟩ := c.ampEntry_spec op trans lat
  refine ⟨fun e he => of_decide_eq_true (List.all_eq_true.1 hbusy e he), hcount, rfl, rfl, fun hd => ⟨fun b hb => ?_, (hbar hd).2⟩,
    rfl, rfl, ⟨c.ampEntry op trans lat, List.mem_append_right _ (List.mem_singleton_self _), hid, hissue, hdone, fun hno => ?_⟩,
    _, _, List.append_assoc _ _ _, rfl, rfl, rfl, rfl, rfl, rfl⟩
  · have hclear := Core.need_ok (hbar hd).1
    simp only [List.all_cons, List.all_nil, Bool.and_true, List.all_eq_true, Bool.not_eq_true'] at hclear
    exact hclear b hb
  · rw [hfresh hno]
    exact ⟨rfl, rfl, rfl, rfl⟩

/-- R366: the `amp.init` of a valid descriptor. -/
theorem ampInit_of {s : State} {ch : Bool} {a b : Src} {base cfg : W64} {qs : SMap (List Val)} {c' : Core} {f : AmpDesc}
    (hf : f = { AmpDesc.ofWords cfg base with valid := true }) (h : ReadsSS s a b base cfg qs)
    (hw : within cfg (ones 5 0 + ones 13 8 + ones 17 16 + ones 19 18 + ones 22 22 + ones 24 24) = true) (hl : f.limitsOk = true)
    (hwin : f.hbm = true → ∃ w, s.issuing.windowCheck base f.bytes (fun w => w.kind == 1 && w.rd && w.wr) = .ok w)
    (hspad : f.hbm = false → f.base % 256 = 0 ∧ f.base + f.bytes ≤ spadSize)
    (hg : f.solo = true ∨ s.ampGroupOk s.issuing f = true)
    (hc : (s.adding qs [] s.issuing.now).startAmp f (.init (cfg.getLsbD 24)) [] none (f.latency 0 (.init (cfg.getLsbD 24)) []) = .ok c')
    (hp : Passes (.ampInit ch a b) s) :
    Completes (.ampInit ch a b) s ((c'.later s.issuing.cPipe (s.issuing.now + 1) none
      (.sysWrite 0x100 ((cfg &&& BitVec.ofNat 64 (2 ^ 23 - 1)) ||| BitVec.ofNat 64 (2 ^ 23)))).later s.issuing.cPipe
        (s.issuing.now + 1) none (.sysWrite 0x101 base)) := by
  have hpipe : c'.cPipe = s.issuing.cPipe := by obtain ⟨-, -, -, rfl⟩ := Core.startAmp_ok hc; rfl
  have hnow : c'.now = s.issuing.now := by obtain ⟨-, -, -, rfl⟩ := Core.startAmp_ok hc; rfl
  obtain ⟨c, hx, hy⟩ := readsSS_eq h
  have hhbm : (AmpDesc.ofWords cfg base).hbm = f.hbm := by rw [hf]
  have hsolo : (AmpDesc.ofWords cfg base).solo = f.solo := by rw [hf]
  have hbase : (AmpDesc.ofWords cfg base).base = f.base := by rw [hf]
  have hgroup : (f.solo || s.ampGroupOk s.issuing f) = true := by rw [Bool.or_eq_true]; exact hg
  refine completes_of hp (rfl : execAmpInit ch a b s = _) ?_
  simp only [hx, hy, bind, Except.bind, ← hf]
  simp only [hhbm, hsolo, hbase, hw, hl, Bool.and_self, Core.need_of, fld_one_bit_eq, State.ampGroupOk_adding, hgroup, hc,
    State.adding_sliceWindow]
  cases hh : f.hbm
  · obtain ⟨hal, hfit⟩ := hspad hh
    have hin : (f.base % 256 == 0 && decide (f.base + f.bytes ≤ spadSize)) = true := by
      rw [Bool.and_eq_true, beq_iff_eq, decide_eq_true_eq]
      exact ⟨hal, hfit⟩
    simp only [Bool.false_eq_true, ↓reduceIte, hin, Core.need_of, hpipe, hnow]
    rfl
  · obtain ⟨w, hwin⟩ := hwin hh
    simp only [↓reduceIte, Core.sliceWindow_of hwin, hpipe, hnow]
    rfl

/-- A field of one bit is 0 exactly when the bit is clear. -/
theorem fld_one_bit_eq_zero (v : W64) (n : Nat) : fld v n n = 0 ↔ v.getLsbD n = false := by
  have hbit := fld_one_bit_eq v n
  have hlt : fld v n n < 2 := by
    rw [fld, bitsOf, Nat.add_sub_cancel_left]
    exact Nat.mod_lt _ (by decide)
  cases hv : v.getLsbD n <;> rw [hv] at hbit <;> simp at hbit ⊢ <;> omega

section
variable {s : State} {ch : Bool} {a b : Src} {qs : SMap (List Val)} {c1 c' : Core} {d : Port} {e : AmpDesc}
  (he : e = s.issuing.a.sys.amp) (hv : e.valid = true)
include he hv

/-- R368: `amp.map` starts a relabelling, or the transpositions that reach it. -/
theorem ampMap_of {v : Val} {ctl : W64} (h : ReadsVS s a b v ctl qs) (hk : v.anyKind.poisoned = false) (hm : mapOk v e.n = true)
    (hctl : ctl.toNat < 2) (hp : Passes (.ampMap ch a b) s)
    (hc : (if ctl == 0 then (s.adding qs [] s.issuing.now).startAmp e (.map ((upto e.n).map fun q => (q, v.elem 8 q))) [] none 1
      else (s.adding qs [] s.issuing.now).startAmp e (.map []) (mapTrans (fun q => v.elem 8 q) (upto e.n) s.issuing.a.sys) none
        (e.latency (s.ampCores s.issuing e) (.map []) (mapTrans (fun q => v.elem 8 q) (upto e.n) s.issuing.a.sys))) = .ok c') :
    Completes (.ampMap ch a b) s c' := by
  subst he
  obtain ⟨c, hx, hy⟩ := readsVS_eq h
  have hneed : (within ctl 1 && mapOk v s.issuing.a.sys.amp.n) = true := by
    rw [show within ctl 1 = true from within_of_lt (hi := 0) hctl, hm]; rfl
  refine completes_of hp (rfl : execAmpMap ch a b s = _) ?_
  simp only [hx, hy, bind, Except.bind, State.adding_ampDesc s qs [] s.issuing.now hv, Core.noPoison_of hk, Core.need_of hneed, State.adding_sys, State.ampCores_adding, hc]

/-- R368: `amp.swap` relabels two qubits, or exchanges their positions. -/
theorem ampSwap_of {ctl : W64} (h : ReadsS s a ctl qs) (hw : within ctl (ones 5 0 + ones 13 8 + ones 16 16) = true)
    (ha : fld ctl 5 0 < e.n) (hb : fld ctl 13 8 < e.n) (hp : Passes (.ampSwap ch a) s)
    (hc : let trans := if fld ctl 5 0 = fld ctl 13 8 then []
            else [(s.issuing.a.sys.qpos (fld ctl 5 0), s.issuing.a.sys.qpos (fld ctl 13 8))]
      (if ctl.getLsbD 16 then (s.adding qs [] s.issuing.now).startAmp e (.swap (fld ctl 5 0) (fld ctl 13 8)) trans none
          (e.latency (s.ampCores s.issuing e) (.swap (fld ctl 5 0) (fld ctl 13 8)) trans)
        else (s.adding qs [] s.issuing.now).startAmp e (.swap (fld ctl 5 0) (fld ctl 13 8)) [] none 1) = .ok c') :
    Completes (.ampSwap ch a) s c' := by
  subst he
  have hneed : (within ctl (ones 5 0 + ones 13 8 + ones 16 16) && decide (fld ctl 5 0 < s.issuing.a.sys.amp.n) &&
      decide (fld ctl 13 8 < s.issuing.a.sys.amp.n)) = true := by simp only [hw, ha, hb, decide_true, Bool.and_self]
  refine completes_of hp (rfl : execAmpSwap ch a s = _) ?_
  simp only [readsS_eq h, bind, Except.bind, State.adding_ampDesc s qs [] s.issuing.now hv, Core.need_of hneed, State.adding_sys, State.ampCores_adding, beq_iff_eq]
  cases hmove : ctl.getLsbD 16 <;> simp only [hmove, Bool.false_eq_true, ↓reduceIte] at hc
  · rw [if_pos ((fld_one_bit_eq_zero ctl 16).2 hmove), hc]
  · rw [if_neg (by rw [fld_one_bit_eq_zero, hmove]; exact Bool.noConfusion), hc]

/-- R354, R359, R369: `amp.gate` pops its matrix and starts with the transpositions of its remote targets. -/
theorem ampGate_of {ctl cm : W64} {ts : List Nat} {u : List Val} {trans : List (Nat × Nat)} (h : ReadsSS s a b ctl cm qs)
    (ht : gateTargets e ctl cm = some ts)
    (hu : (s.adding qs [] s.issuing.now).popMatrix (ceilDiv (4 ^ ts.length * e.es * 8) 2048) (4 ^ ts.length * e.es / 4) = .ok (u, c1))
    (hr : (ts.any fun t => e.no ≤ s.issuing.a.sys.qpos t) = false ∨ s.issuing.a.sys.ampmode = false)
    (hm : remap e.no e.n (fun q => ts.contains q || cm.getLsbD q) ts s.issuing.a.sys = some trans)
    (hc : c1.startAmp e (.gate ts cm u) trans none (e.latency (s.ampCores s.issuing e) (.gate ts cm u) trans) = .ok c')
    (hp : Passes (.ampGate ch a b) s) : Completes (.ampGate ch a b) s c' := by
  subst he
  obtain ⟨c, hx, hy⟩ := readsSS_eq h
  have hsys : c1.a.sys = s.issuing.a.sys := by obtain ⟨_, rfl⟩ := Core.popMatrix_queues _ _ hu; rfl
  have hcores : s.ampCores c1 = s.ampCores s.issuing := by obtain ⟨_, rfl⟩ := Core.popMatrix_queues _ _ hu; rfl
  have hneed : (!((ts.any fun t => s.issuing.a.sys.amp.no ≤ s.issuing.a.sys.qpos t) && s.issuing.a.sys.ampmode)) = true := by
    rw [Bool.not_eq_true', Bool.and_eq_false_iff]; exact hr
  refine completes_of hp (rfl : execAmpGate ch a b s = _) ?_
  simp only [hx, hy, bind, Except.bind, State.adding_ampDesc s qs [] s.issuing.now hv, ht, hu, hsys, ↓Core.need_of hneed, hm, hcores, hc]

/-- R357, R359, R369: `amp.diag` pops its diagonal and starts. -/
theorem ampDiag_of {ctl cm : W64} {ts : List Nat} {u : List Val} (h : ReadsSS s a b ctl cm qs)
    (ht : gateTargets e ctl cm = some ts)
    (hu : (s.adding qs [] s.issuing.now).popMatrix (ceilDiv (2 ^ ts.length * e.es * 8) 2048) (2 ^ ts.length * e.es / 4) = .ok (u, c1))
    (hc : c1.startAmp e (.diag ts cm u) [] none (e.latency 0 (.diag ts cm u) []) = .ok c')
    (hp : Passes (.ampDiag ch a b) s) : Completes (.ampDiag ch a b) s c' := by
  subst he
  obtain ⟨c, hx, hy⟩ := readsSS_eq h
  refine completes_of hp (rfl : execAmpDiag ch a b s = _) ?_
  simp only [hx, hy, bind, Except.bind, State.adding_ampDesc s qs [] s.issuing.now hv, ht, hu, hc]

/-- R370: `amp.norm` with SCALE = 0. -/
theorem ampNorm_of_plain (h : ReadsS s a 0 qs)
    (hc : (s.adding qs [] s.issuing.now).startAmp e (.norm none d) [] (some d) (e.latency 0 (.norm none d) []) = .ok c')
    (hp : Passes (.ampNorm ch d a b) s) : Completes (.ampNorm ch d a b) s c' := by
  subst he
  refine completes_of hp (rfl : execAmpNorm ch d a b s = _) ?_
  simp only [readsS_eq h, bind, Except.bind, show (0 : W64).getLsbD 0 = false by decide, Bool.false_eq_true, ↓reduceIte,
    State.adding_ampDesc s qs [] s.issuing.now hv, Core.need_of (show within 0 1 = true by decide), hc]

/-- R370: `amp.norm` with SCALE = 1. -/
theorem ampNorm_of_scaled {f : W64} (h : ReadsSS s a b 1 f qs)
    (hc : (s.adding qs [] s.issuing.now).startAmp e (.norm (some f) d) [] (some d) (e.latency 0 (.norm (some f) d) []) = .ok c')
    (hp : Passes (.ampNorm ch d a b) s) : Completes (.ampNorm ch d a b) s c' := by
  subst he
  obtain ⟨c, hx, hy⟩ := readsSS_eq h
  refine completes_of hp (rfl : execAmpNorm ch d a b s = _) ?_
  simp only [hx, hy, bind, Except.bind, show (1 : W64).getLsbD 0 = true by decide, ↓reduceIte, Except.map,
    State.adding_ampDesc s qs [] s.issuing.now hv, Core.need_of (show within 1 1 = true by decide), hc]

/-- R370: `amp.prob`. -/
theorem ampProb_of {ctl : W64} (h : ReadsS s a ctl qs) (hw : within ctl (ones 5 0 + ones 9 8) = true) (hq : fld ctl 5 0 < e.n)
    (hc : let op := AmpOp.prob (fld ctl 5 0) (if ctl.getLsbD 8 then some (ctl.getLsbD 9) else none) d
      (s.adding qs [] s.issuing.now).startAmp e op [] (some d) (e.latency 0 op []) = .ok c')
    (hp : Passes (.ampProb ch d a) s) : Completes (.ampProb ch d a) s c' := by
  subst he
  refine completes_of hp (rfl : execAmpProb ch d a s = _) ?_
  have hneed : (within ctl (ones 5 0 + ones 9 8) && decide (fld ctl 5 0 < s.issuing.a.sys.amp.n)) = true := by
    simp only [hw, hq, decide_true, Bool.and_self]
  simp only [readsS_eq h, bind, Except.bind, State.adding_ampDesc s qs [] s.issuing.now hv, Core.need_of hneed, fld_one_bit_eq, hc]

end

/-- Settles O29: each word passes its checks and starts its data instruction, whose start is one lemma. -/
theorem amplitudeWordResults : Obligations.AmplitudeWordResults := by
  unfold Obligations.AmplitudeWordResults
  refine ⟨fun s ch d a b c' => ⟨fun base cfg qs h hw hl hwin hspad hg hc hp => ampInit_of rfl h hw hl hwin hspad hg hc hp,
    fun n hp => delivers_of (rfl : execAmpCtl ch d n s = _) ?_ hp, fun hv => ⟨fun v ctl qs h hk hm hp => ⟨fun h0 hc => ?_, fun h1 hc => ?_⟩,
      fun ctl qs h hw ha hb hp => ⟨fun hmove hc => ?_, fun hmove hc => ?_⟩, fun ctl cm qs ts u c1 h ht => ⟨fun trans hu hr hm hc hp => ?_, fun hu hc hp => ?_⟩,
      fun ctl qs h h0 hc hp => ?_, fun ctl f qs h h1 hc hp => ?_, fun ctl qs h hw hq hc hp => ?_⟩⟩, Core.startAmp_effect⟩
  · conv => lhs; rw [State.issuing_eq_adding s]
    simp only [State.adding_cPipe, State.adding_now, State.adding_later, State.adding_deliver, List.nil_append, State.adding_sys]
    rfl
  · subst h0
    exact ampMap_of rfl hv h hk hm (by decide) hp hc
  · subst h1
    exact ampMap_of rfl hv h hk hm (by decide) hp hc
  · exact ampSwap_of rfl hv h hw ha hb hp (by simpa only [hmove, Bool.false_eq_true, ↓reduceIte] using hc)
  · exact ampSwap_of rfl hv h hw ha hb hp (by simpa only [hmove, ↓reduceIte] using hc)
  · exact ampGate_of rfl hv h ht hu hr hm hc hp
  · exact ampDiag_of rfl hv h ht hu hc hp
  · subst h0
    exact ampNorm_of_plain rfl hv h hc hp
  · subst h1
    exact ampNorm_of_scaled rfl hv h hc hp
  · exact ampProb_of rfl hv h hw hq hc hp

end Sys2Proof.Machine
end

section
/-! PROOFS. Sequence words (R371-R385). -/
namespace Sys2Proof.Machine

/-! ## Loading tables and seeds (R381-R383) -/

/-- What no step of a fold changes stands after it. -/
theorem foldl_read_other {σ α β : Type} {step : σ → α → σ} {r : σ → β} {xs : List α} (h : ∀ q, ∀ x ∈ xs, r (step q x) = r q) (q : σ) :
    r (xs.foldl step q) = r q := by
  induction xs generalizing q with
  | nil => rfl
  | cons x xs ih => 
    rw [List.foldl_cons, ih fun q y hy => h q y (List.mem_cons_of_mem x hy), h q x List.mem_cons_self]

/-- What one step of a fold alone writes is as that step leaves it. -/
theorem foldl_read_same {σ α β : Type} {step : σ → α → σ} {r : σ → β} {xs : List α} {a : α} {v : β} (ha : a ∈ xs)
    (hother : ∀ q, ∀ x ∈ xs, x ≠ a → r (step q x) = r q) (hsame : ∀ q, r (step q a) = v) (q : σ) : r (xs.foldl step q) = v := by
  induction xs generalizing q with
  | nil => exact absurd ha List.not_mem_nil
  | cons x xs ih =>
    rw [List.foldl_cons]
    by_cases hrest : a ∈ xs
    · exact ih hrest (fun q y hy => hother q y (List.mem_cons_of_mem x hy)) _
    · obtain rfl : a = x := (List.mem_cons.1 ha).resolve_right hrest
      rw [foldl_read_other (fun q y hy => hother q y (List.mem_cons_of_mem _ hy) fun h => hrest (h ▸ hy)), hsame]

theorem SeqUnit.mem_mark (q : SeqUnit) (key : Nat) (bad : Bool) (k : Nat) :
    (q.mark key bad).bad.contains k = if k = key then bad else q.bad.contains k := by
  by_cases hk : k = key <;> cases bad <;> simp [SeqUnit.mark, hk]

theorem SeqUnit.loadDim_eq (q : SeqUnit) (dim lo : Nat) (v : Val) : ∃ v' bad, q.loadDim dim lo v =
    { q with v := v', bad := bad, loaded := if q.loaded.contains dim then q.loaded else dim :: q.loaded } := by
  have hfold := foldl_read_other (xs := upto 32) (r := fun q : SeqUnit => (q.loaded, q.mode, q.seed)) (step := fun q b =>
    ({ q with v := SMap.set 0 q.v (dirKey dim b) (BitVec.ofNat 32 (v.elem 32 (lo + b))) }).mark (dirKey dim b)
      (v.kind (lo + b)).poisoned) (fun _ _ _ => rfl) q
  unfold SeqUnit.loadDim
  generalize (upto 32).foldl _ q = r at hfold
  obtain ⟨hl, hm, hs⟩ : r.loaded = q.loaded ∧ r.mode = q.mode ∧ r.seed = q.seed := by simpa using hfold
  refine ⟨r.v, r.bad, ?_⟩
  rw [← hl, ← hm, ← hs]

/-- R382: a direction number of the dimension loaded, and whether its word is uncorrectable. -/
theorem SeqUnit.loadDim_same (q : SeqUnit) (dim lo : Nat) (v : Val) {k : Nat} (hk : k < 32) :
    SMap.get 0 (q.loadDim dim lo v).v (dirKey dim k) = BitVec.ofNat 32 (v.elem 32 (lo + k)) ∧
    (q.loadDim dim lo v).bad.contains (dirKey dim k) = (v.kind (lo + k)).poisoned := by
  have hne : ∀ x, x ≠ k → dirKey dim k ≠ dirKey dim x := by intro x; unfold dirKey; omega
  constructor
  · exact foldl_read_same (r := fun q : SeqUnit => SMap.get 0 q.v (dirKey dim k)) ((mem_upto 32 k).2 hk)
      (fun q x _ hx => SMap.get_set_other _ _ _ (hne x hx)) (fun q => SMap.get_set_same _ _ _ _) q
  · exact foldl_read_same (r := fun q : SeqUnit => q.bad.contains (dirKey dim k)) ((mem_upto 32 k).2 hk)
      (fun q x _ hx => by rw [SeqUnit.mem_mark, if_neg (hne x hx)]) (fun q => by rw [SeqUnit.mem_mark, if_pos rfl]) q

/-- R382: every other dimension keeps its direction numbers. -/
theorem SeqUnit.loadDim_other (q : SeqUnit) (dim lo : Nat) (v : Val) {d k : Nat} (hk : k < 32) (hd : d ≠ dim) :
    SMap.get 0 (q.loadDim dim lo v).v (dirKey d k) = SMap.get 0 q.v (dirKey d k) ∧
    (q.loadDim dim lo v).bad.contains (dirKey d k) = q.bad.contains (dirKey d k) := by
  have hne : ∀ x ∈ upto 32, dirKey d k ≠ dirKey dim x := by
    intro x hx
    have := (mem_upto 32 x).1 hx
    unfold dirKey
    omega
  constructor
  · exact foldl_read_other (r := fun q : SeqUnit => SMap.get 0 q.v (dirKey d k))
      (fun q x hx => SMap.get_set_other _ _ _ (hne x hx)) q
  · exact foldl_read_other (r := fun q : SeqUnit => q.bad.contains (dirKey d k))
      (fun q x hx => by rw [SeqUnit.mem_mark, if_neg (hne x hx)]) q

theorem SeqUnit.mem_loadDim (q : SeqUnit) (dim lo : Nat) (v : Val) (d : Nat) :
    d ∈ (q.loadDim dim lo v).loaded ↔ d ∈ q.loaded ∨ d = dim := by
  obtain ⟨_, _, h⟩ := q.loadDim_eq dim lo v
  rw [h]
  by_cases hc : q.loaded.contains dim = true
  · have hin : dim ∈ q.loaded := by simpa using hc
    simp only [hc, ↓reduceIte]
    exact ⟨.inl, fun h => h.elim id fun h => h ▸ hin⟩
  · simp only [hc, Bool.false_eq_true, ↓reduceIte, List.mem_cons, or_comm]

/-- R382: `qr.tab` at its LT. -/
theorem SeqUnit.load_effect (q : SeqUnit) (dim : Nat) (two : Bool) (v : Val) :
    (q.load dim two v).mode = q.mode ∧ (q.load dim two v).seed = q.seed ∧
    (∀ d k, k < 32 →
      let lane := if d = dim then some k else if two = true ∧ d = dim + 1 then some (32 + k) else none
      (∀ l, lane = some l → SMap.get 0 (q.load dim two v).v (dirKey d k) = BitVec.ofNat 32 (v.elem 32 l) ∧
        (dirKey d k ∈ (q.load dim two v).bad ↔ (v.kind l).poisoned = true)) ∧
      (lane = none → SMap.get 0 (q.load dim two v).v (dirKey d k) = SMap.get 0 q.v (dirKey d k))) ∧
    ∀ d, d ∈ (q.load dim two v).loaded ↔ d ∈ q.loaded ∨ d = dim ∨ (two = true ∧ d = dim + 1) := by
  have hmode : ∀ (q : SeqUnit) (dim lo : Nat), (q.loadDim dim lo v).mode = q.mode ∧ (q.loadDim dim lo v).seed = q.seed := by
    intro q dim lo
    obtain ⟨_, _, h⟩ := q.loadDim_eq dim lo v
    rw [h]
    exact ⟨rfl, rfl⟩
  cases two with
  | false =>
    refine ⟨(hmode q dim 0).1, (hmode q dim 0).2, fun d k hk => ?_, fun d => ?_⟩
    · by_cases hd : d = dim
      · subst hd
        obtain ⟨hv, hb⟩ := q.loadDim_same d 0 v hk
        rw [Nat.zero_add] at hv hb
        simp only [↓reduceIte, Option.some.injEq, forall_eq', ← List.elem_iff]
        exact ⟨⟨hv, by rw [← hb]; rfl⟩, nofun⟩
      · simp only [hd, ↓reduceIte, Bool.false_eq_true, false_and]
        exact ⟨nofun, fun _ => (q.loadDim_other dim 0 v hk hd).1⟩
    · simp only [Bool.false_eq_true, false_and, or_false]
      exact q.mem_loadDim dim 0 v d
  | true =>
    have hload : q.load dim true v = (q.loadDim dim 0 v).loadDim (dim + 1) 32 v := rfl
    rw [hload]
    refine ⟨(hmode _ _ _).1.trans (hmode _ _ _).1, (hmode _ _ _).2.trans (hmode _ _ _).2, fun d k hk => ?_, fun d => ?_⟩
    · by_cases hd : d = dim
      · subst hd
        obtain ⟨hv, hb⟩ := q.loadDim_same d 0 v hk
        obtain ⟨hv', hb'⟩ := (q.loadDim d 0 v).loadDim_other (d + 1) 32 v hk (show d ≠ d + 1 by omega)
        rw [Nat.zero_add] at hv hb
        simp only [↓reduceIte, Option.some.injEq, forall_eq', ← List.elem_iff]
        exact ⟨⟨hv'.trans hv, by rw [← hb, ← hb']⟩, nofun⟩
      · by_cases hd' : d = dim + 1
        · subst hd'
          obtain ⟨hv, hb⟩ := (q.loadDim dim 0 v).loadDim_same (dim + 1) 32 v hk
          simp only [hd, ↓reduceIte, true_and, Option.some.injEq, forall_eq', ← List.elem_iff]
          exact ⟨⟨hv, by rw [← hb]⟩, nofun⟩
        · simp only [hd, hd', ↓reduceIte, and_false]
          exact ⟨nofun, fun _ => ((SeqUnit.loadDim_other _ _ _ _ hk hd').1).trans (q.loadDim_other dim 0 v hk hd).1⟩
    · simp only [true_and, SeqUnit.mem_loadDim, or_assoc]

/-- R383: `qr.seed` at its LT. -/
theorem SeqUnit.loadSeeds_effect (q : SeqUnit) (dim mode n : Nat) (v : Val) :
    (q.loadSeeds dim mode n v).v = q.v ∧ (q.loadSeeds dim mode n v).loaded = q.loaded ∧
    ∀ d, (dim ≤ d → d < dim + n →
        SMap.get 0 (q.loadSeeds dim mode n v).mode d = mode ∧
        SMap.get 0 (q.loadSeeds dim mode n v).seed d = BitVec.ofNat 32 (v.elem 32 (d - dim)) ∧
        (seedKey d ∈ (q.loadSeeds dim mode n v).bad ↔ (v.kind (d - dim)).poisoned = true)) ∧
      ((d < dim ∨ dim + n ≤ d) → SMap.get 0 (q.loadSeeds dim mode n v).mode d = SMap.get 0 q.mode d ∧
        SMap.get 0 (q.loadSeeds dim mode n v).seed d = SMap.get 0 q.seed d) := by
  refine ⟨?_, ?_, fun d => ⟨fun hlo hhi => ?_, fun hout => ?_⟩⟩
  · unfold SeqUnit.loadSeeds
    refine foldl_read_other (r := SeqUnit.v) ?_ q
    exact fun _ _ _ => rfl
  · unfold SeqUnit.loadSeeds
    refine foldl_read_other (r := SeqUnit.loaded) ?_ q
    exact fun _ _ _ => rfl
  · obtain ⟨j, rfl⟩ := Nat.exists_eq_add_of_le hlo
    have hj : j ∈ upto n := (mem_upto n j).2 (by omega)
    have hne : ∀ x, x ≠ j → dim + j ≠ dim + x := by omega
    rw [Nat.add_sub_cancel_left, ← List.elem_iff, Bool.coe_iff_coe]
    exact ⟨foldl_read_same (r := fun q : SeqUnit => SMap.get 0 q.mode (dim + j)) hj
        (fun q x _ hx => SMap.get_set_other _ _ _ (hne x hx)) (fun q => SMap.get_set_same _ _ _ _) q,
      foldl_read_same (r := fun q : SeqUnit => SMap.get 0 q.seed (dim + j)) hj
        (fun q x _ hx => SMap.get_set_other _ _ _ (hne x hx)) (fun q => SMap.get_set_same _ _ _ _) q,
      foldl_read_same (r := fun q : SeqUnit => q.bad.contains (seedKey (dim + j))) hj
        (fun q x _ hx => by rw [SeqUnit.mem_mark, if_neg (by unfold seedKey; omega)])
        (fun q => by rw [SeqUnit.mem_mark, if_pos rfl]) q⟩
  · have hne : ∀ x ∈ upto n, d ≠ dim + x := by
      intro x hx
      have := (mem_upto n x).1 hx
      omega
    exact ⟨foldl_read_other (r := fun q : SeqUnit => SMap.get 0 q.mode d) (fun q x hx => SMap.get_set_other _ _ _ (hne x hx)) q,
      foldl_read_other (r := fun q : SeqUnit => SMap.get 0 q.seed d) (fun q x hx => SMap.get_set_other _ _ _ (hne x hx)) q⟩

/-! ## Words -/

/-- R378: a direction-number word that the point of an index reads is uncorrectable. -/
theorem SeqUnit.badWord_isSome (q : SeqUnit) (i d : Nat) :
    (q.badWord i d).isSome = true ↔ ∃ k < 32, (i ^^^ (i >>> 1)).testBit k = true ∧ dirKey d k ∈ q.bad := by
  simp only [SeqUnit.badWord, List.find?_isSome, mem_upto, bit, Bool.and_eq_true, List.contains_eq_mem, decide_eq_true_eq]

/-- R378: an uncorrectable word was met by a lane. -/
def SeqUnit.spoilt (q : SeqUnit) (l : Nat × Nat) : Prop :=
  seedKey l.2 ∈ q.bad ∨ ∃ k < 32, (l.1 ^^^ (l.1 >>> 1)).testBit k = true ∧ dirKey l.2 k ∈ q.bad

/-- R378: the lanes of one dimension. -/
def lanesOf (lanes : List (Nat × Nat)) (m : Nat) : List Nat := (lanes.filter fun l => l.2 == m).map Prod.fst

/-- The dimensions of the lanes, each once, in the order of the lanes. -/
def dimsOf (lanes : List (Nat × Nat)) : List Nat :=
  lanes.foldl (fun ds e => if ds.contains e.2 then ds else ds ++ [e.2]) []

theorem mem_foldl_dims (lanes : List (Nat × Nat)) (ds : List Nat) (m : Nat) :
    m ∈ lanes.foldl (fun (ds : List Nat) e => if ds.contains e.2 then ds else ds ++ [e.2]) ds ↔ m ∈ ds ∨ ∃ l ∈ lanes, l.2 = m := by
  induction lanes generalizing ds with
  | nil => simp
  | cons l rest ih =>
    rw [List.foldl_cons, ih]
    by_cases hc : ds.contains l.2 = true
    · have hin : l.2 ∈ ds := by simpa using hc
      simp only [hc, ↓reduceIte, List.mem_cons, exists_eq_or_imp]
      exact ⟨fun h => h.imp_right .inr, fun h => h.elim .inl fun h => h.elim (fun h => .inl (h ▸ hin)) .inr⟩
    · simp only [hc, Bool.false_eq_true, ↓reduceIte, List.mem_append, List.not_mem_nil, false_or, List.mem_cons, exists_eq_or_imp, or_assoc,
      @eq_comm _ m l.2]

theorem mem_dimsOf (lanes : List (Nat × Nat)) (m : Nat) : m ∈ dimsOf lanes ↔ ∃ l ∈ lanes, l.2 = m := by
  rw [dimsOf, mem_foldl_dims]
  simp

/-- The dimensions of lanes in ascending order stand in ascending order. -/
theorem dimsOf_sorted {lanes : List (Nat × Nat)} (h : lanes.Pairwise fun a b => a.2 ≤ b.2) : (dimsOf lanes).Pairwise (· < ·) := by
  suffices hgen : ∀ (lanes : List (Nat × Nat)) (ds : List Nat), lanes.Pairwise (fun a b => a.2 ≤ b.2) → ds.Pairwise (· < ·) →
      (∀ m ∈ ds, ∀ l ∈ lanes, m ≤ l.2) →
      (lanes.foldl (fun (ds : List Nat) e => if ds.contains e.2 then ds else ds ++ [e.2]) ds).Pairwise (· < ·) from
    hgen lanes [] h .nil nofun
  clear h lanes
  intro lanes
  induction lanes with
  | nil => exact fun _ _ h _ => h
  | cons l rest ih =>
    intro ds hl hds hle
    obtain ⟨hfirst, hrest⟩ := List.pairwise_cons.1 hl
    rw [List.foldl_cons]
    by_cases hc : ds.contains l.2 = true
    · rw [if_pos hc]
      exact ih ds hrest hds fun m hm x hx => hle m hm x (List.mem_cons_of_mem _ hx)
    · rw [if_neg hc]
      have hnew : l.2 ∉ ds := by simpa using hc
      refine ih _ hrest (List.pairwise_append.2 ⟨hds, List.pairwise_singleton _ _, fun m hm x hx => ?_⟩) fun m hm x hx => ?_
      · obtain rfl := List.mem_singleton.1 hx
        exact Nat.lt_of_le_of_ne (hle m hm l List.mem_cons_self) fun h => hnew (h ▸ hm)
      · obtain hm | hm := List.mem_append.1 hm
        · exact hle m hm x (List.mem_cons_of_mem _ hx)
        · obtain rfl := List.mem_singleton.1 hm
          exact hfirst x hx

/-- In an ascending list the first entry with a value is the lowest one that has one. -/
theorem findSome_of_lowest {β : Type} {f : Nat → Option β} {v : β} {m : Nat} {ms : List Nat} (hs : ms.Pairwise (· < ·)) (hm : m ∈ ms)
    (hv : f m = some v) (hlow : ∀ k ∈ ms, k < m → f k = none) : ms.findSome? f = some v := by
  induction ms with
  | nil => exact absurd hm List.not_mem_nil
  | cons k rest ih =>
    obtain ⟨hfirst, hrest⟩ := List.pairwise_cons.1 hs
    obtain rfl | hm := List.mem_cons.1 hm
    · rw [List.findSome?_cons, hv]
    · rw [List.findSome?_cons, hlow k List.mem_cons_self (hfirst m hm)]
      exact ih hrest hm fun x hx => hlow x (List.mem_cons_of_mem _ hx)

theorem seqLanes_sorted (base off dim nl : Nat) (mode : Bool) : (seqLanes base off dim nl mode).Pairwise fun a b => a.2 ≤ b.2 := by
  have hup : (upto nl).Pairwise (· ≤ ·) := by
    suffices h : ∀ n lo, (rangeFrom lo n).Pairwise (· ≤ ·) from h nl 0
    intro n
    induction n with
    | zero => exact fun _ => .nil
    | succ n ih => exact fun lo => List.pairwise_cons.2 ⟨fun x hx => by have := (mem_rangeFrom n (lo + 1) x).1 hx; omega, ih _⟩
  unfold seqLanes
  refine List.pairwise_map.2 (hup.imp fun {a b} hab => ?_)
  cases mode
  · exact Nat.le_refl _
  · exact Nat.add_le_add_left hab dim

/-- R378: the lanes of dimensions that are loaded and that met no uncorrectable word raise nothing. -/
theorem SeqUnit.trap_none {q : SeqUnit} {lanes : List (Nat × Nat)} (h : ∀ l ∈ lanes, l.2 ∈ q.loaded ∧ ¬q.spoilt l) :
    q.trap? lanes = none := by
  have hcause : ∀ m ∈ dimsOf lanes, q.cause (lanesOf lanes m) m = none := by
    intro m hm
    obtain ⟨l, hl, rfl⟩ := (mem_dimsOf lanes m).1 hm
    have hseed : seedKey l.2 ∉ q.bad := fun hs => (h l hl).2 (.inl hs)
    have hwords : (lanesOf lanes l.2).filterMap (fun i => q.badWord i l.2) = [] := by
      rw [List.filterMap_eq_nil_iff]
      intro i hi
      obtain ⟨x, hx, rfl⟩ := List.mem_map.1 hi
      obtain ⟨hx, hdim⟩ := List.mem_filter.1 hx
      rw [← Option.not_isSome_iff_eq_none, q.badWord_isSome, ← beq_iff_eq.1 hdim]
      exact fun hw => (h x hx).2 (.inr hw)
    simp only [SeqUnit.cause, List.contains_eq_mem, (h l hl).1, hseed, decide_true, decide_false, Bool.not_true, Bool.false_eq_true,
      ↓reduceIte, hwords, List.min?_nil, Option.map_none]
  have hfind : (dimsOf lanes).findSome? (fun m => q.cause (lanesOf lanes m) m) = none := List.findSome?_eq_none_iff.2 hcause
  change ((dimsOf lanes).findSome? (fun m => q.cause (lanesOf lanes m) m)).map _ = none
  rw [hfind]
  rfl

/-- R378: the trap of the lowest dimension with a cause names it, and the dimensions in which a lane met an uncorrectable word. -/
theorem SeqUnit.trap_some {q : SeqUnit} {lanes : List (Nat × Nat)} {l : Nat × Nat} {f : Nat}
    (hs : lanes.Pairwise fun a b => a.2 ≤ b.2) (hl : l ∈ lanes) (hc : q.cause (lanesOf lanes l.2) l.2 = some f)
    (hlow : ∀ m ∈ lanes, m.2 < l.2 → q.cause (lanesOf lanes m.2) m.2 = none) :
    ∃ x : Trap, q.trap? lanes = some x ∧ x.code = .seqTable ∧ x.addr = BitVec.ofNat 64 f ∧
      ∀ m, m ∈ x.dims ↔ ∃ l ∈ lanes, l.2 = m ∧ q.spoilt l := by
  have hfind : (dimsOf lanes).findSome? (fun m => q.cause (lanesOf lanes m) m) = some f := by
    refine findSome_of_lowest (dimsOf_sorted hs) ((mem_dimsOf lanes l.2).2 ⟨l, hl, rfl⟩) hc fun k hk hlt => ?_
    obtain ⟨x, hx, rfl⟩ := (mem_dimsOf lanes k).1 hk
    exact hlow x hx hlt
  refine ⟨{ Trap.at_ .seqTable f with
      dims := (lanes.filter fun (i, d) => q.bad.contains (seedKey d) || (q.badWord i d).isSome).map Prod.snd }, ?_, rfl, rfl, fun m => ?_⟩
  · change ((dimsOf lanes).findSome? (fun m => q.cause (lanesOf lanes m) m)).map _ = _
    rw [hfind]
    rfl
  · simp only [List.mem_map, List.mem_filter, Bool.or_eq_true, List.contains_eq_mem, decide_eq_true_eq, q.badWord_isSome, SeqUnit.spoilt]
    exact ⟨fun ⟨x, ⟨hx, hsp⟩, hm⟩ => ⟨x, hx, hm, hsp⟩, fun ⟨x, hx, hm, hsp⟩ => ⟨x, ⟨hx, hsp⟩, hm⟩⟩

@[simp] theorem State.adding_seq (s : State) (qs : SMap (List Val)) (es : List Item) (lt : Nat) :
    (s.adding qs es lt).seq = s.issuing.seq := rfl

theorem lanes_inRange {lanes : List (Nat × Nat)} (hin : ∀ l ∈ lanes, l.1 < 2 ^ 32 ∧ l.2 < 1024) :
    (lanes.all fun (i, m) => i < 2 ^ 32 && m < 1024) = true := by
  refine List.all_eq_true.2 fun l hl => ?_
  rw [Bool.and_eq_true, decide_eq_true_eq, decide_eq_true_eq]
  exact hin l hl

section
variable {s : State} {a b : Src} {ctl off : W64} {qs : SMap (List Val)} (h : ReadsSS s a b ctl off qs)
  (hw : within ctl (ones 9 0 + ones 12 12 + ones 21 16) = true) {lanes : List (Nat × Nat)}
  (hlanes : lanes = seqLanes s.issuing.a.sys.seqbase.toNat off.toNat (fld ctl 9 0) (fld ctl 21 16 + 1) (ctl.getLsbD 12))
  (hin : ∀ l ∈ lanes, l.1 < 2 ^ 32 ∧ l.2 < 1024)
include h hw hlanes hin

/-- R376, R384: the points of the lanes enabled. -/
theorem generate_ok (hok : ∀ l ∈ lanes, l.2 ∈ s.issuing.seq.loaded ∧ ¬s.issuing.seq.spoilt l) (d : Port) (code : BitVec 32 → Nat) :
    s.issuing.generate d a b code = .ok (s.adding qs [s.result s.issuing.vPipe .q d
      (Val.ofNat (ofDigits 32 (lanes.map fun l => code (s.issuing.seq.scrambled l.1 l.2)))) 6] (s.issuing.now + 6)) := by
  obtain ⟨c, hx, hy⟩ := readsSS_eq h
  simp only [Core.generate, hx, hy, bind, Except.bind, Core.need_of hw, State.adding_sys, fld_one_bit_eq, ← hlanes,
    Core.need_of (lanes_inRange hin), State.adding_seq, SeqUnit.trap_none hok, State.adding_vPipe, State.adding_deliver, List.nil_append]

/-- R378: the trap of the tables that the lanes read. -/
theorem generate_trap {t : Trap} (ht : s.issuing.seq.trap? lanes = some t) (d : Port) (code : BitVec 32 → Nat) :
    s.issuing.generate d a b code = .error t := by
  obtain ⟨c, hx, hy⟩ := readsSS_eq h
  simp only [Core.generate, hx, hy, bind, Except.bind, Core.need_of hw, State.adding_sys, fld_one_bit_eq, ← hlanes,
    Core.need_of (lanes_inRange hin), State.adding_seq, ht]

end

/-- Settles O30: the words pass their checks; what they load and the trap of their tables are lemmas of the sequence unit. -/
theorem sequenceWordResults : Obligations.SequenceWordResults := by
  unfold Obligations.SequenceWordResults
  intro s ch d a b
  refine ⟨fun v ctl qs h => ⟨fun hw hfit hp => ?_, fun hw hmode hfit hp => ?_⟩, fun ctl off qs h hw => ?_, fun v m qs h hm => ?_,
    fun c old x i => ⟨fun dim two v hi => ⟨c.seq.load dim two v, by rw [Core.perform, hi], c.seq.load_effect dim two v⟩,
      fun dim mode n v hi => ⟨c.seq.loadSeeds dim mode n v, by rw [Core.perform, hi], c.seq.loadSeeds_effect dim mode n v⟩⟩⟩
  · refine completes_of hp (rfl : execQrTab ch a b s = _) ?_
    obtain ⟨c, hx, hy⟩ := readsVS_eq h
    have hneed : (within ctl (ones 9 0 + ones 16 16) && decide (fld ctl 9 0 + fld ctl 16 16 ≤ 1023)) = true := by
      rw [hw, Bool.true_and, decide_eq_true hfit]
    simp only [hx, hy, bind, Except.bind, Core.need_of hneed, fld_one_bit_eq, State.adding_now, State.adding_vPipe, State.adding_later,
      State.adding_retireAt, List.nil_append]
  · refine completes_of hp (rfl : execQrSeed ch a b s = _) ?_
    obtain ⟨c, hx, hy⟩ := readsVS_eq h
    have hneed : (within ctl (ones 9 0 + ones 17 16 + ones 29 24) && fld ctl 17 16 != 3 &&
        decide (fld ctl 9 0 + (fld ctl 29 24 + 1) ≤ 1024)) = true := by
      rw [hw, Bool.true_and, bne_iff_ne.2 hmode, decide_eq_true hfit, Bool.true_and]
    simp only [hx, hy, bind, Except.bind, Core.need_of hneed, State.adding_now, State.adding_vPipe, State.adding_later,
      State.adding_retireAt, List.nil_append]
  · intro lanes point hin spoilt cause
    have hlanes : lanes = seqLanes s.issuing.a.sys.seqbase.toNat off.toNat (fld ctl 9 0) (fld ctl 21 16 + 1) (ctl.getLsbD 12) := rfl
    refine ⟨fun hok => ⟨fun hp => ?_, fun hp => ?_⟩, fun l f hl hc hlow => ?_⟩
    · exact completes_of hp (rfl : execQrGen ch d a b s = _) (by rw [generate_ok h hw hlanes hin hok])
    · exact completes_of hp (rfl : execQrGenf ch d a b s = _) (by rw [generate_ok h hw hlanes hin hok])
    · obtain ⟨x, htrap, hcode, haddr, hdims⟩ := SeqUnit.trap_some (q := s.issuing.seq) (hlanes ▸ seqLanes_sorted _ _ _ _ _) hl hc hlow
      have hgen : ∀ code, s.issuing.generate d a b code = .error x := generate_trap h hw hlanes hin htrap d
      exact ⟨x, hcode, haddr, hdims, fun hp => traps_of hp (rfl : execQrGen ch d a b s = _) (hgen _),
        fun hp => traps_of hp (rfl : execQrGenf ch d a b s = _) (hgen _)⟩
  · intro n hn hp
    refine completes_of hp (rfl : execQrSkip ch d a b s = _) ?_
    obtain ⟨c, hx, hy⟩ := readsSS_eq h
    have hsum : (if m.getLsbD 0 then s.issuing.a.sys.seqbase.toNat + v.toNat else v.toNat) = n := by
      cases hbit : m.getLsbD 0 <;> simp only [n, hbit, Bool.false_eq_true, ↓reduceIte, Nat.add_comm, Nat.zero_add]
    have hneed : (within m 1 && decide (n < 2 ^ 32)) = true := by
      rw [show within m 1 = true from within_of_lt (hi := 0) hm, decide_eq_true hn]
      rfl
    simp only [hx, hy, bind, Except.bind, State.adding_sys, hsum, Core.need_of hneed, State.adding_now, State.adding_vPipe, State.adding_later,
      State.adding_deliver, List.nil_append]
    rfl

end Sys2Proof.Machine
end

section
/-! PROOFS. Prefix words and the suffix (R52-R57). -/
namespace Sys2Proof.Machine

/-- R52: a `pfx` word, where what it finds free is stated as a proposition. -/
theorem prefixWord_eq {free : Issue → Bool} {f : Issue → Issue} {s : State} {p : Prop} [Decidable p]
    (h : free (s.core s.cur).cx = true ↔ p) : prefixWord free f s =
      .next (if p then s.setCore s.cur { s.core s.cur with cx := f (s.core s.cur).cx }
        else takeTrap s.cur ((s.core s.cur).wordTrap .illegalPrefix) s) := by
  simp only [prefixWord, h]
  split <;> rfl

section
variable {c c1 : Core} {p lt : Nat}

/-- R298: what journalling an object leaves, and the core it leaves. -/
theorem Core.journalBar_eq (h : c.journalBar p = .ok c1) : ∃ j, c1 = c.withJournal j := by
  unfold Core.journalBar at h
  split at h
  · cases h
    exact ⟨c.journal, rfl⟩
  · split at h <;> cases h
    exact ⟨_, rfl⟩

variable (hbar : p ∈ c.a.bars) (hj : c.journalBar p = .ok c1)
include hbar hj

/-- R57, R361: the suffix of a word that retires at an LT. -/
theorem Core.suffix_at (hr : c.cx.retire = .at_ lt) (hs : c.sliceClear [(Nat.max lt c.now, p, 16)] = .ok ()) :
    c.suffix p = .ok (if lt ≤ c.now then c1.putBar p (BarObj.arrive 1 (c.bar p)) else c1.later .s lt none (.suffixArrive p)) := by
  obtain ⟨j, rfl⟩ := Core.journalBar_eq hj
  have hown : (c.withJournal j).ownUpdate p (BarObj.arrive 1) = (c.withJournal j).putBar p (BarObj.arrive 1 (c.bar p)) := by
    rw [Core.ownUpdate, if_pos (List.contains_iff_mem.2 (show p ∈ (c.withJournal j).a.bars from hbar))]
    rfl
  have hr' : (c.withJournal j).cx.retire = .at_ lt := hr
  simp only [Core.suffix, bind, Except.bind, Core.need_of (List.contains_iff_mem.2 hbar), hr, hs, hj, hr', hown,
    Core.withJournal_now]
  split <;> rfl

/-- R57: the suffix of a copy arrives on its completion. -/
theorem Core.suffix_copy {id : Nat} {k : Copy} (hr : c.cx.retire = .copy id) (hk : c.copy? id = some k) :
    c.suffix p = .ok (c1.setCopy { k with arv := k.arv ++ [p] }) := by
  obtain ⟨j, rfl⟩ := Core.journalBar_eq hj
  have hr' : (c.withJournal j).cx.retire = .copy id := hr
  have hk' : (c.withJournal j).copy? id = some k := hk
  simp only [Core.suffix, bind, Except.bind, Core.need_of (List.contains_iff_mem.2 hbar), hr, hj, hr', hk']

end

/-- Settles O32: the prefixes are one lemma; the suffix is decided by how its word retires. -/
theorem prefixSuffixResults : Obligations.PrefixSuffixResults := by
  unfold Obligations.PrefixSuffixResults
  intro s
  refine ⟨fun p => prefixWord_eq (f := fun x => { x with imm := some p }) (free := fun x => x.imm.isNone) Option.isNone_iff_eq_none,
    fun e r n => prefixWord_eq (f := fun x => { x with fmt := some (e, r, n) }) (free := fun x => x.fmt.isNone)
      Option.isNone_iff_eq_none,
    fun l => prefixWord_eq (f := fun x => { x with ts := some l }) (free := fun x => x.ts.isNone) Option.isNone_iff_eq_none,
    fun st l => prefixWord_eq (f := fun x => { x with row := (st, l) }) (free := fun x => x.row == (false, false)) beq_iff_eq,
    fun ch a => ⟨fun hno => ?_,
      fun hbar c1 hj => ⟨fun lt hr hle hs => ?_, fun lt hr hlt hs => ?_, fun id k hr hk => ?_⟩⟩⟩
  · change execSfxArv ch a s = _
    have hfail : (s.core s.cur).suffix (16 * a.toNat) = .error ((s.core s.cur).wordTrap .range) := by
      simp only [Core.suffix, bind, Except.bind, Core.need_fails (Bool.eq_false_iff.2 fun h => hno (List.contains_iff_mem.1 h))]
    simp only [execSfxArv, hfail]
  · change execSfxArv ch a s = _
    simp only [execSfxArv, Core.suffix_at hbar hj hr (by rwa [show Nat.max lt (s.core s.cur).now = (s.core s.cur).now from
      Nat.max_eq_right hle]), if_pos hle]
  · change execSfxArv ch a s = _
    simp only [execSfxArv, Core.suffix_at hbar hj hr (by rwa [show Nat.max lt (s.core s.cur).now = lt from
      Nat.max_eq_left (Nat.le_of_lt hlt)]), if_neg (Nat.not_le.2 hlt)]
  · change execSfxArv ch a s = _
    simp only [execSfxArv, Core.suffix_copy hbar hj hr hk]

end Sys2Proof.Machine
end

section
/-! PROOFS. System words (R402-R412). -/
namespace Sys2Proof.Machine

/-! ## Register layouts (R350, R402, R403) -/

theorem ofDigits_lt (w : Nat) (ds : List Nat) : ofDigits w ds < 2 ^ (w * ds.length) := by
  induction ds with
  | nil => exact Nat.one_pos
  | cons d ds ih =>
    have hd : d % 2 ^ w < 2 ^ w := Nat.mod_lt _ (Nat.two_pow_pos w)
    have hmul : (ofDigits w ds + 1) * 2 ^ w ≤ 2 ^ (w * ds.length) * 2 ^ w := Nat.mul_le_mul_right _ ih
    rw [ofDigits, Nat.shiftLeft_eq, List.length_cons, Nat.mul_succ, Nat.pow_add]
    rw [Nat.add_mul, Nat.one_mul] at hmul
    omega

/-- A digit of a number written out in digits. -/
theorem ofDigits_digit (w : Nat) (ds : List Nat) (j : Nat) (hj : j < ds.length) :
    ofDigits w ds / 2 ^ (w * j) % 2 ^ w = ds[j] % 2 ^ w := by
  induction ds generalizing j with
  | nil => exact absurd hj (Nat.not_lt_zero j)
  | cons d ds ih =>
    rw [ofDigits, Nat.shiftLeft_eq]
    cases j with
    | zero => rw [Nat.mul_zero, Nat.pow_zero, Nat.div_one, Nat.add_mul_mod_self_right, Nat.mod_mod]; rfl
    | succ j =>
      rw [Nat.mul_succ, Nat.add_comm (w * j) w, Nat.pow_add, ← Nat.div_div_eq_div_mul, Nat.add_mul_div_right _ _ (Nat.two_pow_pos w),
        Nat.div_eq_of_lt (Nat.mod_lt _ (Nat.two_pow_pos w)), Nat.zero_add]
      exact ih j (Nat.lt_of_succ_lt_succ hj)

/-- R350: a QMAP entry in the word that holds it. -/
theorem SysRegs.qmapWord_entry {r : SysRegs} (h : ∀ q < 64, r.qpos q < 64) {k j : Nat} (hk : k < 7) (hj : j < 10) (hq : 10 * k + j < 64) :
    ((BitVec.ofNat 64 (r.qmapWord k)).extractLsb' (6 * j) 6).toNat = r.qpos (10 * k + j) := by
  let ds := (rangeFrom (10 * k) (Nat.min 10 (64 - 10 * k))).map r.qpos
  have hmin : Nat.min 10 (64 - 10 * k) = min 10 (64 - 10 * k) := rfl
  have hlen : ds.length = min 10 (64 - 10 * k) := by rw [List.length_map, length_rangeFrom, hmin]
  have hlt : ofDigits 6 ds < 2 ^ 64 := Nat.lt_of_lt_of_le (ofDigits_lt 6 ds) (Nat.pow_le_pow_right (by decide) (by omega))
  have hget : ds[j]'(by omega) = r.qpos (10 * k + j) := by
    simp only [ds, List.getElem_map, rangeFrom_eq_range', List.getElem_range', Nat.one_mul]
  rw [SysRegs.qmapWord, BitVec.extractLsb'_toNat, BitVec.toNat_ofNat, Nat.mod_eq_of_lt hlt, Nat.shiftRight_eq_div_pow,
    ofDigits_digit 6 ds j (by omega), hget, Nat.mod_eq_of_lt (show _ < 2 ^ 6 from h _ hq)]

/-- R403: the bits of STATUS, as a number of its fields. -/
theorem status_bit {p a b l d : Nat} (hp : p < 2) (ha : a < 2) (hb : b < 2) (hl : l < 8) (hd : d < 2) (k : Nat) :
    (p + 8 * a + 16 * b + l * 256 + d * 2048) / 2 ^ k % 2 =
      if k = 0 then p else if k = 3 then a else if k = 4 then b else if 8 ≤ k ∧ k ≤ 10 then l / 2 ^ (k - 8) % 2
      else if k = 11 then d else 0 := by
  by_cases hk : k < 12
  · obtain rfl | rfl | rfl | rfl | rfl | rfl | rfl | rfl | rfl | rfl | rfl | rfl : k = 0 ∨ k = 1 ∨ k = 2 ∨ k = 3 ∨ k = 4 ∨ k = 5 ∨
      k = 6 ∨ k = 7 ∨ k = 8 ∨ k = 9 ∨ k = 10 ∨ k = 11 := by omega
    all_goals simp
    all_goals omega
  · have hpow : 2 ^ 12 ≤ 2 ^ k := Nat.pow_le_pow_right (by decide) (Nat.le_of_not_lt hk)
    rw [Nat.div_eq_of_lt (by omega), if_neg (by omega), if_neg (by omega), if_neg (by omega), if_neg (by omega), if_neg (by omega)]

theorem Core.status_bits (c : Core) (hl : c.a.loops.length < 8) {k : Nat} (hk : k < 64) :
    (BitVec.ofNat 64 c.status).getLsbD k =
      if k = 0 then c.sysBefore.p else if k = 3 then c.sysBefore.amp0.getLsbD 23 else if k = 4 then c.brkskip
      else if 8 ≤ k ∧ k ≤ 10 then c.a.loops.length.testBit (k - 8) else if k = 11 then decide (c.die % 2 = 1) else false := by
  have hstatus : c.status = c.sysBefore.p.toNat + 8 * (c.sysBefore.amp0.getLsbD 23).toNat + 16 * c.brkskip.toNat +
      c.a.loops.length * 256 + c.die % 2 * 2048 := by
    rw [Core.status, Nat.shiftLeft_eq, Nat.shiftLeft_eq]
    cases c.sysBefore.p <;> cases c.sysBefore.amp0.getLsbD 23 <;> cases c.brkskip <;> rfl
  have hbit := status_bit (Bool.toNat_lt c.sysBefore.p) (Bool.toNat_lt (c.sysBefore.amp0.getLsbD 23)) (Bool.toNat_lt c.brkskip) hl
    (Nat.mod_lt c.die (show 0 < 2 by decide)) k
  rw [BitVec.getLsbD_ofNat, decide_eq_true hk, Bool.true_and, Nat.testBit_eq_decide_div_mod_eq, hstatus, hbit]
  have hb : ∀ b : Bool, decide (b.toNat = 1) = b := by decide
  split
  · exact hb _
  split
  · exact hb _
  split
  · exact hb _
  split
  · rw [Nat.testBit_eq_decide_div_mod_eq]
  split <;> rfl

/-- R402: what stands in the registers that a loop index numbers. -/
theorem Core.readSys_fmt (c : Core) (n : Nat) {k : Nat} (hk : k < 16) :
    c.readSys n (0x20 + k) = (SMap.get 0 c.sysBefore.fmt k).setWidth 64 := by
  have heq : c.readSys n (0x20 + k) = BitVec.ofNat 64 (SMap.get 0 c.sysBefore.fmt k).toNat := by
    obtain rfl | rfl | rfl | rfl | rfl | rfl | rfl | rfl | rfl | rfl | rfl | rfl | rfl | rfl | rfl | rfl : k = 0 ∨ k = 1 ∨ k = 2 ∨
      k = 3 ∨ k = 4 ∨ k = 5 ∨ k = 6 ∨ k = 7 ∨ k = 8 ∨ k = 9 ∨ k = 10 ∨ k = 11 ∨ k = 12 ∨ k = 13 ∨ k = 14 ∨ k = 15 := by omega
    all_goals rfl
  rw [heq, BitVec.ofNat_toNat]

theorem Core.readSys_qwp (c : Core) (n : Nat) {k : Nat} (hk : k < 8) : c.readSys n (0x30 + k) = BitVec.ofNat 64 (SMap.get 0 c.qwp k) := by
  obtain rfl | rfl | rfl | rfl | rfl | rfl | rfl | rfl : k = 0 ∨ k = 1 ∨ k = 2 ∨ k = 3 ∨ k = 4 ∨ k = 5 ∨ k = 6 ∨ k = 7 := by omega
  all_goals rfl

theorem Core.readSys_qmap (c : Core) (n : Nat) {k : Nat} (hk : k < 7) :
    c.readSys n (0x40 + k) = BitVec.ofNat 64 (c.sysBefore.qmapWord k) := by
  obtain rfl | rfl | rfl | rfl | rfl | rfl | rfl : k = 0 ∨ k = 1 ∨ k = 2 ∨ k = 3 ∨ k = 4 ∨ k = 5 ∨ k = 6 := by omega
  all_goals rfl

/-- R163, R402: a group slot's word, the count of its rendezvous above the slot. -/
theorem slotWord_eq (cnt : BitVec 32) (slot : BitVec 17) :
    BitVec.ofNat 64 (slot.toNat + cnt.toNat <<< 32) = (cnt ++ (0 : BitVec 15) ++ slot).setWidth 64 := by
  apply BitVec.eq_of_toNat_eq
  have hslot := slot.isLt
  have hcnt := cnt.isLt
  rw [BitVec.setWidth_eq]
  simp only [BitVec.toNat_append, BitVec.toNat_ofNat, show BitVec.toNat (0 : BitVec 15) = 0 from rfl, Nat.or_zero]
  rw [← Nat.shiftLeft_add_eq_or_of_lt hslot, Nat.shiftLeft_eq, Nat.shiftLeft_eq, Nat.shiftLeft_eq]
  omega

theorem Core.readSys_slot (c : Core) (n : Nat) {k : Nat} (hk : k < 4) :
    c.readSys n (0x38 + k) = (SMap.get 0 c.sysBefore.rdvcnt k ++ (0 : BitVec 15) ++ SMap.get 0 c.gslot k).setWidth 64 := by
  rw [← slotWord_eq]
  obtain rfl | rfl | rfl | rfl : k = 0 ∨ k = 1 ∨ k = 2 ∨ k = 3 := by omega
  all_goals rfl

/-- R405: the kernel that runs. -/
theorem Core.readSys_kernel (c : Core) (n : Nat) {q cid : Nat} (h : c.kernel = some (q, cid)) :
    (c.readSys n 0x0B).toNat % 2 ^ 32 = cid % 2 ^ 32 ∧ (c.readSys n 0x0B).toNat / 2 ^ 32 = q % 32 := by
  have hread : c.readSys n 0x0B = BitVec.ofNat 64 (cid % 2 ^ 32 + (q % 32) <<< 32) := by
    simp only [Core.readSys, h]
  have hlt : cid % 2 ^ 32 + q % 32 * 2 ^ 32 < 2 ^ 64 := by omega
  rw [hread, BitVec.toNat_ofNat, Nat.shiftLeft_eq, Nat.mod_eq_of_lt hlt]
  omega

/-! ## Writes (R412) -/

@[simp] theorem State.adding_readSys (s : State) (qs : SMap (List Val)) (es : List Item) (lt n x : Nat) :
    (s.adding qs es lt).readSys n x = s.issuing.readSys n x := rfl

section
variable {s : State} {ch : Bool} {d : Port} {a : Src} {x : BitVec 8} {v : W64} {qs : SMap (List Val)}
  (h : ReadsS s a v qs) (hp : Passes (.wrsys ch d a x) s)
include h hp

/-- R412: a writable register whose reserved bits the source leaves zero. -/
theorem wrsys_ok {m : Nat} (hm : sysMask x.toNat = some m) (hw : within v m = true) :
    Delivers (.wrsys ch d a x) s qs
      [s.entry .s (s.issuing.now + 1) none (.sysWrite x.toNat v), s.resultS d (s.issuing.readSys s.cur x.toNat) 1]
      (s.issuing.now + 1) := by
  refine delivers_of (rfl : execWrsys ch d a x s = _) ?_ hp
  simp only [readsS_eq h, bind, Except.bind, hm, Core.need_of hw, State.adding_now, State.adding_later, State.adding_deliverS,
    State.adding_readSys, List.nil_append, List.singleton_append]

/-- R412: a source with a reserved bit set, or a read-only register. -/
theorem wrsys_range (hbad : ∀ m, sysMask x.toNat = some m → within v m = false) :
    exec (.wrsys ch d a x) s = .next (takeTrap s.cur (s.issuing.wordTrap .range) s) := by
  refine traps_of hp (rfl : execWrsys ch d a x s = _) ?_
  simp only [readsS_eq h, bind, Except.bind]
  cases hm : sysMask x.toNat with
  | none => rfl
  | some m => simp only [Core.need_fails (hbad m hm), State.adding_wordTrap]

theorem wrsys_writable {hi : Nat} (hm : sysMask x.toNat = some (ones hi 0)) :
    (v.toNat < 2 ^ (hi + 1) → Delivers (.wrsys ch d a x) s qs
      [s.entry .s (s.issuing.now + 1) none (.sysWrite x.toNat v), s.resultS d (s.issuing.readSys s.cur x.toNat) 1]
      (s.issuing.now + 1)) ∧
    (2 ^ (hi + 1) ≤ v.toNat → exec (.wrsys ch d a x) s = .next (takeTrap s.cur (s.issuing.wordTrap .range) s)) := by
  refine ⟨fun hv => wrsys_ok h hp hm (within_of_lt hv), fun hv => wrsys_range h hp fun m hm' => ?_⟩
  obtain rfl := Option.some.inj (hm.symm.trans hm')
  rw [within, ones, Nat.shiftLeft_zero, Nat.sub_zero, Nat.and_two_pow_sub_one_eq_mod, beq_eq_false_iff_ne]
  have := Nat.mod_lt v.toNat (Nat.two_pow_pos (hi + 1))
  omega

end

/-- R402: the registers that a `wrsys` may write. -/
theorem sysMask_other : ∀ x : BitVec 8, x ∉ ([0x01, 0x03, 0x04, 0x08, 0x0C] : List (BitVec 8)) → ¬(0x20 ≤ x.toNat ∧ x.toNat ≤ 0x2F) →
    sysMask x.toNat = none := by decide +kernel

theorem sysMask_fmt : ∀ x : BitVec 8, 0x20 ≤ x.toNat → x.toNat ≤ 0x2F → sysMask x.toNat = some (ones 31 0) := by decide +kernel

/-- Settles O31: the words by their checks, the registers by their layouts. -/
theorem systemWordResults : Obligations.SystemWordResults := by
  unfold Obligations.SystemWordResults
  intro s ch d a
  refine ⟨fun k hp => traps_of hp (rfl : execTrap ch k s = _) rfl, fun k hp => ⟨fun hoff => ?_, fun hen hskip => ?_⟩, fun g hp => ?_,
    fun g sc c' hsc hg hc hp => ?_, fun x => delivers_of (rfl : execRdsys ch d x s = _) ?_, ?_, fun x v qs h hp => ?_⟩
  · refine completes_of hp (rfl : execBrk ch k s = _) ?_
    have hno : (s.issuing.dbgctl.getLsbD 1 && !s.issuing.brkskip) = false := by
      obtain h | h := hoff <;> simp only [h, Bool.false_and, Bool.not_true, Bool.and_false]
    simp only [hno, Bool.false_eq_true, ↓reduceIte]
  · refine traps_of hp (rfl : execBrk ch k s = _) ?_
    have hyes : (s.issuing.dbgctl.getLsbD 1 && !s.issuing.brkskip) = true := by simp only [hen, hskip, Bool.not_false, Bool.and_self]
    simp only [hyes, ↓reduceIte]
  · exact completes_of hp (rfl : execIcinv ch g 0 s = _) rfl
  · refine completes_of hp (rfl : execIcinv ch g sc s = _) ?_
    have hneed : (sc != 1 || (s.issuing.slotOfGroup g.toNat).isSome) = true := by
      by_cases h1 : sc = 1
      · rw [hg h1, Bool.or_true]
      · rw [bne_iff_ne.2 h1, Bool.true_or]
    have hnow : c'.now = s.issuing.now := by
      have hkept := Core.hold_now hc
      exact hkept
    simp only [bind, Except.bind, Core.need_of hneed, beq_eq_false_iff_ne.2 hsc, Bool.false_eq_true, ↓reduceIte, hc, Except.map, hnow]
  · conv => lhs; rw [State.issuing_eq_adding s]
    simp only [State.adding_deliverS, State.adding_readSys, List.nil_append]
  · have hbefore : (if s.issuing.a.before.1 = s.issuing.now then s.issuing.a.before.2 else s.issuing.a.sys) = s.issuing.sysBefore := by
      simp only [Core.sysBefore, beq_iff_eq]
    intro r rd
    have hr : r = s.issuing.sysBefore := hbefore
    rw [hr]
    refine ⟨rfl, rfl, fun hl k hk => s.issuing.status_bits hl hk, BitVec.ofNat_toNat 64 _, BitVec.ofNat_toNat 64 _, BitVec.ofNat_toNat 64 _, rfl,
      (BitVec.ofNat_toNat 64 _).trans (BitVec.setWidth_eq _), (BitVec.ofNat_toNat 64 _).trans (BitVec.setWidth_eq _), BitVec.ofNat_toNat 64 _, rfl,
      fun q cid h => s.issuing.readSys_kernel s.cur h, BitVec.ofNat_toNat 64 _, BitVec.ofNat_toNat 64 _, BitVec.ofNat_toNat 64 _, BitVec.ofNat_toNat 64 _,
      ?_, rfl, fun k hk => s.issuing.readSys_fmt s.cur hk, fun k hk => s.issuing.readSys_qwp s.cur hk, fun k hk => s.issuing.readSys_slot s.cur hk,
      fun hq k hk j hj hlt => ?_⟩
    · change BitVec.ofNat 64 (if s.issuing.sysBefore.ampmode then 1 else 0) = _
      cases s.issuing.sysBefore.ampmode <;> rfl
    · rw [show rd (0x40 + k) = _ from s.issuing.readSys_qmap s.cur hk]
      exact SysRegs.qmapWord_entry hq hk hj hlt
  · refine ⟨fun hx => ?_, fun hx => ?_, fun hx => ?_, fun hx => ?_, fun hx => ?_, fun h1 h2 => ?_, fun h1 h2 => ?_⟩
    · exact wrsys_writable (hi := 47) h hp (by rw [hx]; rfl)
    · exact wrsys_writable (hi := 4) h hp (by rw [hx]; rfl)
    · exact wrsys_writable (hi := 3) h hp (by rw [hx]; rfl)
    · exact wrsys_writable (hi := 63) h hp (by rw [hx]; rfl)
    · exact wrsys_writable (hi := 31) h hp (by rw [hx]; rfl)
    · exact wrsys_writable (hi := 31) h hp (sysMask_fmt x h1 h2)
    · exact wrsys_range h hp (by rw [sysMask_other x h1 h2]; exact nofun)

end Sys2Proof.Machine
end

section
/-! PROOFS. Events of the cores (R16, R153-R157, R164, R221, R222, R355, R420). -/
namespace Sys2Proof.Machine

theorem eventIf_true {s t : State} {ok : Bool} (h : ok = true) : eventIf s ok t = .next t := if_pos h
theorem eventIf_false {s t : State} {ok : Bool} (h : ok = false) : eventIf s ok t = .next s := if_neg (Bool.eq_false_iff.1 h)

section
variable {s : State} {n k : Nat}

theorem resultLand_of {i : Item} (hi : (s.core n).a.inflight[k]? = some i) (hr : i.ready = false) (hg : i.act.isGate = false) :
    execResultLand n k s = .next (s.setCore n { s.core n with
      a := { (s.core n).a with inflight := (s.core n).a.inflight.set k { i with ready := true } } }) := by
  simp only [execResultLand, hi, hr, hg]
  rfl

/-- R153: every member has issued the rendezvous with the count, or counts as arrived. -/
theorem State.rdvReady_of {kr : Kernel} {g count : Nat}
    (h : ∀ m ∈ s.membersOf kr g, m.outOfPlay = true ∨ ∃ x, m.rdvOn g = some (x, count)) : s.rdvReady kr g count = true := by
  refine List.all_eq_true.2 fun m hm => ?_
  obtain hout | ⟨x, hx⟩ := h m hm
  · rw [hout, Bool.true_or]
  · rw [hx]
    simp only [BEq.rfl, Bool.or_true]

theorem rdvRelease_of {r : Rdv} {kr : Kernel} (hr : SMap.get none (s.core n).a.rdv k = some r) (hk : s.kernelOf (s.core n) = some kr)
    (h : (SMap.get 0 (s.core n).a.sys.rdvcnt k).toNat < SMap.get 0 kr.rdvDone r.group ∨ ∀ m ∈ s.membersOf kr r.group,
      m.outOfPlay = true ∨ ∃ x, m.rdvOn r.group = some (x, (SMap.get 0 (s.core n).a.sys.rdvcnt k).toNat)) :
    execRdvRelease n k s = .next ((s.setKernel { kr with
      rdvDone := SMap.set 0 kr.rdvDone r.group
        (Nat.max (SMap.get 0 kr.rdvDone r.group) ((SMap.get 0 (s.core n).a.sys.rdvcnt k).toNat + 1)) }).modCore n fun c =>
        c.openGates fun a => a == .rdvGate k) := by
  simp only [execRdvRelease, hr, hk]
  exact if_pos (Bool.or_eq_true_iff.2 (h.imp decide_eq_true State.rdvReady_of))

/-- R155: the cores of a kernel that takes part in a step. -/
theorem stepRelease_of {kr : Kernel} (hk : s.kernels[k]? = some kr) (hplay : ∃ c ∈ s.placed kr, c.outOfPlay = false)
    (hat : ∀ c ∈ s.placed kr, c.outOfPlay = true ∨
      ((c.run = .running ∨ c.run = .debug true) ∧ s.atStep c = true ∧ c.translating = false)) :
    ((∃ c ∈ s.placed kr, c.outOfPlay = false ∧ c.a.out = false) →
      execStepRelease k s = .next ((kr.place.take kr.n).foldl State.stepExit s)) ∧
    ((∀ c ∈ s.placed kr, (c.outOfPlay = true ∨ c.a.out = true) ∧ ∀ h ∈ c.copies, h.stepWaits = false ∨ h.settled = true) →
      execStepRelease k s = .next ((kr.place.take kr.n).foldl (fun s n => s.modCore n fun c =>
        c.openGates fun a => match a with | .stepGate _ => true | _ => false) s)) := by
  obtain ⟨c0, hc0, hout0⟩ := hplay
  have hnonempty : (s.placed kr).isEmpty = false := by
    cases h : s.placed kr with
    | nil => rw [h] at hc0; exact absurd hc0 List.not_mem_nil
    | cons => rfl
  have hsome : (s.placed kr).all Core.outOfPlay = false := by
    rw [List.all_eq_false]
    exact ⟨c0, hc0, by rw [hout0]; exact Bool.noConfusion⟩
  have hall : ((s.placed kr).all fun c => c.outOfPlay || (c.run.goes && s.atStep c && !c.translating)) = true := by
    refine List.all_eq_true.2 fun c hc => ?_
    obtain h | ⟨hrun, hstep, htr⟩ := hat c hc
    · rw [h, Bool.true_or]
    · have hgoes : c.run.goes = true := by obtain h | h := hrun <;> rw [h] <;> rfl
      rw [hgoes, hstep, htr]
      exact Bool.or_true _
  refine ⟨fun ⟨c, hc, ho, ha⟩ => ?_, fun h => ?_⟩
  · have hexits : ((s.placed kr).all fun c => c.outOfPlay || c.a.out) = false := by
      rw [List.all_eq_false]
      exact ⟨c, hc, by rw [ho, ha]; exact Bool.noConfusion⟩
    simp only [execStepRelease, hk, hnonempty, hsome, hall, hexits]
    rfl
  · have hexits : ((s.placed kr).all fun c => c.outOfPlay || c.a.out) = true :=
      List.all_eq_true.2 fun c hc => Bool.or_eq_true_iff.2 (h c hc).1
    have hsettled : ((s.placed kr).all fun c => c.copies.all fun h => !h.stepWaits || h.settled) = true :=
      List.all_eq_true.2 fun c hc => List.all_eq_true.2 fun d hd => Bool.or_eq_true_iff.2 (((h c hc).2 d hd).imp_left
        (by rw [Bool.not_eq_true']; exact id))
    simp only [execStepRelease, hk, hnonempty, hsome, hall, hexits, hsettled]
    rfl

/-- R221: the oldest row on the pair link is taken, or dropped where its place is filled. -/
theorem pairRowArrival_of {r : PairRow} {rest : List PairRow} (hl : (s.core n).mx.link = r :: rest) :
    let c := s.core n
    let h := c.mx.partner
    (h.rows = [] ∨ (r.seq = h.seq ∧ SMap.get none h.rows r.row = none) ∨ (r.seq = h.seq + 1 ∧ c.ck.pseq = r.seq) →
      execPairRowArrival n s =
        .next (s.setCore n { c with mx := { c.mx with partner := h.put r.seq r.par r.row r.data, link := rest } })) ∧
    (h.rows ≠ [] → r.seq = h.seq → SMap.get none h.rows r.row ≠ none →
      execPairRowArrival n s = .next (s.setCore n { c with mx := { c.mx with link := rest } })) := by
  intro c h
  have hdrop : c.mx.link.drop 1 = rest := by rw [hl]; rfl
  refine ⟨fun hcase => ?_, fun hne hseq hrow => ?_⟩
  · have htake : c.pairTake r = some { c with mx := { c.mx with partner := h.put r.seq r.par r.row r.data, link := rest } } := by
      unfold Core.pairTake
      rw [hdrop]
      by_cases hempty : c.mx.partner.rows.isEmpty = true
      · rw [if_pos hempty]
      · rw [if_neg hempty]
        obtain hrows | ⟨hseq, hrow⟩ | ⟨hseq, hck⟩ := hcase
        · exact absurd (List.isEmpty_iff.2 hrows) hempty
        · rw [if_pos (beq_iff_eq.2 hseq), hrow]
          rfl
        · rw [if_neg (by rw [beq_iff_eq, hseq, show c.mx.partner = h from rfl]; bv_omega), if_pos (beq_iff_eq.2 hseq), if_pos (beq_iff_eq.2 hck)]
    simp only [execPairRowArrival, hl, c, htake]
  · have hskip : c.pairTake r = some { c with mx := { c.mx with link := rest } } := by
      unfold Core.pairTake
      rw [hdrop, if_neg (fun hempty => hne (List.isEmpty_iff.1 hempty)), if_pos (beq_iff_eq.2 hseq),
        if_pos (Option.isSome_iff_ne_none.2 hrow)]
    simp only [execPairRowArrival, hl, c, hskip]

/-- R355: the exchange buffer has room for a chunk; its last entry waits for the one that the exchange takes next. -/
theorem Core.ampRoom_of {c : Core} {x : AmpChunk}
    (h : c.ampBuf.length < 15 ∨ c.ampBuf.length < 16 ∧ ∃ e, c.ampActive = some e ∧ e.takesNext x = true) : c.ampRoom x = true := by
  refine decide_eq_true ?_
  obtain h | ⟨h, e, he, hx⟩ := h
  · have hone : ∀ b : Bool, (if b then 0 else 1) ≤ 1 := by decide
    exact Nat.lt_of_le_of_lt (Nat.add_le_add_left (hone _) _) (by omega)
  · simp only [he, hx, ↓reduceIte]
    omega

/-- R164: a halting core whose copies have ended is reported, or raises the trap of its exit. -/
theorem coreHaltReport_of {code : BitVec 16} {kr : Kernel} (hr : (s.core n).run = .halting code) (hk : s.kernelOf (s.core n) = some kr)
    (ho : (s.core n).a.out = true) (hi : (s.core n).a.inflight = []) (hc : ∀ h ∈ (s.core n).copies, h.settled = true) :
    ((s.core n).exitTrap = none → execCoreHaltReport n s = .next ((s.setCore n { s.core n with run := .halted code }).setKernel
      { kr with codes := SMap.set none kr.codes (s.core n).lcore (some code.toNat) })) ∧
    ∀ t, (s.core n).exitTrap = some t → execCoreHaltReport n s = .next (takeTrap n t s) := by
  have hready : (!(s.core n).a.out || !(s.core n).a.inflight.isEmpty || !(s.core n).copies.all Copy.settled) = false := by
    rw [ho, hi, List.all_eq_true.2 hc]
    rfl
  refine ⟨fun ht => ?_, fun t ht => ?_⟩ <;> simp only [execCoreHaltReport, hr, hk, hready, ht] <;> rfl

/-- R307, R420: a kernel whose cores have halted ends, and an aborted one whose copies have. -/
theorem kernelFinish_of {kr : Kernel} (hk : s.kernels[k]? = some kr) (hcodes : s.codesReach kr = true) :
    (kr.state = .running → (s.placed kr).length = kr.n →
      (∀ c ∈ s.placed kr, (∃ x, c.run = .halted x) ∧ ∀ h ∈ c.copies, c.settledAt 3 h = true) →
      execKernelFinish k s = .next (s.endKernel kr (KernelEnd.plain 0 0 0))) ∧
    ∀ e, kr.state = .aborted → kr.end_ = some e → s.copiesOpen kr = false → execKernelFinish k s = .next (s.endKernel kr e) := by
  refine ⟨fun hs hn h => ?_, fun e hs he ho => ?_⟩
  · simp only [execKernelFinish, hk, hcodes, hs]
    refine eventIf_true (Bool.and_eq_true_iff.2 ⟨beq_iff_eq.2 hn, List.all_eq_true.2 fun c hc => ?_⟩)
    obtain ⟨⟨x, hx⟩, hsettled⟩ := h c hc
    rw [hx, List.all_eq_true.2 hsettled]
    rfl
  · simp only [execKernelFinish, hk, hcodes, hs, he, ho]
    rfl

end

/-- Settles O33: each event where its condition holds. -/
theorem coreEventResults : Obligations.CoreEventResults := by
  unfold Obligations.CoreEventResults
  intro s n k
  refine ⟨fun i hi hr hg => resultLand_of hi hr hg, fun r kr hr hk h => rdvRelease_of hr hk h, fun kr hk hplay hat => stepRelease_of hk hplay hat,
    fun hb => eventIf_true hb, fun r rest hl => pairRowArrival_of hl, fun i hi hrun hw => ?_,
    ⟨fun x hh => ?_, fun x hh hroom => ?_, fun m x hm => ?_⟩, fun code kr hr hk ho hi hc => coreHaltReport_of hr hk ho hi hc,
    fun kr hk => ⟨fun hs hn h hcodes => (kernelFinish_of hk hcodes).1 hs hn h, fun e hs he ho hcodes => (kernelFinish_of hk hcodes).2 e hs he ho⟩⟩
  · change execPairTimeout n s = _
    unfold execPairTimeout
    dsimp only
    split
    · next j hj =>
      obtain rfl := Option.some.inj (hi.symm.trans hj)
      exact eventIf_true (by rw [hrun, decide_eq_true hw]; rfl)
    · next hnone => cases hi.symm.trans hnone
  · exact eventIf_false (by rw [hh]; rfl)
  · exact eventIf_true (by rw [hh, Core.ampRoom_of hroom]; rfl)
  · change execAmpChunkArrival n none s = _
    simp only [execAmpChunkArrival, hm] <;> rfl

end Sys2Proof.Machine
end

section
/-! PROOFS. The front-end's handling of traps (R151, R152, R216, R388-R390, R462). -/
namespace Sys2Proof.Machine

/-! ## The rewind of a core (R151) -/

/-- What a rewind leaves to the front-end: the counts of reruns, BUDGET, the twin rerun, the entry pending and the hold. -/
structure Reruns where
  rewinds : Nat
  requeues : Nat
  budget : Nat
  twin : Option Twin
  pend : Option PendLog
  debugHold : Bool

def Core.reruns (c : Core) : Reruns :=
  { rewinds := c.rewinds, requeues := c.requeues, budget := c.budget, twin := c.twin, pend := c.pend, debugHold := c.debugHold }

theorem Core.recount_keeps (c : Core) (q : Nat) : (c.recount (some q)).a = c.a ∧ (c.recount (some q)).reruns = c.reruns := ⟨rfl, rfl⟩

theorem Core.recountAll_keeps (c : Core) : c.recountAll.a = c.a ∧ c.recountAll.reruns = c.reruns := by
  unfold Core.recountAll
  generalize upto 8 = qs
  exact ⟨foldl_read_other (r := Core.a) (fun c q _ => (c.recount_keeps q).1) c,
    foldl_read_other (r := Core.reruns) (fun c q _ => (c.recount_keeps q).2) c⟩

/-- One object of the journal is put back. -/
theorem Core.restoreJournal_cons (c : Core) (a : Nat) (w0 w1 : W64) (r : List (Nat × W64 × W64)) :
    c.restoreJournal ((a, w0, w1) :: r) = Core.restoreJournal (c.storeWords a (words64 w0 ++ words64 w1)) r := by
  conv =>
    lhs
    whnf

theorem Core.storeWords_keeps (c : Core) (a : Nat) (ws : List PWord) :
    (c.storeWords a ws).ck = c.ck ∧ (c.storeWords a ws).reruns = c.reruns := by
  have h := storeWords_eq ws c a
  generalize c.storeWords a ws = d at h ⊢
  constructor
  · rw [h]
  · rw [h]
    rfl

theorem Core.restoreJournal_keeps (j : List (Nat × W64 × W64)) : ∀ c : Core,
    (c.restoreJournal j).ck = c.ck ∧ (c.restoreJournal j).reruns = c.reruns := by
  induction j with
  | nil =>
    intro c
    rw [show c.restoreJournal [] = c from rfl]
    exact ⟨rfl, rfl⟩
  | cons e rest ih =>
    intro c
    obtain ⟨a, w0, w1⟩ := e
    rw [Core.restoreJournal_cons]
    obtain ⟨hck, hr⟩ := c.storeWords_keeps a (words64 w0 ++ words64 w1)
    generalize c.storeWords a (words64 w0 ++ words64 w1) = d at hck hr ⊢
    exact ⟨(ih d).1.trans hck, (ih d).2.trans hr⟩

/-- R151: a rewind restores the checkpoint. -/
theorem Core.rewind_keeps (c : Core) : c.rewind.a = c.ck ∧ c.rewind.reruns = c.reruns := by
  obtain ⟨hck, hr⟩ := Core.restoreJournal_keeps c.journal c
  unfold Core.rewind
  dsimp only
  generalize c.restoreJournal c.journal = d at hck hr ⊢
  rw [(Core.recountAll_keeps _).1, (Core.recountAll_keeps _).2]
  exact ⟨hck, hr⟩

/-- A core after its rewind with a credit (R151, R389). -/
def Core.rewound (c : Core) (credit : Nat) (k : Kernel) : Core :=
  { c.rewind.credit credit with
    debugHold := false
    run := if c.debugHold || c.run.halted? then .debug false else if k.state == .frozen then .frozen else .running }

theorem State.rewindCore_eq (s : State) (n credit : Nat) (k : Kernel) :
    s.rewindCore n credit k = s.setCore n ((s.core n).rewound credit k) := rfl

/-- R151: a rewind with a credit restores the checkpoint, and adds the credit to BUDGET. -/
theorem Core.rewound_keeps (c : Core) (credit : Nat) (k : Kernel) :
    (c.rewound credit k).a = c.ck ∧
    (c.rewound credit k).reruns =
      { c.reruns with budget := Nat.min (c.budget + credit) (2 ^ 48 - 1), debugHold := false } := by
  obtain ⟨ha, hr⟩ := c.rewind_keeps
  unfold Core.rewound
  generalize c.rewind = d at ha hr ⊢
  have hb : d.budget = c.budget := congrArg Reruns.budget hr
  refine ⟨ha, ?_⟩
  rw [← hr, ← hb]
  rfl

/-- R389: where a rewind leaves a core whose run is not that of a debug halt. -/
theorem Core.rewound_run (c : Core) (credit : Nat) (k : Kernel) (h : c.run.halted? = false) :
    (c.rewound credit k).run = if c.debugHold then .debug false else if k.state = .frozen then .frozen else .running := by
  simp only [Core.rewound, h, Bool.or_false, beq_iff_eq]

/-! ## The entry pending (R462) -/

/-- The registers that a rewind is noted with. -/
def Core.note (c : Core) (n : Nat) : PendLog :=
  { corenum := n, code := c.a.trapcode, pc := c.a.trappc, addr := c.a.faultaddr, lt := c.a.traplt, reruns := 1 }

/-- What becomes of the entry pending as another rewind is noted. -/
def Core.notedPend (c : Core) (n : Nat) : PendLog :=
  match c.pend with
  | some p => if { p with reruns := 1 } = c.note n then { p with reruns := p.reruns + 1 } else c.note n
  | none => c.note n

theorem Core.pend_none {c : Core} (h : c.pend = none) : { c with pend := none } = c := by rw [← h]

theorem State.logRewind_core (s : State) (n outcome : Nat) : (s.logRewind n outcome).core n = { s.core n with pend := none } := by
  cases hp : (s.core n).pend with
  | none => simp only [State.logRewind, hp, Option.isNone_none, ↓reduceIte, Core.pend_none hp]
  | some p =>
    simp only [State.logRewind, hp, Option.isNone_some, Bool.false_eq_true, ↓reduceIte]
    exact State.core_setCore_same _ _ _

theorem State.noteRewind_core (s : State) (n : Nat) :
    (s.noteRewind n).core n = { s.core n with pend := some ((s.core n).notedPend n) } := by
  unfold State.noteRewind Core.notedPend
  cases hp : (s.core n).pend with
  | none => exact State.core_setCore_same _ _ _
  | some p =>
    dsimp only
    split
    · next h =>
      rw [if_pos (show { p with reruns := 1 } = (s.core n).note n from h)]
      exact State.core_setCore_same _ _ _
    · next h =>
      rw [if_neg (show ¬{ p with reruns := 1 } = (s.core n).note n from h)]
      refine (State.core_setCore_same _ _ _).trans ?_
      rw [State.logRewind_core]
      rfl

/-- R462: where an entry that waits enters the error log. -/
theorem State.noteRewind_errlog (s : State) (n : Nat) :
    ((s.core n).pend = none → (s.noteRewind n).errlog = s.errlog) ∧
    ∀ p, (s.core n).pend = some p →
      (({ p with reruns := 1 } : PendLog) = (s.core n).note n → (s.noteRewind n).errlog = s.errlog) ∧
      (({ p with reruns := 1 } : PendLog) ≠ (s.core n).note n →
        (s.noteRewind n).errlog = s.errlog ++ (s.core n).rewindEntry 0) := by
  refine ⟨fun hp => ?_, fun p hp => ⟨fun h => ?_, fun h => ?_⟩⟩ <;> unfold State.noteRewind <;> rw [hp] <;> dsimp only
  · rfl
  · split
    · rfl
    · next hne => exact absurd h hne
  · split
    · next heq => exact absurd heq h
    · change (s.logRewind n 0).errlog = _
      simp only [State.logRewind, hp, Option.isNone_some, Bool.false_eq_true, ↓reduceIte]

theorem State.noteRewind_reports (s : State) (n : Nat) : (s.noteRewind n).reports = s.reports := by
  unfold State.noteRewind State.logRewind
  dsimp only
  split
  · split
    · rfl
    · split <;> rfl
  · rfl

/-! ## Responses (R387, R388) -/

/-- The code whose response the report of a trap has, and that response. -/
theorem responseOf_rewind {code : BitVec 8} (h : code ∈ ([0x13, 0x14, 0x20] : List (BitVec 8))) : responseOf code = .rewind := by
  revert h; revert code; decide +kernel
theorem responseOf_requeue {code : BitVec 8} (h : code ∈ ([0x10, 0x11] : List (BitVec 8))) : responseOf code = .requeue := by
  revert h; revert code; decide +kernel
theorem responseOf_debugHalt {code : BitVec 8} (h : code ∈ ([0x0B, 0x1B] : List (BitVec 8))) : responseOf code = .debugHalt := by
  revert h; revert code; decide +kernel
theorem responseOf_abort {code : BitVec 8} (h : code ∉ ([0x13, 0x14, 0x20, 0x10, 0x11, 0x1A, 0x0B, 0x1B] : List (BitVec 8))) :
    responseOf code = .abort := by
  revert h; revert code; decide +kernel

section
variable {s : State} {n : Nat} {k : Kernel} {halt : Bool}

theorem State.abortOrHalt_abort (h : halt = false ∧ (s.queue k.queue).hold = false ∧ (s.core n).dbgctl.getLsbD 2 = false ∨ k.session = false) :
    s.abortOrHalt n k halt = s.abortKernel k ((s.core n).trapEnd n false) := by
  refine if_neg ?_
  obtain ⟨hhalt, hhold, hdbg⟩ | hs := h
  · rw [hhalt, hhold, hdbg]
    exact Bool.noConfusion
  · rw [hs, Bool.and_false]
    exact Bool.noConfusion

theorem State.abortOrHalt_halt (h : halt = true ∨ (s.queue k.queue).hold = true ∨ (s.core n).dbgctl.getLsbD 2 = true)
    (hs : k.session = true) : s.abortOrHalt n k halt = s.debugHalt n k := by
  refine if_pos ?_
  rw [hs, Bool.and_true, Bool.or_eq_true, Bool.or_eq_true, or_assoc]
  exact h

end

/-- R216: an error rewind of a core that has stopped for a trap. -/
theorem State.errorRewind_core (s : State) (n t : Nat) (k : Kernel) :
    (s.errorRewind n t k).core n =
      { (s.core n).rewound (2 * (t + 1 - (s.core n).ck.segLt)) k with
        rewinds := ((s.core n).rewound (2 * (t + 1 - (s.core n).ck.segLt)) k).rewinds + 1 } := by
  refine (State.core_setCore_same _ _ _).trans ?_
  rw [State.rewindCore_eq, State.core_setCore_same]

/-- R151, R152, R216, R462: the rewind that answers a trap. -/
theorem State.handleTrap_rewind {s : State} {n : Nat} {k : Kernel} {r : TrapReport} (hrun : (s.core n).run = .trapped)
    (htwin : (s.core n).twin = none) (hresp : responseOf r.effective = .rewind) (ho : (s.core n).a.out = false)
    (hre : (s.core n).rewinds < 5) :
    let t := s.handleTrap n k r
    let c := s.core n
    t.errlog = (s.noteRewind n).errlog ∧ t.reports = s.reports ∧ (t.core n).a = c.ck ∧
    (t.core n).run = (if c.debugHold then .debug false else if k.state = .frozen then .frozen else .running) ∧
    (t.core n).reruns = {
      rewinds := c.rewinds + 1, requeues := c.requeues, budget := Nat.min (c.budget + 2 * (r.lt + 1 - c.ck.segLt)) (2 ^ 48 - 1)
      twin := if r.matrix then some { first := none, atExit := false } else none
      pend := some (c.notedPend n), debugHold := false } := by
  have hhandle : s.handleTrap n k r = if r.matrix
      then ((s.noteRewind n).errorRewind n r.lt k).modCore n fun d => { d with twin := some { first := none, atExit := false } }
      else (s.noteRewind n).errorRewind n r.lt k := by
    simp only [State.handleTrap, htwin, Option.isSome_none, Bool.false_eq_true, ↓reduceIte, hresp, ho, Nat.not_le.2 hre]
  have hnoted := s.noteRewind_core n
  have hcore := (s.noteRewind n).errorRewind_core n r.lt k
  have hhalted : ((s.noteRewind n).core n).run.halted? = false := by rw [hnoted]; exact hrun ▸ rfl
  obtain ⟨ha, hr⟩ := ((s.noteRewind n).core n).rewound_keeps (2 * (r.lt + 1 - ((s.noteRewind n).core n).ck.segLt)) k
  have hrun' := ((s.noteRewind n).core n).rewound_run (2 * (r.lt + 1 - ((s.noteRewind n).core n).ck.segLt)) k hhalted
  generalize hd : ((s.noteRewind n).core n).rewound (2 * (r.lt + 1 - ((s.noteRewind n).core n).ck.segLt)) k = d at ha hrun' hr hcore
  rw [hnoted] at ha hrun' hr
  have hreports := s.noteRewind_reports n
  intro t c
  have ht : t = if r.matrix
      then ((s.noteRewind n).errorRewind n r.lt k).modCore n fun d => { d with twin := some { first := none, atExit := false } }
      else (s.noteRewind n).errorRewind n r.lt k := hhandle
  cases hm : r.matrix
  · simp only [hm, Bool.false_eq_true, ↓reduceIte] at ht
    rw [ht, hcore]
    refine ⟨rfl, hreports, ha, hrun', ?_⟩
    change { d.reruns with rewinds := d.reruns.rewinds + 1 } = _
    rw [hr]
    simp only [Core.reruns, htwin]
    rfl
  · simp only [hm, ↓reduceIte] at ht
    have hmod : t.core n = { { d with rewinds := d.rewinds + 1 } with twin := some { first := none, atExit := false } } := by
      rw [ht, State.modCore, State.core_setCore_same, hcore]
    refine ⟨by rw [ht]; rfl, by rw [ht]; exact hreports, by rw [hmod]; exact ha, by rw [hmod]; exact hrun', ?_⟩
    rw [hmod]
    change { d.reruns with rewinds := d.reruns.rewinds + 1, twin := some { first := none, atExit := false } } = _
    rw [hr]
    rfl

section
variable {s : State} {n : Nat} {k : Kernel} {r : TrapReport} (htwin : (s.core n).twin = none)
include htwin

theorem State.handleTrap_host (h : responseOf r.effective = .host) :
    s.handleTrap n k r = s.abortKernel k ((s.core n).trapEnd n true) := by
  unfold State.handleTrap
  dsimp only
  rw [if_neg (by rw [htwin]; exact Bool.noConfusion), h]

theorem State.handleTrap_abort (h : responseOf r.effective = .abort) : s.handleTrap n k r = s.abortOrHalt n k false := by
  unfold State.handleTrap
  dsimp only
  rw [if_neg (by rw [htwin]; exact Bool.noConfusion), h]

theorem State.handleTrap_debugHalt (h : responseOf r.effective = .debugHalt) : s.handleTrap n k r = s.abortOrHalt n k true := by
  unfold State.handleTrap
  dsimp only
  rw [if_neg (by rw [htwin]; exact Bool.noConfusion), h]

theorem State.handleTrap_requeue (h : responseOf r.effective = .requeue) :
    s.handleTrap n k r = if (s.core n).a.out || 64 ≤ (s.core n).requeues then s.abortOrHalt n k false
      else { s.setCore n { s.core n with run := .requeued } with
        outs := s.outs ++ [.pri n ((s.core n).faultGranule r.addr.toNat)] } := by
  unfold State.handleTrap
  dsimp only
  rw [if_neg (by rw [htwin]; exact Bool.noConfusion), h]

end

theorem State.kernelOf_names {s : State} {c : Core} {k : Kernel} (h : s.kernelOf c = some k) : c.kernel = some (k.queue, k.cid) := by
  obtain ⟨⟨q, cid⟩, hc, hk⟩ := Option.bind_eq_some_iff.1 h
  have hnames := List.find?_some hk
  rw [Bool.and_eq_true, beq_iff_eq, beq_iff_eq] at hnames
  rw [hc, hnames.1, hnames.2]

/-- R216: the core that disagreeing twin reruns leave, before the response. -/
def State.mismatched (s : State) (n : Nat) : State :=
  let s := s.logRewind n 2
  let s := { s with
    retired := if s.retired.contains (pairOf n) then s.retired else s.retired ++ [pairOf n]
    outs := s.outs ++ [Output.pairFailed (pairOf n)] }
  s.modCore n fun c =>
    c.report (TrapCode.num .signatureMismatch) c.a.pc (BitVec.ofNat 64 ((c.mx.updated.min?).getD 0)) c.a.next

theorem State.mismatched_spec (s : State) (n : Nat) :
    pairOf n ∈ (s.mismatched n).retired ∧ Output.pairFailed (pairOf n) ∈ (s.mismatched n).outs ∧
    ((s.mismatched n).core n).a.trapcode = TrapCode.num .signatureMismatch ∧
    ((s.mismatched n).core n).dbgctl = (s.core n).dbgctl ∧ (s.mismatched n).queues = s.queues := by
  have hqueues : (s.logRewind n 2).queues = s.queues := by
    unfold State.logRewind
    dsimp only
    split <;> rfl
  have hlog := s.logRewind_core n 2
  unfold State.mismatched
  generalize s.logRewind n 2 = u at hqueues hlog ⊢
  refine ⟨?_, List.mem_append_right _ (List.mem_singleton_self _), ?_, ?_, hqueues⟩
  · change pairOf n ∈ (if u.retired.contains (pairOf n) then u.retired else u.retired ++ [pairOf n])
    split
    · next h => exact List.contains_iff_mem.1 h
    · exact List.mem_append_right _ (List.mem_singleton_self _)
  · rw [State.modCore, State.core_setCore_same]
    rfl
  · rw [State.modCore, State.core_setCore_same]
    change (u.core n).dbgctl = _
    rw [hlog]

/-- Settles O34: the response of a trap's code, of the host's answer to a PRI request and of twin reruns. -/
theorem trapHandlingResults : Obligations.TrapHandlingResults := by
  unfold Obligations.TrapHandlingResults
  refine ⟨fun s r rest k => ?_, fun s n k hk => ⟨fun hrun => ⟨?_, fun h => ?_, fun h hs => ?_⟩, fun t ht hexit => ⟨fun hfirst hre => ?_, fun hfirst => ?_, fun f hfirst hne => ?_⟩⟩⟩
  · intro s' c code resumed note hreports hk
    have hcode : code = r.effective := rfl
    have hexec : exec .trapHandling s = if c.run == .trapped && k.state != .aborted then .next (s'.handleTrap r.core k r) else .next s' := by
      change execTrapHandling s = _
      unfold execTrapHandling
      rw [hreports]
      dsimp only
      rw [show ({ s with reports := rest } : State).kernelOf (({ s with reports := rest } : State).core r.core) = some k from hk]
      rfl
    refine ⟨fun h => ?_, fun hrun hstate htwin => ?_⟩
    · rw [hexec, if_neg]
      rw [Bool.and_eq_true, beq_iff_eq, bne_iff_ne]
      exact fun ⟨h1, h2⟩ => h.elim (· h1) (h2 ·)
    rw [if_pos (by rw [hrun, BEq.rfl, Bool.true_and, bne_iff_ne]; exact hstate)] at hexec
    refine ⟨fun hmem ho hre => ?_, fun hmem ho hre => ?_, fun hhost => ?_, fun hmem h => ?_, fun hmem h hs => ?_, fun hmem => ?_⟩
    · obtain ⟨herr, hrep, ha, hr, hreruns⟩ := State.handleTrap_rewind (s := s') (n := r.core) (k := k) (r := r) hrun htwin
        (responseOf_rewind (hcode ▸ hmem)) ho hre
      generalize s'.handleTrap r.core k r = t at hexec herr hrep ha hr hreruns
      have hpend : (t.core r.core).pend = some (c.notedPend r.core) := congrArg Reruns.pend hreruns
      obtain ⟨hnone, hsome⟩ := s'.noteRewind_errlog r.core
      refine ⟨t, hexec, hrep, hr, ha, congrArg Reruns.rewinds hreruns, congrArg Reruns.budget hreruns, congrArg Reruns.twin hreruns,
        fun hp => ⟨?_, herr.trans (hnone hp)⟩, fun p hp heq => ⟨?_, herr.trans ((hsome p hp).1 heq)⟩,
        fun p hp hne => ⟨?_, herr.trans (((hsome p hp).2 hne).trans ?_)⟩⟩
      · rw [hpend, Core.notedPend, hp]
        rfl
      · rw [hpend, Core.notedPend, hp]
        exact congrArg some (if_pos heq)
      · rw [hpend, Core.notedPend, hp]
        exact congrArg some (if_neg hne)
      · have hcid : c.kernel = some (k.queue, k.cid) := State.kernelOf_names hk
        have hentry : c.rewindEntry 0 = [p.entry k.cid c.lcore 0] := by rw [Core.rewindEntry, hp, hcid]; rfl
        rw [← hentry]
        rfl
    · rw [hexec, State.handleTrap_requeue (s := s') htwin (responseOf_requeue (hcode ▸ hmem))]
      exact congrArg _ (if_neg (by rw [show (s'.core r.core).a.out = false from ho,
        decide_eq_false (show ¬64 ≤ (s'.core r.core).requeues from Nat.not_le.2 hre)]; exact Bool.noConfusion))
    · rw [hexec, State.handleTrap_host (s := s') htwin (by rw [← hcode, hhost]; rfl)]
      rfl
    · rw [hexec, State.handleTrap_abort (s := s') htwin (responseOf_abort (hcode ▸ hmem))]
      exact congrArg _ (State.abortOrHalt_abort (h.imp_left fun h => ⟨rfl, h⟩))
    · rw [hexec, State.handleTrap_abort (s := s') htwin (responseOf_abort (hcode ▸ hmem))]
      exact congrArg _ (State.abortOrHalt_halt (.inr h) hs)
    · rw [hexec, State.handleTrap_debugHalt (s := s') htwin (responseOf_debugHalt (hcode ▸ hmem))]
      refine congrArg _ ?_
      cases hs : k.session
      · exact State.abortOrHalt_abort (.inr hs)
      · exact State.abortOrHalt_halt (.inl rfl) hs
  · have hnoted := s.noteRewind_core n
    have hhalted : ((s.noteRewind n).core n).run.halted? = false := by rw [hnoted]; exact hrun ▸ rfl
    obtain ⟨ha, hreruns⟩ := ((s.noteRewind n).core n).rewound_keeps ((s.core n).a.traplt + 1 - (s.core n).ck.segLt) k
    have hr := ((s.noteRewind n).core n).rewound_run ((s.core n).a.traplt + 1 - (s.core n).ck.segLt) k hhalted
    have hexec : exec (.priResponse n true) s = .next (((s.noteRewind n).rewindCore n ((s.core n).a.traplt + 1 - (s.core n).ck.segLt) k).modCore n
        fun d => { d with requeues := d.requeues + 1 }) := by
      change execPriResponse n true s = _
      simp only [execPriResponse, show s.kernelOf (s.core n) = some k from hk, hrun]
      rfl
    refine ⟨_, hexec, ?_⟩
    rw [State.modCore, State.core_setCore_same, State.rewindCore_eq, State.core_setCore_same]
    generalize ((s.noteRewind n).core n).rewound _ k = d at ha hr hreruns
    rw [hnoted] at ha hr hreruns
    exact ⟨ha, hr, congrArg (fun x => Reruns.requeues x + 1) hreruns, congrArg Reruns.budget hreruns⟩
  · have hexec : exec (.priResponse n false) s = .next (s.abortOrHalt n k false) := by
      change execPriResponse n false s = _
      simp only [execPriResponse, show s.kernelOf (s.core n) = some k from hk, hrun]
      rfl
    rw [hexec, State.abortOrHalt_abort (h.imp_left fun h => ⟨rfl, h⟩)]
  · have hexec : exec (.priResponse n false) s = .next (s.abortOrHalt n k false) := by
      change execPriResponse n false s = _
      simp only [execPriResponse, show s.kernelOf (s.core n) = some k from hk, hrun]
      rfl
    rw [hexec, State.abortOrHalt_halt (.inr h) hs]
  · have hexec : exec (.matrixTwinRerun n) s = .next ((s.errorRewind n (s.core n).a.next k).modCore n fun d =>
        { d with twin := some { first := some ((s.core n).a.next, (s.core n).a.sys.rsig), atExit := false }
                 pend := d.pend.map fun p => { p with reruns := p.reruns + 1 } }) := by
      change execMatrixTwinRerun n s = _
      simp only [execMatrixTwinRerun, ht, show s.kernelOf (s.core n) = some k from hk, hexit, hfirst, Nat.not_le.2 hre]
      rfl
    refine ⟨_, hexec, ?_⟩
    rw [State.modCore, State.core_setCore_same, State.errorRewind_core]
    obtain ⟨ha, hreruns⟩ := (s.core n).rewound_keeps (2 * ((s.core n).a.next + 1 - (s.core n).ck.segLt)) k
    generalize (s.core n).rewound _ k = d at ha hreruns
    exact ⟨ha, congrArg (fun x => Reruns.rewinds x + 1) hreruns, rfl⟩
  · have hexec : exec (.matrixTwinRerun n) s = .next ((s.logRewind n 1).modCore n fun d => { d with twin := none }) := by
      change execMatrixTwinRerun n s = _
      simp only [execMatrixTwinRerun, ht, show s.kernelOf (s.core n) = some k from hk, hexit, hfirst, BEq.rfl]
      rfl
    refine ⟨_, hexec, ?_⟩
    rw [State.modCore, State.core_setCore_same, State.logRewind_core]
    exact ⟨rfl, rfl, rfl⟩
  · obtain ⟨hret, hout, hcode, hdbg, hqueues⟩ := s.mismatched_spec n
    have hexec : exec (.matrixTwinRerun n) s = .next ((s.mismatched n).abortOrHalt n k false) := by
      change execMatrixTwinRerun n s = _
      simp only [execMatrixTwinRerun, ht, show s.kernelOf (s.core n) = some k from hk, hexit, hfirst, beq_eq_false_iff_ne.2 hne]
      rfl
    have hqueue : ((s.mismatched n).queue k.queue) = s.queue k.queue := by rw [State.queue, State.queue, hqueues]
    refine ⟨s.mismatched n, hret, hout, hcode, ?_⟩
    rw [hexec]
    split
    · next h => rw [State.abortOrHalt_halt (.inr (by rw [hqueue, hdbg]; exact h.1)) h.2]
    · next h =>
      rw [State.abortOrHalt_abort]
      rw [hqueue, hdbg]
      by_cases hs : k.session = true
      · refine .inl ⟨rfl, ?_⟩
        rw [← Bool.not_eq_true, ← Bool.not_eq_true, ← not_or]
        exact fun hor => h ⟨hor, hs⟩
      · exact .inr (Bool.not_eq_true _ ▸ hs)

end Sys2Proof.Machine
end

section
/-! PROOFS. Events of the network (R263, R288, R291, R296, R327, R345, R347, R410). -/
namespace Sys2Proof.Machine

/-- R327: a payload of the group's generation is not stale. -/
theorem fresh_of {s : State} {k g : Nat} {gen : BitVec 8} (ha : (s.group g).assigned = true) (hg : (s.group g).gen = gen) :
    ¬(!(((s.dropPacket k).group g).assigned && ((s.dropPacket k).group g).gen == gen)) = true := by
  rw [show (s.dropPacket k).group g = s.group g from rfl, ha, hg, BEq.rfl]
  exact Bool.noConfusion

section
variable {s : State} {k : Nat} {p : Packet} (hp : s.net[k]? = some p)
include hp

/-- R288, R291: a timed send that is the oldest of its channel. -/
theorem sendArrival_of {f t n : Nat} {wide : Bool} {v : Val} (hk : p.kind = .send f t wide v) (ht : s.target p = some n)
    (hc : ∀ q ∈ s.net.take k, q.sameChannel p = false) :
    ((∃ x, (s.core n).run = .halted x) ∧ (s.core n).haltLt < t →
      execSendArrival k s = .next ((s.dropPacket k).acknowledge p)) ∧
    (¬((∃ x, (s.core n).run = .halted x) ∧ (s.core n).haltLt < t) →
      (∀ s', (s.dropPacket k).land n { land := t, kind := .send f wide v } = some s' →
        execSendArrival k s = .next (s'.acknowledge p)) ∧
      ((s.dropPacket k).land n { land := t, kind := .send f wide v } = none → execSendArrival k s = .next s)) := by
  have hany : ((s.net.take k).any fun q => q.sameChannel p) = false := by
    rw [List.any_eq_false]
    exact fun q hq => by rw [hc q hq]; exact Bool.noConfusion
  refine ⟨fun ⟨⟨x, hx⟩, hlt⟩ => ?_, fun hlate => ⟨fun s' hs => ?_, fun hs => ?_⟩⟩
  all_goals
    unfold execSendArrival
    rw [hp]
    dsimp only
    rw [hk, ht]
    dsimp only
    rw [if_neg (by rw [hany]; exact Bool.noConfusion)]
  · rw [hx, if_pos (by rw [decide_eq_true hlt]; rfl)]
  all_goals
    rw [if_neg (by
      intro hcond
      rw [Bool.and_eq_true, decide_eq_true_eq] at hcond
      cases hrun : (s.core n).run with
      | halted x => exact hlate ⟨⟨x, hrun⟩, hcond.2⟩
      | _ => rw [hrun] at hcond; exact Bool.noConfusion hcond.1), hs]

theorem remoteArrival_of {a n : Nat} {kr : Kernel} (hk : p.kind = .arrive a n) (hkr : s.kernel? p.kernel = some kr) :
    execRemoteArrival k s = .next (((s.dropPacket k).acknowledge p).modMember kr p.dst fun c =>
      c.receiveUpdate { src := .remote, a := a, u := .arrive n }) := by
  simp only [execRemoteArrival, hp, hk, hkr]

/-- R410: the request empties the target's cache, and the last one completes the copy. -/
theorem icinvRequestArrival_of {kr : Kernel} (hk : p.kind = .icinv) (hkr : s.kernel? p.kernel = some kr) :
    let t := (s.dropPacket k).modMember kr p.dst fun c => { c with icache := [] }
    execIcinvRequestArrival k s = .next
      (if t.net.any fun q => q.kernel == p.kernel && q.src == p.src && q.kind == .icinv then t.sendBack p else t.acknowledge p) := by
  simp only [execIcinvRequestArrival, hp, hk, hkr]

/-! ## `pk.snd` (R327, R347) -/

section
variable {a g : Nat} {wide : Bool} {v : Val} {bar : Option Nat} {gen : BitVec 8} {kr : Kernel}
  (hk : p.kind = .pk a wide v bar g gen) (hkr : s.kernel? p.kernel = some kr)
include hk hkr

theorem pkSndArrival_stale (h : ¬((s.group g).assigned = true ∧ (s.group g).gen = gen)) :
    execPkSndArrival k none s =
      .next (((s.dropPacket k).modMember kr p.dst fun c => { c with gstale := c.gstale + 1 }).refusePk p .groupStale a) := by
  have hstale : (!((s.group g).assigned && (s.group g).gen == gen)) = true := by
    rw [Bool.not_eq_true', ← Bool.not_eq_true, Bool.and_eq_true, beq_iff_eq]
    exact h
  have harrive : (s.dropPacket k).pkArrive p =
      some (((s.dropPacket k).modMember kr p.dst fun c => { c with gstale := c.gstale + 1 }).refusePk p .groupStale a) := by
    unfold State.pkArrive
    rw [hk, show (s.dropPacket k).kernel? p.kernel = some kr from hkr]
    exact if_pos hstale
  simp only [execPkSndArrival, hp, harrive]

variable {n : Nat} (hn : kr.phys? p.dst = some n)
  (hfresh : ¬(!(((s.dropPacket k).group g).assigned && ((s.dropPacket k).group g).gen == gen)) = true)
include hn hfresh

theorem pkSndArrival_held (h : (s.core n).still = true) :
    execPkSndArrival k none s = .next ((s.dropPacket k).holdPk kr p bar) := by
  have harrive : (s.dropPacket k).pkArrive p = some ((s.dropPacket k).holdPk kr p bar) := by
    unfold State.pkArrive
    rw [hk, show (s.dropPacket k).kernel? p.kernel = some kr from hkr]
    dsimp only
    rw [if_neg hfresh, hn]
    exact if_pos h
  simp only [execPkSndArrival, hp, harrive]

theorem pkSndArrival_written (h : (s.core n).still = false)
    (hb : ∀ b ∈ pkBlocks a wide, (s.core n).landingLt (s.core n).a.lt b ≤ (s.core n).a.lt) :
    execPkSndArrival k none s = .next ((s.dropPacket k).deliverPk p n a wide v bar false) := by
  have hmax : ∀ (l : List Nat) x, x ≤ (s.core n).a.lt → (∀ b ∈ l, (s.core n).landingLt (s.core n).a.lt b ≤ (s.core n).a.lt) →
      l.foldl (fun x b => Nat.max x ((s.core n).landingLt (s.core n).a.lt b)) x ≤ (s.core n).a.lt := by
    intro l
    induction l with
    | nil => exact fun _ hx _ => hx
    | cons b l ih => exact fun x hx hl => ih _ (Nat.max_le.2 ⟨hx, hl b List.mem_cons_self⟩) fun y hy => hl y (List.mem_cons_of_mem _ hy)
  have hlt : ¬(s.core n).a.lt < (s.core n).pkLandingLt a wide := Nat.not_lt.2 (hmax _ _ (Nat.le_refl _) hb)
  have harrive : (s.dropPacket k).pkArrive p = some ((s.dropPacket k).deliverPk p n a wide v bar false) := by
    unfold State.pkArrive
    rw [hk, show (s.dropPacket k).kernel? p.kernel = some kr from hkr]
    dsimp only
    rw [if_neg hfresh, hn]
    dsimp only
    rw [if_neg (show ¬((s.dropPacket k).core n).still = true by rw [show ((s.dropPacket k).core n).still = false from h]; exact Bool.noConfusion)]
    exact if_neg hlt
  simp only [execPkSndArrival, hp, harrive]

end

/-! ## Triggers (R344, R345) -/

theorem coreTriggerArrival_waits (hk : p.kind = .trigger) (h : s.packetPasses p = false) : execCoreTriggerArrival k s = .next s := by
  unfold execCoreTriggerArrival
  rw [hp]
  dsimp only
  rw [hk]
  split
  · rw [if_pos (by rw [h]; rfl)]
    rfl
  · rfl

section
variable {n id : Nat} {kr : Kernel} {c : Copy} (hk : p.kind = .trigger) (hs : s.sender p = some (n, id))
  (hkr : s.kernel? p.kernel = some kr) (hc : (s.core n).copy? id = some c) (hpass : s.packetPasses p = true)
include hk hs hkr hc hpass

theorem coreTriggerArrival_base {h set ext : Nat} {addr : W64} {pl : Plan} (hop : c.op = .clBase h set ext addr) (hpl : s.plan h = some pl) :
    execCoreTriggerArrival k s = .next
      (if pl.liveFor kr.ctx then
        ((s.dropPacket k).setPlan h { pl with bases := SMap.set 0 pl.bases (8 * set + ext) addr.toNat }).acknowledge p
      else ((s.dropPacket k).sendBack p).setCore n ((s.core n).failCopy c .plan c.word)) := by
  have hc' : ((s.dropPacket k).core n).copy? id = some c := hc
  have hpl' : (s.dropPacket k).plan h = some pl := hpl
  cases hlive : pl.liveFor kr.ctx <;>
    simp only [execCoreTriggerArrival, hp, hk, hs, hkr, hpass, hc', hop, hpl', hlive] <;> rfl

theorem coreTriggerArrival_fire {v : W64} {pl : Plan} (hop : c.op = .clFire v) (hpl : s.plan (fld v 15 0) = some pl)
    (hq : pl.queue ≠ kr.queue) :
    (s.judge v = .accepted → execCoreTriggerArrival k s = .next
      (if pl.ctx = kr.ctx then (s.dropPacket k).queueFire v none (some ((kr.queue, kr.cid), (s.core n).lcore, id))
      else ((s.dropPacket k).sendBack p).setCore n ((s.core n).failCopy c .plan c.word))) ∧
    (s.judge v = .duplicate → execCoreTriggerArrival k s = .next ((s.dropPacket k).acknowledge p)) ∧
    (s.judge v = .refused → execCoreTriggerArrival k s =
      .next (((s.dropPacket k).sendBack p).setCore n ((s.core n).failCopy c .plan c.word))) := by
  have hc' : ((s.dropPacket k).core n).copy? id = some c := hc
  have hpl' : (s.dropPacket k).plan (fld v 15 0) = some pl := hpl
  have hj : (s.dropPacket k).judge v = s.judge v := rfl
  refine ⟨fun h => ?_, fun h => ?_, fun h => ?_⟩ <;>
    simp only [execCoreTriggerArrival, hp, hk, hs, hkr, hpass, hc', hop, hpl', beq_eq_false_iff_ne.2 hq, hj, h] <;>
    try simp only [beq_iff_eq]
  all_goals rfl

end

end

/-- R327, R347: a refusal on the network fails the copy that it is for. -/
theorem pkSndRefusal_of {s : State} {n id : Nat} {k : Copy} {desc : W64} {gen : BitVec 8} {wide : Bool} {v : Val} {p : Packet}
    {code : TrapCode} {a : Nat} (hk : (s.core n).copy? id = some k) (hop : k.op = .pkSnd desc gen wide v)
    (hp : s.net.find? (fun p => s.sender p == some (n, id) && match p.kind with | .refusal .. => true | _ => false) = some p)
    (hkind : p.kind = .refusal code a) :
    execPkSndRefusal n id s =
      .next (({ s with net := s.net.erase p } : State).setCore n ((s.core n).failCopy k code a)) := by
  unfold execPkSndRefusal
  dsimp only
  rw [hk]
  dsimp only
  rw [hop]
  dsimp only
  split
  · next p' hfound =>
    obtain rfl : p' = p := Option.some.inj (hfound.symm.trans hp)
    rw [hkind]
  · next hfound => exact nomatch hfound.symm.trans hp

/-- Settles O35: each packet by its kind. -/
theorem networkEventResults : Obligations.NetworkEventResults := by
  unfold Obligations.NetworkEventResults
  refine ⟨fun s k p hp => ?_, fun s n id k desc gen wide v hk hop => ⟨fun p code a hfind hkind => pkSndRefusal_of hk hop hfind hkind,
    fun hno hst hpkg hh => ?_⟩⟩
  · intro gone
    refine ⟨fun f t wide v n hk ht hc => ?_, fun a n kr hk hkr => remoteArrival_of hp hk hkr, fun a wide v bar g gen kr hk hkr => ⟨fun h => ?_,
      fun ha hg n hn => ⟨fun h => ?_, fun h hb => ?_⟩⟩, fun kr hk hkr => icinvRequestArrival_of hp hk hkr,
      fun hk h => coreTriggerArrival_waits hp hk h, fun n id kr c hk hs hkr hc hpass => ⟨fun h set ext addr pl hop hpl => ?_, fun v pl hop hpl hq => ?_⟩⟩
    · obtain ⟨hlate, hother⟩ := sendArrival_of hp hk ht hc
      exact ⟨hlate, fun h => (hother h).1, fun h => (hother h).2⟩
    · exact pkSndArrival_stale hp hk hkr h
    · exact pkSndArrival_held hp hk hkr hn (fresh_of ha hg) h
    · exact pkSndArrival_written hp hk hkr hn (fresh_of ha hg) h hb
    · exact coreTriggerArrival_base hp hk hs hkr hc hpass hop hpl
    · obtain ⟨hacc, hdup, href⟩ := coreTriggerArrival_fire hp hk hs hkr hc hpass hop hpl hq
      cases hj : s.judge v with
      | accepted => exact hacc hj
      | duplicate => exact hdup hj
      | refused => exact href hj
  · have hnone : s.net.find? (fun p => s.sender p == some (n, id) && match p.kind with | .refusal .. => true | _ => false) = none := by
      rw [List.find?_eq_none]
      intro p hp hcond
      rw [Bool.and_eq_true] at hcond
      cases hkind : p.kind with
      | refusal code a => exact hno p hp code a hkind
      | _ => rw [hkind] at hcond; exact Bool.noConfusion hcond.2
    change execPkSndRefusal n id s = _
    unfold execPkSndRefusal
    dsimp only
    rw [hk]
    dsimp only
    rw [hop]
    dsimp only
    split
    · next p' hfound => exact nomatch hfound.symm.trans hnone
    · exact eventIf_true (by rw [hh, hst, bne_iff_ne.2 hpkg]; rfl)

end Sys2Proof.Machine
end

section
/-! PROOFS. Events of the copy engines (R257-R263, R267-R271, R300). -/
namespace Sys2Proof.Machine

theorem Core.copy?_id {c : Core} {id : Nat} {k : Copy} (h : c.copy? id = some k) : k.id = id := by
  simpa only [beq_iff_eq] using List.find?_some h

/-! ## Starts (R257) -/

/-- A state that differs in what leaves over rails alone. -/
def State.Sends (s t : State) : Prop := ∃ outs fresh sent,
  t = { s with outs := s.outs ++ outs, fresh := fresh, retransmit := s.retransmit ++ sent }

theorem State.Sends.refl (s : State) : s.Sends s := ⟨[], s.fresh, [], by rw [List.append_nil, List.append_nil]⟩

theorem State.Sends.trans {s t u : State} (h1 : s.Sends t) (h2 : t.Sends u) : s.Sends u := by
  obtain ⟨o1, f1, r1, rfl⟩ := h1
  obtain ⟨o2, f2, r2, rfl⟩ := h2
  exact ⟨o1 ++ o2, f2, r1 ++ r2, by simp only [List.append_assoc]⟩

theorem State.transmit_sends (s : State) (number : Option Nat) (g : Nat) (xor : Bool) (bs : List Beat512) (what : List Output) :
    s.Sends (s.transmit number g xor bs what) := by
  unfold State.transmit
  dsimp only
  by_cases h : s.groupUp g = true
  · simp only [h, ↓reduceIte]
    exact ⟨_, _, _, rfl⟩
  · simp only [h, Bool.false_eq_true, ↓reduceIte]
    exact ⟨[], s.fresh + 1, _, by rw [List.append_nil s.outs]⟩

theorem State.crossDie_sends (s : State) (a b : Nat) (bs : List Beat512) : s.Sends (s.crossDie a b bs) :=
  ite_keeps (P := s.Sends) (.refl s) (s.transmit_sends ..)

theorem State.foldl_sends {α : Type} {f : State → α → State} (hf : ∀ (t : State) x, t.Sends (f t x)) (l : List α) (s : State) :
    s.Sends (l.foldl f s) :=
  foldl_keeps (P := s.Sends) (fun t x h => h.trans (hf t x)) l s (.refl s)

theorem State.enterFabric_sends (s : State) (n : Nat) (k : Copy) : s.Sends (s.enterFabric n k) := by
  unfold State.enterFabric
  split
  · exact s.transmit_sends ..
  · refine State.foldl_sends (fun t j => ?_) _ s
    split
    · exact t.transmit_sends ..
    · exact .refl t

/-- The packets of a copy are those of the groups and of the package's number alone. -/
theorem State.packetsOf_sends {s t : State} (h : s.Sends t) (c : Core) (kr : Kernel) (k : Copy) : t.packetsOf c kr k = s.packetsOf c kr k := by
  obtain ⟨_, _, _, rfl⟩ := h
  rfl

section
variable {s : State} {n : Nat} {kr : Kernel} {k : Copy}

/-- The packets with which a copy of a core leaves. -/
def State.leaving (s : State) (n : Nat) (kr : Kernel) (k : Copy) : List Packet :=
  (s.packetsOf (s.core n) kr k).map fun e => { kind := e.1, src := some ((s.core n).lcore, k.id), dst := e.2, kernel := (kr.queue, kr.cid) }

theorem State.startCopy_unreachable (ha : (s.core n).toPeer k = true ∨ s.pkAway k = true) (hr : s.canReach = false) :
    s.startCopy n kr k = s.setCore n ((s.core n).failCopy k .windowPerm
      (match k.op with | .pkSnd d _ _ _ => pkAddr d | _ => k.firstAddr)) := by
  unfold State.startCopy
  exact if_pos (by rw [hr, Bool.or_eq_true_iff.2 ha]; rfl)

theorem State.startCopy_here (ha : ¬((s.core n).toPeer k = true ∨ s.pkAway k = true)) :
    ∃ outs fresh sent, s.startCopy n kr k = { s.setCore n ((s.core n).setCopy { k with state := .started }) with
      net := s.net ++ s.leaving n kr k, outs := s.outs ++ outs, fresh := fresh, retransmit := s.retransmit ++ sent } := by
  have hno : ((s.core n).toPeer k || s.pkAway k) = false := by
    rw [← Bool.not_eq_true, Bool.or_eq_true]
    exact ha
  unfold State.startCopy
  simp only [hno, Bool.false_and, Bool.false_eq_true, ↓reduceIte]
  have hsends := State.foldl_sends (f := fun s p => s.crossDie (dieOf n) (if p.kind == .trigger then 0 else kr.dies.getD p.dst 0) p.kind.beats)
    (fun t x => t.crossDie_sends ..) (s.leaving n kr k) (s.setCore n ((s.core n).setCopy { k with state := .started }))
  obtain ⟨outs, fresh, sent, h⟩ := hsends
  refine ⟨outs, fresh, sent, ?_⟩
  rw [show ((s.setCore n ((s.core n).setCopy { k with state := .started })).packetsOf (s.core n) kr k) = s.packetsOf (s.core n) kr k from rfl]
  unfold State.leaving at h ⊢
  rw [h]
  rfl

theorem State.startCopy_fabric (ha : (s.core n).toPeer k = true ∨ s.pkAway k = true) (hr : s.canReach = true)
    (hp : s.leaving n kr k = []) :
    s.startCopy n kr k = (s.setCore n ((s.core n).setCopy { k with state := .started })).enterFabric n k := by
  have hyes : ((s.core n).toPeer k || s.pkAway k) = true := Bool.or_eq_true_iff.2 ha
  have hnone : s.packetsOf (s.core n) kr k = [] := List.map_eq_nil_iff.1 hp
  unfold State.startCopy
  simp only [hyes, hr, Bool.not_true, Bool.and_false, Bool.false_eq_true, ↓reduceIte]
  rw [State.packetsOf_sends (State.enterFabric_sends _ n k),
    show ((s.setCore n ((s.core n).setCopy { k with state := .started })).packetsOf (s.core n) kr k) = s.packetsOf (s.core n) kr k from rfl,
    hnone, List.map_nil, List.foldl_nil, List.append_nil]

theorem copyStart_of {id : Nat} (hk : (s.core n).copy? id = some k) (hr : s.kernelOf (s.core n) = some kr)
    (hc : (s.core n).canStart k = true) (hs : (s.core n).still = false) (hi : (s.core n).run ≠ .idle) (hl : s.linkFor n k = true)
    (hd : k.isWrite = false ∨ (s.core n).toPeer k = false ∨ ∀ b ∈ k.beats, b.data.isSome = true) :
    execCopyStart n id s = .next (s.startCopy n kr k) := by
  have hhere : (s.core n).operandsHere k = true := by
    unfold Core.operandsHere
    obtain h | h | h := hd
    · rw [h]; rfl
    · rw [h, Bool.and_false]; rfl
    · rw [List.all_eq_true.2 h, Bool.or_true]
  unfold execCopyStart
  dsimp only
  rw [hk, hr]
  exact eventIf_true (by rw [hc, hs, hhere, bne_iff_ne.2 hi, hl]; rfl)

end

/-! ## Beats (R258, R260, R263, R268) -/

section
variable {s : State} {n id j : Nat} {k : Copy} {b : Beat} (hk : (s.core n).copy? id = some k) (hb : k.beats[j]? = some b)
  (hst : k.state = .started)
include hk hb hst

/-- R258, R262: a read beat that is here lands. -/
theorem copyBeatDone_read {x d : BeatData} (hr : k.isRead = true) (hop : k.op ≠ .scrub) (ht : k.timed = none) (hs : (s.core n).still = false)
    (hdue : (s.core n).beatDue id j = false) (hd : s.readBeat (s.core n) k b x = some d) :
    execCopyBeatDone n id j x s =
      .next { s.setCore n ((s.core n).landUntimed k j b d) with outs := s.outs ++ (s.core n).peerAsk k j b } := by
  unfold execCopyBeatDone
  dsimp only
  rw [hk]
  dsimp only
  rw [hb]
  dsimp only
  rw [if_neg (by rw [hst]; exact Bool.noConfusion), if_pos (by rw [hr, beq_eq_false_iff_ne.2 hop]; rfl),
    if_neg (by rw [ht, hs, hdue]; exact Bool.noConfusion), hd]

theorem copyBeatDone_sent {x : BeatData} (hr : k.isRead = false) (hop : ∀ d g w v, k.op ≠ .pkSnd d g w v) (hsent : b.state = .sent) :
    execCopyBeatDone n id j x s = .next (s.setCore n ((s.core n).finishBeat id j)) := by
  have hwrite : s.writeBeat n k j b = some (s.setCore n ((s.core n).finishBeat id j)) := by
    rw [State.writeBeat, hsent, Core.copy?_id hk]
  unfold execCopyBeatDone
  dsimp only
  rw [hk]
  dsimp only
  rw [hb]
  dsimp only
  rw [if_neg (by rw [hst]; exact Bool.noConfusion), if_neg (by rw [hr]; exact Bool.noConfusion)]
  split
  · next d g w v heq => exact absurd heq (hop d g w v)
  · rw [hwrite]

/-- R260, R263: a timed beat lands, or is read again. -/
theorem timedBeatArrival_of {t : Nat} {d : BeatData} (ht : k.timed = some t) (hd : b.state = .coming d) (hs : (s.core n).still = false) :
    (∀ s', (s.setCore n ((s.core n).setCopy (k.setBeat j { b with state := .sent }))).land n { land := t, kind := .beat id j d } = some s' →
      execTimedBeatArrival n id j s = .next s') ∧
    ((s.setCore n ((s.core n).setCopy (k.setBeat j { b with state := .sent }))).land n { land := t, kind := .beat id j d } = none →
      execTimedBeatArrival n id j s = .next (s.setCore n ((s.core n).setCopy (k.setBeat j { b with state := .waiting })))) := by
  have hsettled : k.settled = false := by rw [Copy.settled, hst]
  refine ⟨fun s' h => ?_, fun h => ?_⟩
  all_goals
    unfold execTimedBeatArrival
    dsimp only
    rw [hk]
    dsimp only
    rw [ht, hb]
    dsimp only
    rw [hd]
    dsimp only
    rw [if_neg (by rw [hsettled, hs]; exact Bool.noConfusion), h]

/-- R268: a peer package refuses the access of a beat. -/
theorem peerAccessRefusal_of {w pa : Nat} (hw : b.w = some w) (hpa : b.pa = some pa) (hwait : b.state = .waiting)
    (hkind : (s.core n).kindOf w = 3) (hclear : (s.core n).blockClear k b = true) (hh : s.hears = true) :
    execPeerAccessRefusal n id j s = .next
      { s.setCore n ((s.core n).refuseBeats k (fun x => x == b) .windowPerm) with
        retransmit := s.retransmit.filter fun e => e.number != beatNumber n id j
        outs := s.outs ++ [.peerRequest ((s.core n).peerOf w) pa (k.peerOp j (match b.data with | some d => d.bits | none => 0))] } := by
  have hask : (s.core n).peerAsk k j b =
      [.peerRequest ((s.core n).peerOf w) pa (k.peerOp j (match b.data with | some d => d.bits | none => 0))] := by
    unfold Core.peerAsk
    rw [hw, hpa]
    exact if_pos (by rw [hkind, hwait]; rfl)
  unfold execPeerAccessRefusal
  dsimp only
  rw [hk]
  dsimp only
  rw [hb]
  dsimp only
  rw [← hask]
  exact eventIf_true (by rw [hh, hst, hwait, hw, show (some w).getD 0 = w from rfl, hkind, hclear]; rfl)

end

/-- R262: no request to a peer is made for a beat that is not waiting. -/
theorem Core.peerAsk_coming {c : Core} {k : Copy} {j : Nat} {b : Beat} {d : BeatData} (h : b.state = .coming d) : c.peerAsk k j b = [] := by
  unfold Core.peerAsk
  split
  · exact if_neg (by rw [h, Bool.and_eq_true]; exact fun h => Bool.noConfusion h.2)
  · rfl

theorem Core.peerAsk_waiting {c : Core} {k : Copy} {j w pa : Nat} {b : Beat} (hs : b.state = .waiting) (hw : b.w = some w)
    (hpa : b.pa = some pa) (hkind : c.kindOf w = 3) :
    c.peerAsk k j b = [.peerRequest (c.peerOf w) pa (k.peerOp j (match b.data with | some d => d.bits | none => 0))] := by
  unfold Core.peerAsk
  rw [hw, hpa]
  exact if_pos (by rw [hkind, hs]; rfl)

theorem State.readBeat_coming {s : State} {c : Core} {k : Copy} {b : Beat} {d x : BeatData} (h : b.state = .coming d) :
    s.readBeat c k b x = some d := by
  rw [State.readBeat, h]

theorem State.readBeat_peer {s : State} {c : Core} {k : Copy} {b : Beat} {x : BeatData} {w pa : Nat} (h : b.state = .waiting)
    (hw : b.w = some w) (hpa : b.pa = some pa) (hkind : c.kindOf w = 3) (hclear : c.blockClear k b = true) (hh : s.hears = true) :
    s.readBeat c k b x = some x := by
  simp only [State.readBeat, h, hw, hpa, hkind, hclear, hh]
  rfl

/-! ## Failures (R267, R270) -/

theorem Core.setCopy_copy? {c : Core} {k k' : Copy} {id : Nat} (h : c.copy? id = some k) (hid : k'.id = id) :
    (c.setCopy k').copy? id = some k' := by
  have hk := Core.copy?_id h
  subst hid
  unfold Core.copy? at h
  simp only [Core.setCopy, Core.copy?]
  generalize c.copies = ks at h
  induction ks with
  | nil => exact nomatch h
  | cons x ks ih =>
    rw [List.map_cons, List.find?_cons]
    rw [List.find?_cons] at h
    by_cases hx : (x.id == k'.id) = true
    · simp only [hx, ↓reduceIte, BEq.rfl]
    · simp only [hx, Bool.false_eq_true, ↓reduceIte] at h ⊢
      exact ih h

theorem Core.copy?_barFrame {c c' : Core} (h : c.BarFrame c') (id : Nat) : c'.copy? id = c.copy? id := by
  rw [Core.copy?, h.copies]
  rfl

/-- R256: a copy that fails has the code and the address. -/
theorem Core.failCopy_copy? {c : Core} {k k' : Copy} {id : Nat} (h : c.copy? id = some k) (hid : k'.id = id) (hs : k'.settled = false)
    (code : TrapCode) (a : Nat) :
    (c.failCopy k' code a).copy? id = some { k' with state := .failed code (BitVec.ofNat 64 a) } := by
  unfold Core.failCopy
  rw [if_neg (by rw [hs]; exact Bool.noConfusion)]
  dsimp only
  rw [Core.copy?_barFrame (Core.copyUpdate_frame _ _ _)]
  exact Core.setCopy_copy? h hid

/-- R267, R270: the beats refused name the first failing address. -/
theorem Core.refuseBeats_copy? {c : Core} {k : Copy} {id : Nat} {which : Beat → Bool} {code : TrapCode} {pre post : List Beat} {b : Beat}
    {w : Nat} (h : c.copy? id = some k) (hs : k.settled = false) (hno : ∀ x ∈ k.beats, ∀ e, x.state ≠ .refused e)
    (hbeats : k.beats = pre ++ b :: post) (hpre : ∀ x ∈ pre, which x = false) (hb : which b = true) (hw : b.w = some w) :
    ∃ k', (c.refuseBeats k which code).copy? id = some k' ∧ k'.state = .failed code (BitVec.ofNat 64 w) := by
  let k1 : Copy := { k with beats := k.beats.map fun b => if which b then { b with state := .refused code } else b }
  have hany : k.beats.any which = true := by
    rw [hbeats, List.any_eq_true]
    exact ⟨b, List.mem_append_right _ List.mem_cons_self, hb⟩
  have hfirst : k1.firstRefusal = some (code, w) := by
    have hmap : k1.beats = pre ++ { b with state := .refused code } :: post.map fun b => if which b then { b with state := .refused code } else b := by
      simp only [k1, hbeats, List.map_append, List.map_cons, hb, ↓reduceIte]
      congr 1
      refine (List.map_congr_left fun x hx => ?_).trans (List.map_id pre)
      rw [hpre x hx]
      rfl
    have hnone : pre.findSome? (fun b => match b.state with | .refused code => some (code, b.w.getD 0) | _ => none) = none := by
      rw [List.findSome?_eq_none_iff]
      intro x hx
      cases hstate : x.state with
      | refused e => exact absurd hstate (hno x (by rw [hbeats]; exact List.mem_append_left _ hx) e)
      | _ => rfl
    unfold Copy.firstRefusal
    rw [hmap, List.findSome?_append, List.findSome?_cons]
    refine (congrArg (Option.or · _) hnone).trans ?_
    simp only [hw]
    rfl
  have hid : k1.id = id := by
    have hkid := Core.copy?_id h
    exact hkid
  have hset : (c.setCopy k1).copy? id = some k1 := Core.setCopy_copy? h hid
  have hrefuse : c.refuseBeats k which code = (c.setCopy k1).failCopy k1 code w := by
    unfold Core.refuseBeats
    rw [if_neg (by rw [hany]; exact Bool.noConfusion)]
    dsimp only
    rw [show ({ k with beats := k.beats.map fun b => if which b then { b with state := .refused code } else b } : Copy).firstRefusal = some (code, w) from hfirst]
    split
    · next hst hsome => rw [Copy.settled, hst] at hs; exact Bool.noConfusion hs
    · next c' a' hsome hother => cases hsome; rfl
    · next hnone => exact nomatch hnone
  rw [hrefuse]
  exact ⟨_, Core.failCopy_copy? hset hid hs code w, rfl⟩

/-! ## Translations (R267, R269, R271) -/

theorem Core.foldl_copyFrame {α : Type} {f : Core → α → Core} (hf : ∀ (d : Core) x, d.CopyFrame (f d x)) (l : List α) (c : Core) :
    c.CopyFrame (l.foldl f c) :=
  foldl_keeps (P := c.CopyFrame) (fun d x h => h.trans (hf d x)) l c (.refl c)

theorem Core.refuseBeats_frame (c : Core) (k : Copy) (which : Beat → Bool) (code : TrapCode) : c.CopyFrame (c.refuseBeats k which code) :=
  (Core.CopyKeeps.refuseBeats (N := 0) (P := fun _ => True) (fun _ _ _ _ _ => trivial) c k which code fun _ => trivial).1

theorem Core.failGranule_frame (c : Core) (w g : Nat) (code : TrapCode) : c.CopyFrame (c.failGranule w g code) :=
  Core.foldl_copyFrame (fun d k => ite_keeps (P := d.CopyFrame) (d.refuseBeats_frame k _ code) (.refl d)) _ c

theorem Core.applyTranslation_frame (c : Core) (t : Translation) : c.CopyFrame (c.applyTranslation t) :=
  (Core.CopyKeeps.applyTranslation (N := 0) (P := fun _ => True) (fun _ _ _ _ _ => trivial) c t).1

theorem Core.CopyFrame.ahead {c c' : Core} (h : c.CopyFrame c') : c'.ahead = c.ahead := by
  obtain ⟨_, _, _, _, _, _, _, rfl⟩ := h
  rfl

/-- R267: a copy that has not ended and whose beat waits for a granule wants it. -/
theorem State.wantsGranule_of {s : State} {n id w g : Nat} {k : Copy} (hk : (s.core n).copy? id = some k) (hs : k.settled = false)
    (hb : ∃ b ∈ k.beats, (s.core n).awaits b w g = true) : s.wantsGranule n w g = true := by
  have htr : k.translates = true := by
    unfold Copy.translates
    unfold Copy.settled at hs
    split at hs
    · exact Bool.noConfusion hs
    · exact Bool.noConfusion hs
    · exact Bool.noConfusion hs
    · next h1 h2 h3 => 
      split
      · next h => exact absurd h h1
      · next h => exact absurd h h3
      · rfl
  have hany : ((s.core n).copies.any fun k => k.translates && k.beats.any fun b => (s.core n).awaits b w g) = true :=
    List.any_eq_true.2 ⟨k, List.mem_of_find?_eq_some hk, Bool.and_eq_true_iff.2 ⟨htr, List.any_eq_true.2 hb⟩⟩
  unfold State.wantsGranule
  dsimp only
  rw [hany, Bool.or_true]

section
variable {s : State} {n w g : Nat}

/-- R267: the refusal of a granule that no fetch waits for fails the copies that do. -/
theorem State.refuseGranule_copies {copy fetch : TrapCode} (hf : s.fetchWaits n ≠ some (w, g)) (ha : (s.core n).ahead ≠ some (w, g)) :
    s.refuseGranule n w g copy fetch = s.setCore n ((s.core n).failGranule w g copy) := by
  have hahead := ((s.core n).failGranule_frame w g copy).ahead
  unfold State.refuseGranule
  dsimp only
  simp only [beq_eq_false_iff_ne.2 hf, beq_eq_false_iff_ne.2 ha, Bool.false_and, Bool.or_self, Bool.false_eq_true, ↓reduceIte, hahead]
  rw [← hahead]

theorem State.settleGranule_translated {pa : Nat} {r wr x : Bool} (ha : (s.core n).ahead ≠ some (w, g)) :
    s.settleGranule n w g (some (.translated pa r wr x)) = s.setCore n
      (((s.core n).cacheTranslation { w := w, granule := g, pa := pa, read := r, write := wr, exec := x }).applyTranslation
        { w := w, granule := g, pa := pa, read := r, write := wr, exec := x }) := by
  have hahead : (((s.core n).cacheTranslation { w := w, granule := g, pa := pa, read := r, write := wr, exec := x }).applyTranslation
      { w := w, granule := g, pa := pa, read := r, write := wr, exec := x }).ahead = (s.core n).ahead :=
    (Core.applyTranslation_frame _ _).ahead
  unfold State.settleGranule State.modCore
  dsimp only
  rw [if_neg (by rw [beq_eq_false_iff_ne.2 ha]; exact Bool.noConfusion), ← hahead]

theorem atsCompletion_plain {v : AtsVerdict} (hw : s.wantsGranule n w g = true) (hc : ((s.core n).window w).crit = false) :
    execAtsCompletion n w g v s = .next (s.settleGranule n w g (some v)) := by
  unfold execAtsCompletion
  dsimp only
  rw [if_neg (by rw [hw]; exact Bool.noConfusion), if_neg (by rw [hc]; exact Bool.noConfusion)]

end

/-- R269: what an invalidation leaves of a list of cores. -/
theorem get_of_mem_nodup {α : Type} {d x : α} {m : SMap α} {n : Nat} (h : (m.map Prod.fst).Nodup) (hm : (n, x) ∈ m) : SMap.get d m n = x := by
  induction m with
  | nil => exact absurd hm List.not_mem_nil
  | cons e m ih =>
    obtain ⟨k, y⟩ := e
    rw [List.map_cons, List.nodup_cons] at h
    rw [SMap.get]
    obtain heq | hm := List.mem_cons.1 hm
    · cases heq
      exact if_pos rfl
    · rw [if_neg fun heq => h.1 (List.mem_map.2 ⟨(n, x), hm, heq.symm⟩)]
      exact ih h.2 hm

theorem get_of_not_mem {α : Type} {d : α} {m : SMap α} {n : Nat} (h : n ∉ m.map Prod.fst) : SMap.get d m n = d := by
  induction m with
  | nil => rfl
  | cons e m ih =>
    rw [List.map_cons, List.mem_cons, not_or] at h
    rw [SMap.get, if_neg (Ne.symm h.1)]
    exact ih h.2

/-- R269: a core without its translations of a granule. -/
def invalidated (g : Nat) (m : SMap Core) (e : Nat × Core) : SMap Core :=
  SMap.set .reset m e.1 { e.2 with tlb := e.2.tlb.filter fun t => t.granule != g }

/-- R269: no core holds a translation of a granule that the host has invalidated. -/
theorem atsInvalidation_of {s : State} {g : Nat} (h : ∀ n, ∀ k ∈ (s.core n).copies, (s.core n).usesGranule k g = false)
    (hn : (s.cores.map Prod.fst).Nodup) :
    ∃ t, execAtsInvalidation g s = .next t ∧
      ∀ n, t.core n = { s.core n with tlb := (s.core n).tlb.filter fun x => x.granule != g } := by
  have hcond : (s.cores.all fun (_, c) => c.copies.all fun k => !c.usesGranule k g) = true := by
    rw [List.all_eq_true]
    intro e he
    rw [List.all_eq_true]
    intro k hk
    have hcore : s.core e.1 = e.2 := get_of_mem_nodup hn he
    rw [Bool.not_eq_true', ← hcore]
    exact h e.1 k (hcore ▸ hk)
  refine ⟨_, eventIf_true hcond, fun n => ?_⟩
  change SMap.get .reset (s.cores.foldl (invalidated g) s.cores) n = _
  by_cases hmem : n ∈ s.cores.map Prod.fst
  · obtain ⟨⟨m, c⟩, hc, rfl⟩ := List.mem_map.1 hmem
    have hcore : s.core m = c := get_of_mem_nodup hn hc
    rw [hcore]
    refine foldl_read_same (step := invalidated g) (r := fun x : SMap Core => SMap.get .reset x m) hc (fun q x hx hne => SMap.get_set_other _ _ _ fun heq => ?_)
      (fun q => SMap.get_set_same _ _ _ _) _
    exact hne (Prod.ext heq.symm ((get_of_mem_nodup hn hx).symm.trans ((congrArg s.core heq.symm).trans hcore)))
  · have hcore : s.core n = .reset := get_of_not_mem hmem
    rw [hcore]
    have hkeys : ∀ q : SMap Core, ∀ x ∈ s.cores, SMap.get .reset (invalidated g q x) n = SMap.get .reset q n :=
      fun q x hx => SMap.get_set_other _ _ _ fun (heq : n = x.1) => hmem (by rw [heq]; exact List.mem_map.2 ⟨x, hx, rfl⟩)
    have hother := foldl_read_other (step := invalidated g) (r := fun x : SMap Core => SMap.get .reset x n) hkeys s.cores
    exact hother.trans hcore

/-- Settles O37: the events of a copy, each by the state it finds the copy and its beat in. -/
theorem copyEventResults : Obligations.CopyEventResults := by
  unfold Obligations.CopyEventResults
  refine ⟨fun s n id k hk => ?_, fun s g h hn => ?_⟩
  · intro c
    refine ⟨fun kr hr hc hs hi hl hd => ?_, fun j b hb hst => ⟨fun d hr hop ht hs hdue hd x => ?_, fun w pa hr hop ht hs hdue hwait hw hpa hkind hclear hh x => ?_,
      fun hr hop hsent x => copyBeatDone_sent hk hb hst hr hop hsent, fun t d ht hd hs => timedBeatArrival_of hk hb hst ht hd hs,
      fun w pa hw hpa hwait hkind hclear hh => peerAccessRefusal_of hk hb hst hw hpa hwait hkind hclear hh⟩,
      fun which code pre post b w hs hno hbeats hpre hb hw => Core.refuseBeats_copy? hk hs hno hbeats hpre hb hw, fun hst hh hf => ?_,
      fun w g hs hb => ⟨fun hc hf ha => ⟨fun pa r wr x => ?_, ?_, ?_⟩, fun v hc => ?_⟩⟩
    · refine ⟨copyStart_of hk hr hc hs hi hl hd, fun ha hreach => State.startCopy_unreachable ha hreach, fun ha => State.startCopy_here ha,
        fun ha hreach hp => State.startCopy_fabric ha hreach hp⟩
    · refine (copyBeatDone_read hk hb hst hr hop ht hs hdue (State.readBeat_coming hd)).trans ?_
      rw [Core.peerAsk_coming hd, List.append_nil]
      rfl
    · exact copyBeatDone_read hk hb hst hr hop ht hs hdue (State.readBeat_peer hwait hw hpa hkind hclear hh)
    · change execFlushingReadComplete n id s = _
      unfold execFlushingReadComplete
      dsimp only
      rw [hk]
      exact eventIf_true (by rw [hst, show (s.core n).toHost k = true from hh, hf]; rfl)
    · exact (atsCompletion_plain (State.wantsGranule_of hk hs hb) hc).trans (congrArg _ (State.settleGranule_translated ha))
    · exact (atsCompletion_plain (State.wantsGranule_of hk hs hb) hc).trans (congrArg _ (State.refuseGranule_copies hf ha))
    · exact (atsCompletion_plain (State.wantsGranule_of hk hs hb) hc).trans (congrArg _ (State.refuseGranule_copies hf ha))
    · change execAtsCompletion n w g v s = _
      unfold execAtsCompletion Core.pairAnswer
      dsimp only
      rw [if_neg (by rw [State.wantsGranule_of hk hs hb]; exact Bool.noConfusion), if_pos (show ((s.core n).window w).crit = true from hc)]
      cases hfind : (s.core n).pairs.find? fun p => p.w == w && p.granule == g with
      | none => rfl
      | some p =>
        dsimp only
        cases hfirst : p.first with
        | none => rfl
        | some u =>
          dsimp only
          by_cases hu : u = v
          · rw [if_pos (beq_iff_eq.2 hu), if_pos hu]
          · rw [if_neg (mt beq_iff_eq.1 hu), if_neg hu]
            cases p.again <;> rfl
  · obtain ⟨t, ht, hcore⟩ := atsInvalidation_of h hn
    exact ⟨t, ht, fun n => by rw [hcore n]; exact ⟨rfl, rfl, rfl⟩⟩

end Sys2Proof.Machine
end

section
/-! PROOFS. Events of the HBM controllers (R274-R277, R282) and of peer accesses (R324). -/
namespace Sys2Proof.Machine

/-! ## Channels (R272-R277) -/

theorem State.channel_setChannel_same (s : State) (ch : Nat) (x : Channel) : (s.setChannel ch x).channel ch = x :=
  SMap.get_set_same _ _ _ _

theorem State.channel_setChannel_other (s : State) {ch i : Nat} (x : Channel) (h : i ≠ ch) : (s.setChannel ch x).channel i = s.channel i :=
  SMap.get_set_other _ _ _ h

theorem State.channel_enqueue_other (s : State) {pa i : Nat} (h : i ≠ channelOf pa) : (s.enqueue pa).channel i = s.channel i := by
  unfold State.enqueue
  split
  · rfl
  · exact s.channel_setChannel_other _ h

theorem State.wq_enqueue (s : State) (pa : Nat) :
    ((s.enqueue pa).channel (channelOf pa)).wq = (s.channel (channelOf pa)).wq ++ if doorbellBase ≤ pa then [] else [pa / 64] := by
  unfold State.enqueue
  split
  · exact (List.append_nil _).symm
  · exact congrArg Channel.wq (s.channel_setChannel_same _ _)

theorem State.wq_hintRow (s : State) (n : Nat) (k : Copy) (j pa : Nat) :
    ((s.hintRow n k j pa).channel (channelOf pa)).wq = (s.channel (channelOf pa)).wq := by
  unfold State.hintRow
  dsimp only
  rw [State.channel_setChannel_same]
  rfl

theorem State.channel_hintRow_other (s : State) (n : Nat) (k : Copy) (j : Nat) {pa i : Nat} (h : i ≠ channelOf pa) :
    (s.hintRow n k j pa).channel i = s.channel i := s.channel_setChannel_other _ h

theorem State.writeRoom_iff (s : State) (pa : Nat) :
    s.writeRoom pa = true ↔ doorbellBase ≤ pa ∨ (s.channel (channelOf pa)).wq.length < 64 := by
  rw [State.writeRoom, Bool.or_eq_true, decide_eq_true_iff, decide_eq_true_iff]

/-! ## Reads and writes of HBM (R440) -/

/-- A state that differs in HBM, its keys and its marks alone. -/
def State.WritesHbm (s t : State) : Prop := ∃ hbm hbmKey fresh hbmBad hbmWeak,
  t = { s with hbm := hbm, hbmKey := hbmKey, fresh := fresh, hbmBad := hbmBad, hbmWeak := hbmWeak }

theorem State.WritesHbm.refl (s : State) : s.WritesHbm s := ⟨_, _, _, _, _, rfl⟩

theorem State.WritesHbm.trans {s t u : State} (h1 : s.WritesHbm t) (h2 : t.WritesHbm u) : s.WritesHbm u := by
  obtain ⟨_, _, _, _, _, rfl⟩ := h1
  obtain ⟨_, _, _, _, _, rfl⟩ := h2
  exact ⟨_, _, _, _, _, rfl⟩

theorem State.rekey_writesHbm (s : State) (key : Option (Nat × Nat)) (b : Nat) : s.WritesHbm (s.rekey key b) :=
  ite_keeps (P := s.WritesHbm) (.refl s) ⟨_, _, _, _, _, rfl⟩

theorem State.hbmWrite_writesHbm (s : State) (key : Option (Nat × Nat)) (a : Nat) (bs : List Byte) : s.WritesHbm (s.hbmWrite key a bs) := by
  unfold State.hbmWrite
  refine ite_keeps (P := s.WritesHbm) (.refl s) ?_
  exact (foldl_keeps (P := s.WritesHbm) (fun t b h => h.trans (t.rekey_writesHbm key b)) _ s (.refl s)).trans ⟨_, _, _, _, _, rfl⟩

section
variable {s : State} {key : Option (Nat × Nat)} {pa : Nat}

/-- A read of blocks written under the key used, with no fill of HBM in progress, uses no free value. -/
theorem State.hbmTouch_same_key {n : Nat} (hz : s.zeroFill = false) (hk : ∀ a ∈ rangeFrom pa n, s.blockKey a = key) :
    s.hbmTouch key pa n = s := by
  refine if_pos ?_
  rw [hz, Bool.not_false, Bool.true_and, List.all_eq_true]
  exact fun a ha => decide_eq_true (hk a ha)

theorem State.hbmBytes_same_key {n : Nat} (hz : s.zeroFill = false) (hk : ∀ a ∈ rangeFrom pa n, s.blockKey a = key)
    (hd : pa + n ≤ doorbellBase) : s.hbmBytes key pa n = readBytes s.hbm pa n := by
  refine List.map_congr_left fun a ha => ?_
  have hlt : ¬doorbellBase ≤ a := by
    have := ((mem_rangeFrom n pa a).1 ha).2
    omega
  unfold State.hbmByte
  rw [if_neg hlt, if_pos (by rw [hk a ha, hz, decide_eq_true rfl]; rfl)]
end

/-! ## Beats at a controller (R274) -/

theorem State.crossAccess_sends (s : State) (die far : Nat) (bs : List Beat512) (reads : Bool) : s.Sends (s.crossAccess die far bs reads) :=
  ite_keeps (P := s.Sends) ((s.crossDie_sends ..).trans (State.crossDie_sends ..)) ((s.crossDie_sends ..).trans (State.crossDie_sends ..))

theorem State.crossBeat_sends (s : State) (n : Nat) (k : Copy) (j pa : Nat) : s.Sends (s.crossBeat n k j pa) := by
  unfold State.crossBeat
  split
  · split
    · exact s.crossAccess_sends ..
    · exact s.crossAccess_sends ..
  · exact .refl s

section
variable {s : State} {n id j w pa : Nat} {k : Copy} {b : Beat} (hk : (s.core n).copy? id = some k) (hb : k.beats[j]? = some b)
  (hw : b.w = some w) (hpa : b.pa = some pa) (hst : k.state = .started) (hwait : b.state = .waiting) (hkind : (s.core n).kindOf w = 1)
  (hclear : (s.core n).blockClear k b = true)
include hk hb hw hpa

theorem hbmAccessAccept_unreached (hr : s.reaches (dieOf n) pa 64 = false) : exec (.hbmAccessAccept n id j) s = .next s := by
  change execHbmAccessAccept n id j s = _
  unfold execHbmAccessAccept
  dsimp only
  rw [hk]
  dsimp only
  rw [hb]
  dsimp only
  rw [hw, hpa]
  dsimp only
  exact if_pos (by rw [hr, Bool.not_false, Bool.or_true])

include hst hwait hkind hclear

/-- A beat that its controller can accept is accepted, crosses the link and leaves its row as its hints say. -/
theorem hbmAccessAccept_of {t : State} (hstill : ((s.core n).still && k.isRead) = false) (hr : s.reaches (dieOf n) pa 64 = true)
    (ht : s.acceptBeat n k j b pa = some t) :
    exec (.hbmAccessAccept n id j) s = .next ((t.crossBeat n k j pa).hintRow n k j pa) := by
  change execHbmAccessAccept n id j s = _
  unfold execHbmAccessAccept
  dsimp only
  rw [hk]
  dsimp only
  rw [hb]
  dsimp only
  rw [hw, hpa]
  dsimp only
  rw [if_neg (by rw [hst, hwait, hkind, hclear, hstill, hr]; exact Bool.noConfusion), ht]
end

section
variable {s : State} {n j pa : Nat} {k : Copy} {b : Beat}

/-- A read of a block whose bytes are under the core's key changes the copy alone. -/
theorem State.acceptBeat_get (hop : k.op = .get) (hz : s.zeroFill = false)
    (hkey : ∀ a ∈ rangeFrom pa 64, s.blockKey a = s.keyOfCore (s.core n)) (hd : pa + 64 ≤ doorbellBase) :
    s.acceptBeat n k j b pa = some (s.setCore n ((s.core n).setCopy (k.setBeat j { b with
      state := .coming { bits := bytesBeat (readBytes s.hbm pa 64), bad := s.hbmBad.contains (pa / 64) } }))) := by
  unfold State.acceptBeat
  dsimp only
  rw [hop]
  change some _ = some _
  unfold State.hbmRead
  rw [State.hbmTouch_same_key hz hkey, State.hbmBytes_same_key hz hkey hd]

/-- HBM and the doorbells once a put's beat has been accepted. -/
def State.putBeat (s : State) (n pa : Nat) (d : Beat512) : State :=
  (s.hbmWrite (s.keyOfCore (s.core n)) pa (beatBytes d)).ring (s.core n) pa d

theorem State.acceptBeat_put {d : BeatData} (hop : k.op = .put) (hdata : b.data = some d)
    (hroom : doorbellBase ≤ pa ∨ (s.channel (channelOf pa)).wq.length < 64) :
    s.acceptBeat n k j b pa = some (((s.putBeat n pa d.bits).setCore n ((s.core n).setCopy (k.setBeat j { b with state := .sent }))).enqueue pa) := by
  have hlen : (beatBytes d.bits).length = 64 := length_toBytes ..
  unfold State.acceptBeat Copy.beatLength
  dsimp only
  rw [hop, hdata]
  dsimp only [Option.bind_some]
  rw [if_pos ((s.writeRoom_iff pa).2 hroom), List.take_of_length_le (Nat.le_of_eq hlen), hlen]
  rfl

theorem State.enqueue_hbm (s : State) (pa : Nat) : (s.enqueue pa).hbm = s.hbm :=
  apply_ite State.hbm _ _ _ |>.trans (ite_self _)

theorem State.enqueue_core (s : State) (pa n : Nat) : (s.enqueue pa).core n = s.core n :=
  ite_keeps (P := fun t : State => t.core n = s.core n) rfl rfl

theorem State.ring_hbm (s : State) (c : Core) (pa : Nat) (d : Beat512) : (s.ring c pa d).hbm = s.hbm :=
  ite_keeps (P := fun t : State => t.hbm = s.hbm) rfl rfl

theorem State.ring_channel (s : State) (c : Core) (pa : Nat) (d : Beat512) (ch : Nat) : (s.ring c pa d).channel ch = s.channel ch :=
  ite_keeps (P := fun t : State => t.channel ch = s.channel ch) rfl rfl

theorem State.putBeat_hbm (s : State) (n pa : Nat) (d : Beat512) :
    (s.putBeat n pa d).hbm = (s.hbmWrite (s.keyOfCore (s.core n)) pa (beatBytes d)).hbm := State.ring_hbm ..

theorem State.putBeat_channel (s : State) (n pa : Nat) (d : Beat512) (ch : Nat) : (s.putBeat n pa d).channel ch = s.channel ch := by
  unfold State.putBeat
  rw [State.ring_channel]
  obtain ⟨_, _, _, _, _, h⟩ := s.hbmWrite_writesHbm (s.keyOfCore (s.core n)) pa (beatBytes d)
  rw [h]
  rfl

/-- What is left once an accepted beat has crossed the link and its hints have acted: HBM and the cores, and the write queues. -/
theorem State.accepted_state (t : State) (n : Nat) (k : Copy) (j pa : Nat) :
    let u := (t.crossBeat n k j pa).hintRow n k j pa
    u.hbm = t.hbm ∧ (∀ m, u.core m = t.core m) ∧ (∀ ch ≠ channelOf pa, u.channel ch = t.channel ch) ∧
    (u.channel (channelOf pa)).wq = (t.channel (channelOf pa)).wq := by
  obtain ⟨_, _, _, h⟩ := t.crossBeat_sends n k j pa
  refine ⟨?_, fun m => ?_, fun ch hne => ?_, ?_⟩
  · exact (show ((t.crossBeat n k j pa).hintRow n k j pa).hbm = (t.crossBeat n k j pa).hbm from rfl).trans (h ▸ rfl)
  · exact (show ((t.crossBeat n k j pa).hintRow n k j pa).core m = (t.crossBeat n k j pa).core m from rfl).trans (h ▸ rfl)
  · exact (State.channel_hintRow_other _ n k j hne).trans (h ▸ rfl)
  · exact (State.wq_hintRow _ n k j pa).trans (h ▸ rfl)
end

/-! ## Drains and refreshes (R275, R277) -/

section
variable {s : State} {ch : Nat} (hch : ch < 256)
include hch

theorem hbmWriteDrain_of {x : Channel} (h : (s.channel ch).drain = some x) : exec (.hbmWriteDrain ch) s = .next (s.setChannel ch x) := by
  change execHbmWriteDrain ch s = _
  unfold execHbmWriteDrain
  rw [h]
  exact if_pos hch

omit hch in
theorem hbmWriteDrain_none (h : (s.channel ch).drain = none) : exec (.hbmWriteDrain ch) s = .next s := by
  change execHbmWriteDrain ch s = _
  unfold execHbmWriteDrain
  rw [h]
  rfl

theorem hbmRefresh_of (h : (s.channel ch).postponed < 8) : exec (.hbmRefresh ch) s = .next
    (if (s.channel ch).wq.length ≤ 48 ∧ s.rowHeld (s.channel ch) = false then s
     else s.setChannel ch { s.channel ch with postponed := (s.channel ch).postponed + 1 }) := by
  change execHbmRefresh ch s = _
  unfold execHbmRefresh
  dsimp only
  rw [if_neg (by simp only [Bool.or_eq_true, decide_eq_true_eq]; omega)]
  by_cases hfree : (s.channel ch).wq.length ≤ 48 ∧ s.rowHeld (s.channel ch) = false
  · rw [if_pos hfree, if_pos (by rw [hfree.2, decide_eq_true hfree.1]; rfl)]
  · rw [if_neg hfree, if_neg (by simpa using hfree)]

theorem refreshForce_of (h : (s.channel ch).postponed = 8) :
    exec (.refreshForce ch) s = .next (s.setChannel ch { s.channel ch with postponed := 7 }) := by
  change execRefreshForce ch s = _
  unfold execRefreshForce
  dsimp only
  rw [h]
  exact eventIf_true (by rw [decide_eq_true hch]; rfl)
end

namespace Channel
variable {x : Channel}

theorem drain_crowded (h : 48 < x.wq.length) : x.drain = some { x with wq := x.wq.drop 1, refreshNext := true } := if_pos h

theorem drain_refresh (h : x.wq.length < 16) (hp : x.postponed ≠ 0) :
    x.drain = some { x with postponed := x.postponed - 1, refreshNext := false } := by
  unfold drain
  dsimp only
  rw [if_neg (by omega), if_neg (by simp [hp]), if_pos (by simp [hp, h])]

theorem drain_between (hl : 16 ≤ x.wq.length) (hu : x.wq.length ≤ 48) (hp : x.postponed ≠ 0) :
    x.drain = some (if x.refreshNext then { x with postponed := x.postponed - 1, refreshNext := false }
      else { x with wq := x.wq.drop 1, refreshNext := true }) := by
  have h16 : ¬x.wq.length < 16 := by omega
  have h0 : x.wq.length ≠ 0 := by omega
  unfold drain
  dsimp only
  rw [if_neg (by omega), if_neg (by simp [hp])]
  cases hr : x.refreshNext
  · rw [if_neg (by simp only [beq_eq_false_iff_ne.2 h0, decide_eq_false h16, Bool.or_false, Bool.and_false]; exact Bool.noConfusion)]
    rfl
  · rw [if_pos (by simp [hp])]
    rfl

theorem drain_writes (hw : x.wq ≠ []) (hp : x.postponed = 0) : x.drain = some { x with wq := x.wq.drop 1, refreshNext := true } := by
  have h0 : x.wq.length ≠ 0 := mt List.length_eq_zero_iff.1 hw
  unfold drain
  dsimp only
  rw [if_neg (c := (x.wq.length == 0 && x.postponed == 0) = true) (by simp [hw]),
    if_neg (c := (x.wq.length == 0 || _) = true) (by rw [hp, beq_eq_false_iff_ne.2 h0]; exact Bool.noConfusion), ite_self]

theorem drain_idle (hw : x.wq = []) (hp : x.postponed = 0) : x.drain = none := by
  unfold drain
  rw [hw, hp]
  rfl
end Channel

/-! ## Peer accesses (R323, R324) -/

theorem State.hears_of {s : State} (hr : s.recovery = false) (hl : s.lifecycle ≠ .scrapped) (hg : ∃ g < 3, (s.railsDown g).length < 2) :
    s.hears = true := by
  obtain ⟨g, hlt, hup⟩ := hg
  have hfab : s.fabricUp = true := List.any_eq_true.2 ⟨g, (mem_upto 3 g).2 hlt, decide_eq_true hup⟩
  unfold State.hears State.deaf
  rw [hr, hfab, beq_eq_false_iff_ne.2 hl]
  rfl

theorem State.not_hears_of {s : State} (h : s.recovery = true ∨ ∀ g < 3, 2 ≤ (s.railsDown g).length) : s.hears = false := by
  unfold State.hears State.deaf
  obtain hr | hg := h
  · rw [hr]
    rfl
  · have hfab : s.fabricUp = false := List.any_eq_false.2 fun g hmem => by
      rw [State.groupUp, decide_eq_true_iff, Nat.not_lt]
      exact hg g ((mem_upto 3 g).1 hmem)
    rw [hfab, Bool.and_false]

section
variable {s : State} {r : PeerReq}

theorem peerAccess_deaf (h : s.hears = false) : exec (.peerAccess r) s = .next s := by
  change execPeerAccess r s = _
  unfold execPeerAccess
  exact if_pos (by rw [h]; rfl)

variable (h : s.hears = true)
include h

theorem peerAccess_refused (hno : s.pkgset = false ∨ ∀ e ∈ s.exports, e.2.allows r = false) :
    exec (.peerAccess r) s = .next (s.sendOut none [] [.peer false none]) := by
  change execPeerAccess r s = _
  unfold execPeerAccess
  rw [if_neg (by rw [h]; exact Bool.noConfusion)]
  obtain hp | ha := hno
  · rw [hp]
    rfl
  · have hnone : (s.exports.map Prod.snd).find? (fun e => e.allows r) = none := by
      rw [List.find?_eq_none]
      intro e he
      obtain ⟨x, hx, rfl⟩ := List.mem_map.1 he
      rw [ha x hx]
      exact Bool.noConfusion
    rw [hnone, ite_self]

variable {e : ExportEntry} (hp : s.pkgset = true) (he : (s.exports.map Prod.snd).find? (fun e => e.allows r) = some e)
include hp he

theorem peerAccess_read (hop : r.op = .read) :
    exec (.peerAccess r) s = .next ((s.contextRead (s.keyOf (e.owner.getD 0)) r.addr 64).2.sendOut none
      [bytesBeat (s.contextRead (s.keyOf (e.owner.getD 0)) r.addr 64).1]
      [.peer true (some { bits := bytesBeat (s.contextRead (s.keyOf (e.owner.getD 0)) r.addr 64).1, bad := s.uncorrectable r.addr 64 })]) := by
  change execPeerAccess r s = _
  unfold execPeerAccess
  rw [if_neg (by rw [h]; exact Bool.noConfusion), if_pos hp, he]
  dsimp only
  rw [hop]

theorem peerAccess_write {d : Beat512} {half : Bool} (hop : r.op = .write d half) :
    exec (.peerAccess r) s = if s.writeRoom r.addr then
      .next (((s.hbmWrite (s.keyOf (e.owner.getD 0)) r.addr ((beatBytes d).take (if half then 32 else 64))).enqueue r.addr).sendOut none []
        [.peer true none])
      else .next s := by
  change execPeerAccess r s = _
  unfold execPeerAccess
  rw [if_neg (by rw [h]; exact Bool.noConfusion), if_pos hp, he]
  dsimp only
  rw [hop]
  rfl

theorem peerAccess_amo {op : BitVec 3} {t : BitVec 4} {d : Beat512} (hop : r.op = .amo op t d) :
    exec (.peerAccess r) s = if s.writeRoom r.addr then
      .next (((s.reduce (s.keyOf (e.owner.getD 0)) r.addr op t d).enqueue r.addr).sendOut none [] [.peer true none]) else .next s := by
  change execPeerAccess r s = _
  unfold execPeerAccess
  rw [if_neg (by rw [h]; exact Bool.noConfusion), if_pos hp, he]
  dsimp only
  rw [hop]
  rfl
end

theorem State.reduce_bad {s : State} {key : Option (Nat × Nat)} {pa : Nat} {op : BitVec 3} {t : BitVec 4} {v : Beat512}
    (h : pa / 64 ∈ s.hbmBad) : (s.reduce key pa op t v).hbm = s.hbm := by
  unfold State.reduce
  rw [if_pos (List.contains_iff_mem.2 h)]

theorem State.reduce_sound {s : State} {key : Option (Nat × Nat)} {pa : Nat} {op : BitVec 3} {t : BitVec 4} {v : Beat512}
    (h : pa / 64 ∉ s.hbmBad) : (s.reduce key pa op t v).hbm =
      ((s.hbmRead key pa 64).2.hbmWrite key pa (toBytes 64 (reduceBlock op t (ofBytes (s.hbmRead key pa 64).1) v.toNat))).hbm :=
  congrArg State.hbm (if_neg (mt List.contains_iff_mem.1 h))

/-- Settles O38: beats at a controller by what they carry, drains by the length of the queue, peer accesses by their operation. -/
theorem memoryEventResults : Obligations.MemoryEventResults := by
  unfold Obligations.MemoryEventResults
  refine fun s => ⟨fun n id j k b w pa hk hb hw hpa hst hwait hkind hclear =>
    ⟨fun hr => hbmAccessAccept_unreached hk hb hw hpa hr, fun hr => ?_⟩, fun ch hch => ?_, fun r h => peerAccess_deaf (State.not_hears_of h),
    fun r hrec hlife hup => ?_, fun key pa op t v => ⟨State.reduce_bad, State.reduce_sound⟩⟩
  · refine ⟨fun hop hstill hz hkey hd => ?_, fun d hop hdata hroom => ?_⟩
    · obtain ⟨hhbm, hcore, -⟩ := State.accepted_state (s.setCore n ((s.core n).setCopy (k.setBeat j { b with
        state := .coming { bits := bytesBeat (readBytes s.hbm pa 64), bad := s.hbmBad.contains (pa / 64) } }))) n k j pa
      exact ⟨_, hbmAccessAccept_of hk hb hw hpa hst hwait hkind hclear (by rw [hstill]; rfl) hr (State.acceptBeat_get hop hz hkey hd), hhbm,
        (hcore n).trans (s.core_setCore_same n _)⟩
    · obtain ⟨hhbm, hcore, hother, hwq⟩ := State.accepted_state
        (((s.putBeat n pa d.bits).setCore n ((s.core n).setCopy (k.setBeat j { b with state := .sent }))).enqueue pa) n k j pa
      refine ⟨_, hbmAccessAccept_of hk hb hw hpa hst hwait hkind hclear (by rw [Copy.isRead, hop, Bool.and_false]) hr
        (State.acceptBeat_put hop hdata hroom), hhbm.trans ((State.enqueue_hbm ..).trans (State.putBeat_hbm ..)),
        (hcore n).trans ((State.enqueue_core ..).trans (State.core_setCore_same ..)), fun ch hne => ?_, ?_⟩
      · exact (hother ch hne).trans ((State.channel_enqueue_other _ hne).trans (State.putBeat_channel ..))
      · refine hwq.trans ((State.wq_enqueue ..).trans ?_)
        rw [show ((s.putBeat n pa d.bits).setCore n ((s.core n).setCopy (k.setBeat j { b with state := .sent }))).channel (channelOf pa) =
          s.channel (channelOf pa) from State.putBeat_channel ..]
  · refine ⟨fun h => hbmWriteDrain_of hch (Channel.drain_crowded h), fun h hp => hbmWriteDrain_of hch (Channel.drain_refresh h hp),
      fun hl hu hp => ?_, fun hw hp => hbmWriteDrain_of hch (Channel.drain_writes hw hp),
      fun hw hp => hbmWriteDrain_none (Channel.drain_idle hw hp), fun h => hbmRefresh_of hch h, fun h => refreshForce_of hch h⟩
    rw [hbmWriteDrain_of hch (Channel.drain_between hl hu hp), apply_ite (s.setChannel ch)]
  · have h := State.hears_of hrec hlife hup
    refine ⟨fun hno => peerAccess_refused h hno, fun e hp he => ⟨fun hop => peerAccess_read h hp he hop, fun d half hop => ?_,
      fun op t d hop => ?_⟩⟩
    · exact ⟨fun room => (peerAccess_write h hp he hop).trans (if_pos ((s.writeRoom_iff _).2 room)),
        fun room => (peerAccess_write h hp he hop).trans (if_neg (mt (s.writeRoom_iff _).1 room))⟩
    · exact ⟨fun room => (peerAccess_amo h hp he hop).trans (if_pos ((s.writeRoom_iff _).2 room)),
        fun room => (peerAccess_amo h hp he hop).trans (if_neg (mt (s.writeRoom_iff _).1 room))⟩

end Sys2Proof.Machine
end

section
/-! PROOFS. Events of collective plans and of their firings (R327, R329-R337, R342). -/
namespace Sys2Proof.Machine

@[simp] theorem State.plan_setPlan_same (s : State) (h : Nat) (p : Plan) : (s.setPlan h p).plan h = some p :=
  SMap.get_set_same (α := Option Plan) none s.plans h (some p)

theorem State.Sends.plan {s t : State} (h : s.Sends t) (n : Nat) : t.plan n = s.plan n := by
  obtain ⟨_, _, _, rfl⟩ := h
  rfl

theorem State.WritesHbm.plan {s t : State} (h : s.WritesHbm t) (n : Nat) : t.plan n = s.plan n := by
  obtain ⟨_, _, _, _, _, rfl⟩ := h
  rfl

theorem State.hbmTouch_writesHbm (s : State) (key : Option (Nat × Nat)) (a n : Nat) : s.WritesHbm (s.hbmTouch key a n) :=
  ite_keeps (P := s.WritesHbm) (.refl s) ⟨_, _, _, _, _, rfl⟩

theorem State.contextRead_writesHbm (s : State) (key : Option (Nat × Nat)) (a n : Nat) : s.WritesHbm (s.contextRead key a n).2 := by
  unfold State.contextRead
  split
  · exact ⟨_, _, _, _, _, rfl⟩
  · exact s.hbmTouch_writesHbm key a n

theorem State.crossRange_sends (s : State) (die a : Nat) (bs : List Byte) (reads : Bool) : s.Sends (s.crossRange die a bs reads) :=
  ite_keeps (P := s.Sends) (.refl s) (s.crossAccess_sends ..)

theorem State.frontRead_plan (s : State) (key : Option (Nat × Nat)) (a n h : Nat) : (s.frontRead key a n).2.plan h = s.plan h :=
  ((State.crossRange_sends ..).plan h).trans ((s.contextRead_writesHbm key a n).plan h)

theorem State.frontWrite_plan (s : State) (key : Option (Nat × Nat)) (a : Nat) (bs : List Byte) (h : Nat) :
    (s.frontWrite key a bs).plan h = s.plan h :=
  ((State.hbmWrite_writesHbm ..).plan h).trans ((s.crossRange_sends 0 a bs false).plan h)

/-! ## A firing in progress (R332) -/

/-- What the effect of an operation keeps of its plan: the operations, their successors, and the firing in progress. -/
def Plan.Continues (p : Plan) (f : Firing) (q : Plan) : Prop := ∃ g, q.firing = some g ∧ g.seq = f.seq ∧ q.ops = p.ops ∧ q.succ = p.succ

/-- The plan of a handle still has its firing in progress. -/
def State.Continues (s : State) (h : Nat) (p : Plan) (f : Firing) : Prop := ∃ q, s.plan h = some q ∧ p.Continues f q

section
variable {s : State} {h : Nat} {p q : Plan} {f : Firing}

theorem State.Continues.congr {t : State} (hs : s.Continues h p f) (ht : t.plan h = s.plan h) : t.Continues h p f := by
  obtain ⟨q, hq, hc⟩ := hs
  exact ⟨q, ht.trans hq, hc⟩

theorem State.continues_setPlan (hq : p.Continues f q) : (s.setPlan h q).Continues h p f := ⟨q, s.plan_setPlan_same h q, hq⟩

theorem State.takePacket_continues (hq : p.Continues f q) (k : CollPacket) (i : Nat) : (s.takePacket h q k i).Continues h p f := by
  obtain ⟨g, hg, hseq, hops, hsucc⟩ := hq
  unfold State.takePacket
  dsimp only
  rw [hg]
  exact ite_keeps (P := fun t : State => t.Continues h p f) (State.continues_setPlan ⟨_, rfl, hseq, hops, hsucc⟩)
    (State.continues_setPlan ⟨g, rfl, hseq, hops, hsucc⟩)

theorem State.receivePacket_continues (hs : s.plan h = some q) (hq : p.Continues f q) (k : CollPacket) (i : Nat) :
    (s.receivePacket h q k i).Continues h p f :=
  ite_keeps (P := fun t : State => t.Continues h p f) ⟨q, hs, hq⟩ (State.takePacket_continues hq k i)

theorem State.sendPacket_continues (hs : s.Continues h p f) (dest : Nat) (k : CollPacket) : (s.sendPacket h dest k).Continues h p f := by
  obtain ⟨q, hq, hc⟩ := hs
  unfold State.sendPacket
  rw [hq]
  dsimp only
  refine ite_keeps (P := fun t : State => t.Continues h p f) ?_ (State.Continues.congr ⟨q, hq, hc⟩ ((s.transmit_sends ..).plan h))
  cases q.recvOf k with
  | none => exact ⟨q, hq, hc⟩
  | some i => exact State.receivePacket_continues hq hc k i

theorem State.takeChild_continues (hq : p.Continues f q) (k : CollPacket) : (s.takeChild h q k).Continues h p f := by
  obtain ⟨g, hg, hrest⟩ := hq
  unfold State.takeChild
  dsimp only
  split
  · exact foldl_keeps (P := fun t : State => t.Continues h p f) (fun t dest ht => State.sendPacket_continues ht dest _) _ _
      (State.continues_setPlan ⟨g, hg, hrest⟩)
  · exact State.continues_setPlan ⟨g, hg, hrest⟩

theorem State.sendChild_continues (hs : s.Continues h p f) (dest : Nat) (k : CollPacket) : (s.sendChild h dest k).Continues h p f := by
  obtain ⟨q, hq, hc⟩ := hs
  unfold State.sendChild
  rw [hq]
  exact ite_keeps (P := fun t : State => t.Continues h p f) (State.takeChild_continues hc k)
    (State.Continues.congr ⟨q, hq, hc⟩ ((s.transmit_sends ..).plan h))

theorem State.performSend_continues (hs : s.plan h = some p) (hf : p.firing = some f) (i : Nat) (o : BitVec 256) (data : List Beat512) :
    (s.performSend h p f i o data).Continues h p f := by
  have here : s.Continues h p f := ⟨p, hs, f, hf, rfl, rfl, rfl⟩
  have sent : (s.setPlan h { p with firing := some { f with sent := f.sent ++ [(i, data)] } }).Continues h p f :=
    State.continues_setPlan ⟨_, rfl, rfl, rfl, rfl⟩
  unfold State.performSend
  dsimp only
  split
  · split
    · exact State.sendPacket_continues here ..
    · exact here
  · split
    · exact here
    · exact ite_keeps (P := fun t : State => t.Continues h p f) (State.sendChild_continues sent ..)
        (sent.congr ((State.transmit_sends ..).plan h))

/-- Whatever an operation reads, writes and sends, its firing goes on. -/
theorem State.performOp_continues (hs : s.plan h = some p) (hf : p.firing = some f) (i : Nat) (o : BitVec 256) :
    (s.performOp h p f i o).Continues h p f := by
  have here : s.Continues h p f := ⟨p, hs, f, hf, rfl, rfl, rfl⟩
  unfold State.performOp
  dsimp only
  split
  · exact State.performSend_continues ((State.frontRead_plan ..).trans hs) hf ..
  · split
    · exact here.congr (State.frontWrite_plan ..)
    · exact here
  · exact here.congr ((State.frontWrite_plan ..).trans ((State.frontRead_plan ..).trans (State.frontRead_plan ..)))
  · exact here.congr ((State.frontWrite_plan ..).trans (State.frontRead_plan ..))

end

section
variable {s : State} {h : Nat} {p : Plan} (hp : s.plan h = some p)
include hp

theorem chunkOpComplete_of {op : Nat} {f : Firing} {o : BitVec 256} (hf : p.firing = some f) (ho : p.ops[op]? = some o)
    (hready : p.opReady f op = true) (hreach : s.opReaches f o = true) :
    exec (.chunkOpComplete h op) s = .next ((s.performOp h p f op o).endOp h op o) := by
  change execChunkOpComplete h op s = _
  unfold execChunkOpComplete
  rw [hp]
  dsimp only
  rw [hf, ho]
  exact eventIf_true (by rw [hready, hreach]; rfl)

/-! ## Packets (R327, R332, R342) -/

/-- Whether a packet is of the generation of its group and of its plan. -/
def State.Known (s : State) (p : Plan) (k : CollPacket) : Prop :=
  (s.group k.group).assigned = true ∧ (s.group k.group).gen = k.gen ∧ p.group = k.group ∧ p.gen = k.gen

omit hp in
theorem State.known_iff {k : CollPacket} : s.Known p k ↔
    ((s.group k.group).assigned && (s.group k.group).gen == k.gen && p.group == k.group && p.gen == k.gen) = true := by
  simp only [State.Known, Bool.and_eq_true, beq_iff_eq, and_assoc]

variable {k : CollPacket} (hk : k.handle = h)
include hk

theorem packetArrival_unheard (hh : s.hearsPacket p k = false) : exec (.collectivePacketArrival k) s = .next s := by
  change execCollectivePacketArrival k s = _
  unfold execCollectivePacketArrival
  rw [hk, hp]
  exact if_pos (by rw [hh]; rfl)

variable (hh : s.hearsPacket p k = true)
include hh

theorem packetArrival_stale (hn : ¬s.Known p k) :
    exec (.collectivePacketArrival k) s = .next (s.setPlan h { p with stale := p.stale + 1 }) := by
  have hstale := Bool.eq_false_iff.2 (mt State.known_iff.2 hn)
  change execCollectivePacketArrival k s = _
  unfold execCollectivePacketArrival
  rw [hk, hp]
  dsimp only
  rw [if_neg (by rw [hh]; exact Bool.noConfusion), if_pos (by rw [hstale]; rfl)]

/-- Whether what a switch has sent is for a node that has fallen back in the firing in progress. -/
def Plan.resultFell (p : Plan) (k : CollPacket) : Bool :=
  k.from_.isNone && ((p.firingOf k).any fun f => f.fallen.contains (k.level, k.index))

variable (hn : s.Known p k) (hlive : p.live = true) (hsite : k.site = false ∨ k.result = true) {i : Nat} (hi : p.recvOf k = some i)
include hn hlive hsite hi

theorem packetArrival_result (hfrom : k.from_ = none) {f : Firing} (hf : p.firing = some f) (hseq : f.seq = k.seq)
    (hfell : (k.level, k.index) ∈ f.fallen) : exec (.collectivePacketArrival k) s = .next s := by
  have hof : p.firingOf k = some f := by
    unfold Plan.firingOf
    rw [hf]
    exact if_pos (beq_iff_eq.2 hseq)
  change execCollectivePacketArrival k s = _
  unfold execCollectivePacketArrival
  rw [hk, hp]
  dsimp only
  rw [if_neg (by rw [hh]; exact Bool.noConfusion), if_neg (by rw [State.known_iff.1 hn]; exact Bool.noConfusion),
    if_neg (by rw [hlive]; exact Bool.noConfusion), if_neg (by obtain h | h := hsite <;> simp [h]), hi]
  dsimp only
  rw [hof, hfrom]
  exact if_pos (List.contains_iff_mem.2 hfell)

/-- A packet of another package for a RECV is received. -/
theorem packetArrival_received (hfrom : k.from_ ≠ none) : exec (.collectivePacketArrival k) s = .next ((s.receivePacket h p k i).tellResult k) := by
  obtain ⟨n, hfrom⟩ := Option.ne_none_iff_exists'.1 hfrom
  change execCollectivePacketArrival k s = _
  unfold execCollectivePacketArrival
  rw [hk, hp]
  dsimp only
  rw [if_neg (by rw [hh]; exact Bool.noConfusion), if_neg (by rw [State.known_iff.1 hn]; exact Bool.noConfusion),
    if_neg (by rw [hlive]; exact Bool.noConfusion), if_neg (by obtain h | h := hsite <;> simp [h]), hi, hfrom]
  rfl
end

/-- Only a switch's result is reported. -/
theorem State.tellResult_package (s : State) {k : CollPacket} (hfrom : k.from_ ≠ none) : s.tellResult k = s := by
  obtain ⟨n, hfrom⟩ := Option.ne_none_iff_exists'.1 hfrom
  unfold State.tellResult
  rw [hfrom]
  split <;> rfl

section
variable {s : State} {h i : Nat} {p : Plan} {k : CollPacket}

theorem State.receivePacket_completed (hc : p.completed = k.seq) : s.receivePacket h p k i = s :=
  if_pos (by rw [beq_iff_eq.2 hc]; rfl)

theorem State.receivePacket_waiting (hc : p.completed ≠ k.seq) (hno : p.packetFor k.seq i = none) (hf : p.firing = none) :
    s.receivePacket h p k i = s.setPlan h { p with contexts := p.contexts ++ [k] } := by
  unfold State.receivePacket State.takePacket
  dsimp only
  rw [hno, hf, beq_eq_false_iff_ne.2 hc]
  rfl

theorem State.receivePacket_counts {f : Firing} (hc : p.completed ≠ k.seq) (hno : p.packetFor k.seq i = none) (hf : p.firing = some f)
    (hseq : f.seq = k.seq) (hd : i ∉ f.done_) :
    s.receivePacket h p k i = s.setPlan h { p with
      contexts := p.contexts ++ [k], since := s.phys, firing := some { f with counts := f.counts.set i (f.counts.getD i 0 - 1) } } := by
  unfold State.receivePacket State.takePacket
  dsimp only
  rw [hno, hf, beq_eq_false_iff_ne.2 hc]
  dsimp only
  rw [if_neg (by rw [Bool.eq_false_iff.2 (mt List.contains_iff_mem.1 hd), Bool.and_false]; exact Bool.noConfusion),
    if_pos (beq_iff_eq.2 hseq)]
  rfl
end

/-! ## Set-up (R330) -/

theorem State.peerSetup_reserves {s : State} {q h : Nat} {d : PlanDesc} {m : Plan} (hr : s.ready = true) (hh : s.hears = true)
    (hset : s.pkgset = true) (hlt : h < 4096) (hfree : s.handleFree h = true) (ha : (s.group d.group).assigned = true)
    (hg : (s.group d.group).gen = d.gen) (hm : s.newPlan d none = some m) :
    s.peerSetup q h d = .next ((s.setPlan h { m with awaiting := [], live := false }).tellPackage (.answer h true) q) := by
  have hrec : s.recovery = false := by
    have := hh
    simp only [State.hears, State.deaf, Bool.and_eq_true, Bool.not_eq_true', Bool.or_eq_false_iff] at this
    exact this.1.1
  unfold State.peerSetup
  dsimp only
  rw [if_neg (by rw [State.serving, hr, hrec, hh]; exact Bool.noConfusion),
    if_pos (by rw [hset, hfree, ha, hg, decide_eq_true hlt, beq_self_eq_true]; rfl), hm]

section
variable {s : State} {h : Nat} {p : Plan} (hp : s.plan h = some p) {q i who : Nat} (hset : p.setup = some (q, i))
include hp hset

section
variable (hw : who ∈ p.awaiting) (hh : s.hearsOf p who = true)
include hw hh

theorem planSetupConfirm_refused :
    exec (.planSetupConfirm h who false) s = .next (((s.tellAll p (.outcome h false)).erasePlan h).finishStatus q i 3) := by
  change execPlanSetupConfirm h who false s = _
  unfold execPlanSetupConfirm
  rw [hp]
  dsimp only
  rw [hset]
  dsimp only
  rw [if_neg (by rw [List.contains_iff_mem.2 hw, hh]; exact Bool.noConfusion)]
  rfl

theorem planSetupConfirm_agreed : exec (.planSetupConfirm h who true) s =
    .next (if (p.awaiting.erase who).isEmpty then
        ((s.setPlan h { p with awaiting := p.awaiting.erase who, live := (p.awaiting.erase who).isEmpty }).tellAll p (.outcome h true)).finish q i
          (handleRecord (cidOf q i) h)
      else s.setPlan h { p with awaiting := p.awaiting.erase who, live := (p.awaiting.erase who).isEmpty }) := by
  change execPlanSetupConfirm h who true s = _
  unfold execPlanSetupConfirm
  rw [hp]
  dsimp only
  rw [hset]
  dsimp only
  rw [if_neg (by rw [List.contains_iff_mem.2 hw, hh]; exact Bool.noConfusion)]
  rfl
end

theorem planSetupTimeout_of (hne : p.awaiting ≠ []) (ht : s.ms 100 ≤ s.phys - p.since) :
    exec (.planSetupTimeout h) s = .next (((s.tellAll p (.outcome h false)).erasePlan h).finishStatus q i 3) := by
  change execPlanSetupTimeout h s = _
  unfold execPlanSetupTimeout
  rw [hp]
  dsimp only
  rw [hset]
  exact eventIf_true (by rw [decide_eq_true ht, List.isEmpty_eq_false_iff.2 hne]; rfl)
end

/-! ## Triggers (R334-R336) -/

section
variable {s : State} {h : Nat} {p : Plan} (hp : s.plan h = some p) {v : W64} (hv : fld v 15 0 = h)
include hp hv

/-- What R335 calls for a trigger that is not of a duplicate's sequence number to be refused whatever that number is. -/
def Plan.Refuses (p : Plan) (v : W64) : Prop := p.state = .failed ∨ 15 < fld v 23 16 ∨ fld v 31 25 ≠ 0

omit hp hv in
theorem Plan.refuses_iff : p.Refuses v ↔ (p.state == .failed || decide (15 < fld v 23 16) || fld v 31 25 != 0) = true := by
  simp only [Plan.Refuses, Bool.or_eq_true, beq_iff_eq, decide_eq_true_eq, bne_iff_ne, or_assoc]

variable (hl : p.live = true) (hs : p.state ≠ .freed)
include hl hs

theorem State.judge_duplicate (hseq : fld v 63 32 = p.accepted) : s.judge v = .duplicate := by
  unfold State.judge
  rw [hv, hp]
  dsimp only
  rw [if_neg (by rw [hl, beq_eq_false_iff_ne.2 hs]; exact Bool.noConfusion), if_pos (beq_iff_eq.2 hseq)]

variable (hseq : fld v 63 32 ≠ p.accepted)
include hseq

theorem State.judge_accepted (hb : ¬p.Refuses v) (hnext : fld v 63 32 = (p.accepted + 1) % 2 ^ 32) : s.judge v = .accepted := by
  unfold State.judge
  rw [hv, hp]
  dsimp only
  rw [if_neg (by rw [hl, beq_eq_false_iff_ne.2 hs]; exact Bool.noConfusion), if_neg (mt beq_iff_eq.1 hseq),
    if_neg (mt Plan.refuses_iff.2 hb), if_pos (beq_iff_eq.2 hnext)]

theorem State.judge_refused (hb : p.Refuses v ∨ fld v 63 32 ≠ (p.accepted + 1) % 2 ^ 32) : s.judge v = .refused := by
  unfold State.judge
  rw [hv, hp]
  dsimp only
  rw [if_neg (by rw [hl, beq_eq_false_iff_ne.2 hs]; exact Bool.noConfusion), if_neg (mt beq_iff_eq.1 hseq)]
  obtain hb | hb := hb
  · exact if_pos (Plan.refuses_iff.1 hb)
  · rw [if_neg (mt beq_iff_eq.1 hb), ite_self]
end

theorem State.mmioWrite_of {s : State} {tee : Bool} {f : State → State} (h : s.answers tee) : s.mmioWrite tee f = .next (f s) := by
  obtain ⟨hrec, hready, hserves⟩ := h
  unfold State.mmioWrite
  rw [if_neg (by rw [hrec, hready]; exact Bool.noConfusion), if_pos hserves]

/-- What a trigger word written at the page of handle h does, by the verdict on it. -/
def State.triggered (s : State) (h : Nat) (v : W64) : TriggerVerdict → State
  | .accepted => if fld v 15 0 == h then s.queueFire v none none else { s with outs := s.outs ++ [.triggerRefused h] }
  | .duplicate => s
  | .refused => { s with outs := s.outs ++ [.triggerRefused h] }

theorem hostTrigger_of {s : State} {h : Nat} {v : W64} {tee : Bool} (ha : s.answers tee) (hlt : h < 4096) :
    exec (.hostTrigger (4096 * h) 8 v tee) s = .next (s.triggered h v (s.judge v)) := by
  have hdiv : 4096 * h / 4096 = h := Nat.mul_div_cancel_left h (by decide)
  change execHostTrigger (4096 * h) 8 v tee s = _
  unfold execHostTrigger
  refine (State.mmioWrite_of ha).trans (congrArg Host.Outcome.next ?_)
  rw [hdiv, if_neg (by simp [hlt])]
  cases s.judge v <;> exact Eq.refl _

/-- Settles O39: set-ups, packets, operations, confirmations, time-outs and triggers, each by the state it finds its plan in. -/
theorem planEventResults : Obligations.PlanEventResults := by
  unfold Obligations.PlanEventResults
  refine ⟨fun s q h d m hr hh hset hlt hfree ha hg hm => State.peerSetup_reserves hr hh hset hlt hfree ha hg hm, fun s k hk => ?_,
    fun s h p hp => ⟨fun op f o hf ho hready hreach => ?_, fun k hk => ?_, fun f hf ht => ?_, fun q i hset who hw hh => ?_,
      fun q i hset hne ht => planSetupTimeout_of hp hset hne ht, fun v tee ha hlt hl hs hv => ?_⟩⟩
  · change execCollectivePacketArrival k s = _
    unfold execCollectivePacketArrival
    rw [hk]
  · obtain ⟨p1, hp1, f1, hf1, hseq, hops, hsucc⟩ := State.performOp_continues hp hf op o
    refine ⟨p1, f1, hp1, hf1, hseq, hops, hsucc, fun hlen => ?_, fun hlen => ?_⟩
    · rw [chunkOpComplete_of hp hf ho hready hreach]
      unfold State.endOp
      rw [hp1]
      dsimp only
      rw [hf1]
      dsimp only
      rw [hops, hsucc, hseq, if_neg (mt beq_iff_eq.1 hlen)]
      rfl
    · rw [chunkOpComplete_of hp hf ho hready hreach]
      unfold State.endOp
      rw [hp1]
      dsimp only
      rw [hf1]
      dsimp only
      rw [hops, hsucc, hseq, if_pos (beq_iff_eq.2 hlen)]
      rfl
  · refine ⟨packetArrival_unheard hp hk, fun hh => ⟨packetArrival_stale hp hk hh, fun i hn hl hsite hi hfrom hc => ?_,
      fun i hn hl hsite hi hfrom hc hno => ⟨fun hf => ?_, fun f hf hseq hd => ?_⟩, fun i f hn hl hs hres hfrom hi hf hseq hfell =>
      packetArrival_result hp hk hh hn hl (.inr hres) hi hfrom hf hseq hfell⟩⟩
    all_goals rw [packetArrival_received hp hk hh hn hl hsite hi hfrom, State.tellResult_package _ hfrom]
    · rw [State.receivePacket_completed hc]
    · rw [State.receivePacket_waiting hc hno hf]
    · rw [State.receivePacket_counts hc hno hf hseq hd]
  · change execPlanProgressTimeout h s = _
    unfold execPlanProgressTimeout State.failPlan
    rw [hp]
    dsimp only
    rw [hf]
    exact eventIf_true (by rw [decide_eq_true ht]; rfl)
  · refine ⟨planSetupConfirm_refused hp hset hw hh, fun hlast => ?_, fun hleft => ?_⟩
    · rw [planSetupConfirm_agreed hp hset hw hh, hlast, List.erase_cons_head]
      rfl
    · rw [planSetupConfirm_agreed hp hset hw hh, List.isEmpty_eq_false_iff.2 hleft]
      rfl
  · refine ⟨fun hseq => ?_, fun hseq hb hnext => ⟨s.queueFire v none none, ?_, ?_, ?_⟩, fun hseq hb => ?_⟩
    · rw [hostTrigger_of ha hlt, State.judge_duplicate hp hv hl hs hseq]
      rfl
    · rw [hostTrigger_of ha hlt, State.judge_accepted hp hv hl hs hseq hb hnext]
      exact congrArg Host.Outcome.next (if_pos (beq_iff_eq.2 hv))
    · unfold State.queueFire
      rw [hv, hp]
      exact State.plan_setPlan_same s h _
    · unfold State.queueFire
      rw [hv, hp]
      exact congrArg Queue.fires (SMap.get_set_same _ _ _ _)
    · rw [hostTrigger_of ha hlt, State.judge_refused hp hv hl hs hseq hb]
      rfl

end Sys2Proof.Machine
end

section
/-! PROOFS. Queue commands that finish at their start, refusals, and COPY and SCRUB beat by beat (R419-R422, R425, R430). -/
namespace Sys2Proof.Machine

/-! ## The start of the command at a head (R420, R422, R425) -/

theorem serving_of {s : State} (hr : s.ready = true) (hrec : s.recovery = false) : s.serving = true := by
  rw [State.serving, hr, hrec]
  rfl

section
variable {s : State} {q code : Nat} {ws : List W64} {f : List W64 → Nat → State → State}

theorem startHead_of (h : s.atHead q code ws) :
    s.startHead code q f = .next ((f ws (s.queue q).head (s.take q ws)).reachHead q) := by
  obtain ⟨hr, hrec, hhead, hnext, hok, hcode⟩ := h
  unfold State.startHead
  rw [hhead]
  dsimp only
  rw [if_neg (by rw [serving_of hr hrec, hnext, bne_self_eq_false]; exact Bool.noConfusion), if_pos hok, if_pos (beq_iff_eq.2 hcode)]

/-- A malformed command is refused under the row of its code, and under that of NOPC where its code is not listed. -/
theorem startHead_malformed (hr : s.ready = true) (hrec : s.recovery = false) (hhead : s.head q = some (.command ws))
    (hnext : s.nextQueue = some q) (hok : commandOk q (s.queue q).head ws = false)
    (hrow : cmdFld ws 0 7 0 = code ∨ cmdMasks (cmdFld ws 0 7 0) = none ∧ code = 0x0E) :
    s.startHead code q f = .next (((s.take q ws).finishStatus q (s.queue q).head 1).reachHead q) := by
  unfold State.startHead
  rw [hhead]
  dsimp only
  rw [if_neg (by rw [serving_of hr hrec, hnext, bne_self_eq_false]; exact Bool.noConfusion), if_neg (by rw [hok]; exact Bool.noConfusion)]
  refine if_pos ?_
  obtain hcode | ⟨hmask, hcode⟩ := hrow
  · rw [beq_iff_eq.2 hcode, Bool.true_or]
  · rw [hmask, hcode]
    exact Bool.or_true _
end

/-- A state that differs in its queues, which of them were served last, and what leaves over rails alone. -/
def State.Takes (s t : State) : Prop := ∃ queues served outs fresh sent,
  t = { s with queues := queues, served := served, outs := s.outs ++ outs, fresh := fresh, retransmit := s.retransmit ++ sent }

theorem State.Takes.refl (s : State) : s.Takes s := ⟨_, _, [], _, [], by rw [List.append_nil, List.append_nil]⟩

theorem State.Takes.trans {s t u : State} (h1 : s.Takes t) (h2 : t.Takes u) : s.Takes u := by
  obtain ⟨_, _, o1, _, r1, rfl⟩ := h1
  obtain ⟨queues, served, o2, fresh, r2, rfl⟩ := h2
  exact ⟨queues, served, o1 ++ o2, fresh, r1 ++ r2, by simp only [List.append_assoc]⟩

theorem State.Sends.takes {s t : State} (h : s.Sends t) : s.Takes t := by
  obtain ⟨o, f, r, rfl⟩ := h
  exact ⟨_, _, o, f, r, rfl⟩

theorem State.setQueue_takes (s : State) (n : Nat) (q : Queue) : s.Takes (s.setQueue n q) :=
  ⟨_, _, [], _, [], by rw [List.append_nil, List.append_nil]; rfl⟩

theorem State.noteReady_takes (s : State) : s.Takes s.noteReady :=
  foldl_keeps (P := s.Takes) (fun t _ h => h.trans
    (ite_keeps (P := t.Takes) (ite_keeps (P := t.Takes) (.refl t) (t.setQueue_takes ..))
      (ite_keeps (P := t.Takes) (t.setQueue_takes ..) (.refl t)))) _ s (.refl s)

theorem State.frontReads_sends (s : State) (key : Option (Nat × Nat)) (rs : List (Nat × Nat)) : s.Sends (s.frontReads key rs) :=
  State.foldl_sends (fun t _ => ite_keeps (P := t.Sends) (t.crossRange_sends ..) (.refl t)) rs s

theorem State.serve_takes (s : State) (n : Nat) : s.Takes (s.serve n) :=
  (s.noteReady_takes.trans (State.setQueue_takes ..)).trans ⟨_, _, [], _, [], by rw [List.append_nil, List.append_nil]; rfl⟩

theorem State.take_takes (s : State) (n : Nat) (ws : List W64) : s.Takes (s.take n ws) :=
  ((s.serve_takes n).trans (State.frontReads_sends ..).takes).trans (State.setQueue_takes ..)

theorem State.Takes.kernels {s t : State} (h : s.Takes t) : t.kernels = s.kernels := by
  obtain ⟨_, _, _, _, _, rfl⟩ := h
  rfl

theorem State.Takes.lent {s t : State} (h : s.Takes t) : t.lent = s.lent := by
  obtain ⟨_, _, _, _, _, rfl⟩ := h
  rfl

theorem waitReread_next {s : State} {q : Nat} {ws : List W64} (h : s.atHead q 0x02 ws) (hen : (s.queue q).en = true)
    (herr : (s.queue q).err = false) (hm : cmdFld ws 1 0 0 = 1) :
    exec (.waitReread q) s = .next (((s.take q ws).finishStatus q (s.queue q).head 0).reachHead q) := by
  have hstart := startHead_of (f := fun _ i t => t.finishStatus q i 0) h
  obtain ⟨hr, hrec, hhead, hnext, hok, hcode⟩ := h
  change execWaitReread q s = _
  unfold execWaitReread
  rw [hhead]
  dsimp only
  rw [if_neg (by rw [serving_of hr hrec, hen, herr, hok, hcode, hm]; exact Bool.noConfusion), if_pos (beq_iff_eq.2 hnext), hstart]

theorem waitReread_other {s : State} {q : Nat} {ws : List W64} (hr : s.ready = true) (hrec : s.recovery = false) (hen : (s.queue q).en = true)
    (herr : (s.queue q).err = false) (hhead : s.head q = some (.command ws)) (hok : commandOk q (s.queue q).head ws = true)
    (hcode : cmdFld ws 0 7 0 = 2) (hm : cmdFld ws 1 0 0 = 1) (hnext : s.nextQueue ≠ some q) :
    exec (.waitReread q) s = .next (if s.cmdReaches q ws then s.rereadWait q ws else s) := by
  change execWaitReread q s = _
  unfold execWaitReread
  rw [hhead]
  dsimp only
  rw [if_neg (by rw [serving_of hr hrec, hen, herr, hok, hcode, hm]; exact Bool.noConfusion), if_neg (mt beq_iff_eq.1 hnext),
    apply_ite Host.Outcome.next]
  rfl

/-- The cores that a CAL names and no kernel holds (R430). -/
def State.calNamed (s : State) (ws : List W64) : List Nat :=
  (upto 192).filter fun n => cmdFld ws (2 + n / 64) (n % 64) (n % 64) == 1 && !s.kernels.any fun k => k.place.contains n

/-- The slots lent once a CAL has started. -/
def State.calLent (s : State) (ws : List W64) : List Nat :=
  let rest := s.lent.filter fun n => !(s.calNamed ws).contains n
  if cmdFld ws 1 0 0 == 1 then rest ++ s.calNamed ws else rest

theorem State.mem_calLent {s : State} {ws : List W64} {n : Nat} :
    n ∈ s.calLent ws ↔ (n ∈ s.lent ∧ n ∉ s.calNamed ws) ∨ (cmdFld ws 1 0 0 = 1 ∧ n ∈ s.calNamed ws) := by
  unfold State.calLent
  dsimp only
  by_cases h : cmdFld ws 1 0 0 = 1
  · rw [if_pos (beq_iff_eq.2 h)]
    simp [h]
  · rw [if_neg (mt beq_iff_eq.1 h)]
    simp [h]

theorem cal_of {s : State} {q : Nat} {ws : List W64} (h : s.atHead q 0x0A ws) : exec (.cal q) s =
    .next ((({ s.take q ws with lent := s.calLent ws } : State).finishStatus q (s.queue q).head 0).reachHead q) := by
  change execCal q s = _
  unfold execCal
  rw [startHead_of h]
  unfold State.calLent State.calNamed
  rw [← (s.take_takes q ws).kernels, ← (s.take_takes q ws).lent]
  rfl

/-- A code that no row of R421 lists has no masks. -/
theorem cmdMasks_unlisted : ∀ {code : Nat}, code = 0 ∨ 0x0F < code → cmdMasks code = none
  | 0, _ => rfl
  | _ + 16, _ => rfl

/-- Settles O40: the start of a command by its code, and its refusal by the row of its code. -/
theorem plainCommandResults : Obligations.PlainCommandResults := by
  unfold Obligations.PlainCommandResults
  dsimp only
  refine ⟨fun s q ws => ⟨fun h => ?_, fun h hen herr hm => waitReread_next h hen herr hm,
    fun m hr hrec hen herr hhead hok hcode hm hnext hne => waitReread_other hr hrec hen herr hhead hok hcode hm (hnext ▸ hne),
    fun h => ?_, fun h => ?_, fun h => ?_, fun h => ⟨_, cal_of h, fun n => State.mem_calLent⟩⟩,
    fun s q ws hr hrec hhead hnext hok => ?_⟩
  · change execWait q s = _
    exact startHead_of h
  · change execSignal q s = _
    exact startHead_of h
  · change execFenceCommand q s = _
    exact startHead_of h
  · change execNopc q s = _
    exact startHead_of h
  have refuse (code : Nat) (f : List W64 → Nat → State → State) (hcode : cmdFld ws 0 7 0 = code) :=
    startHead_malformed (f := f) hr hrec hhead hnext hok (.inl hcode)
  split
  · change execLaunch q s = _
    unfold execLaunch
    exact refuse _ _ ‹_›
  · change execWait q s = _
    exact refuse _ _ ‹_›
  · change execSignal q s = _
    exact refuse _ _ ‹_›
  · change execFenceCommand q s = _
    exact refuse _ _ ‹_›
  · change execFire q s = _
    unfold execFire
    rw [hhead]
    exact refuse _ _ ‹_›
  · change execPlanSetup q s = _
    unfold execPlanSetup
    exact refuse _ _ ‹_›
  · change execPlanFree q s = _
    unfold execPlanFree
    exact refuse _ _ ‹_›
  · change execCopy q none s = _
    unfold execCopy
    exact refuse _ _ ‹_›
  · change execScrub q none s = _
    unfold execScrub
    exact refuse _ _ ‹_›
  · change execCal q s = _
    unfold execCal
    exact refuse _ _ ‹_›
  · change execGroup q s = _
    unfold execGroup
    exact refuse _ _ ‹_›
  · change execPreempt q s = _
    unfold execPreempt
    exact refuse _ _ ‹_›
  · change execResume q s = _
    unfold execResume
    exact refuse _ _ ‹_›
  · change execNopc q s = _
    exact refuse _ _ ‹_›
  · change execExportEntry q s = _
    unfold execExportEntry
    exact refuse _ _ ‹_›
  · change execNopc q s = _
    exact startHead_malformed hr hrec hhead hnext hok (.inr ⟨cmdMasks_unlisted (by simp only [imp_false] at *; omega), rfl⟩)

end Sys2Proof.Machine
end

section
/-! PROOFS. COPY and SCRUB, beat by beat (R282, R283, R430). -/
namespace Sys2Proof.Machine

section
variable {s : State} {q i : Nat} {c : Cmd}

theorem copyNext_of (h : s.startedCmd q i 0x08 = some c) : exec (.copy q (some i)) s = eventIf s (s.copyReaches c) (s.copyBeat q c) := by
  change execCopy q (some i) s = _
  unfold execCopy
  dsimp only
  rw [h]

theorem scrubNext_of (h : s.startedCmd q i 0x09 = some c) : exec (.scrub q (some i)) s = eventIf s (s.scrubReaches c) (s.scrubBeat q c) := by
  change execScrub q (some i) s = _
  unfold execScrub
  dsimp only
  rw [h]

/-- What a COPY's next beat reads and writes (R430). -/
def State.copyMoved (s : State) (q : Nat) (c : Cmd) : State :=
  let at_ (w : Nat) : Nat := cmdFld c.words w 63 0 + 64 * c.progress
  let r := s.queueRead q (cmdFld c.words 4 0 0 == 1) (at_ 1) 64
  (r.2.queueWrite q (cmdFld c.words 4 1 1 == 1) (at_ 2) r.1).setCmd q { c with progress := c.progress + 1 }

theorem State.copyBeat_eq (s : State) (q : Nat) (c : Cmd) : s.copyBeat q c =
    if c.progress + 1 == cmdFld c.words 3 31 0 then (s.copyMoved q c).finishStatus q c.index 0 else s.copyMoved q c := rfl

/-- A beat of a SCRUB mends a correctable block and writes no byte of HBM. -/
theorem State.scrubBeat_mends {blk : Nat} (hp : c.progress < cmdFld c.words 2 31 0) (hb : cmdFld c.words 1 38 0 / 64 + c.progress = blk)
    (hgood : blk ∉ s.hbmBad) : blk ∉ (s.scrubBeat q c).hbmWeak ∧ (s.scrubBeat q c).hbm = s.hbm := by
  unfold State.scrubBeat
  dsimp only
  rw [if_neg (Nat.not_le.2 hp), hb]
  obtain ⟨_, _, _, h⟩ := s.crossAccess_sends 0 (dieOfPa (64 * blk)) [] false
  rw [h]
  dsimp only
  have hbad : s.hbmBad.contains blk = false := Bool.eq_false_iff.2 (mt List.contains_iff_mem.1 hgood)
  simp only [hbad, Bool.false_eq_true, ↓reduceIte]
  exact ⟨fun hm => by simpa using (List.mem_filter.1 hm).2, rfl⟩

theorem State.scrubBeat_last (hp : cmdFld c.words 2 31 0 ≤ c.progress) : s.scrubBeat q c =
    (s.queueWrite q (cmdFld c.words 4 1 1 == 1) (cmdFld c.words 3 63 0) (scrubMaps (cmdFld c.words 2 31 0) c.found)).finishStatus q c.index 0 :=
  if_pos hp
end

/-- Settles O41: the start of a COPY or SCRUB, and its next beat, by whether its memory is reached and which beat it is. -/
theorem beatCommandResults : Obligations.BeatCommandResults := by
  unfold Obligations.BeatCommandResults
  refine fun s q i ws => ⟨fun h => ?_, fun h => ?_, fun c hc hr => (copyNext_of hc).trans (eventIf_false hr),
    fun c hc hr => ⟨fun hne => ?_, fun heq => ?_⟩, fun c hc hr => (scrubNext_of hc).trans (eventIf_false hr),
    fun c hc hr => ⟨fun hp hgood _ => ?_, fun hp => ?_⟩⟩
  · change s.startHead 0x08 q (fun _ _ t => t) = _
    exact startHead_of h
  · change s.startHead 0x09 q (fun _ _ t => t) = _
    exact startHead_of h
  · rw [copyNext_of hc, eventIf_true hr, State.copyBeat_eq, if_neg (mt beq_iff_eq.1 hne)]
    rfl
  · rw [copyNext_of hc, eventIf_true hr, State.copyBeat_eq, if_pos (beq_iff_eq.2 heq)]
    rfl
  · exact ⟨_, (scrubNext_of hc).trans (eventIf_true hr), State.scrubBeat_mends hp rfl hgood⟩
  · rw [scrubNext_of hc, eventIf_true hr, State.scrubBeat_last hp]

end Sys2Proof.Machine
end

section
/-! PROOFS. A GROUP command that releases its entry (R328, R429). -/
namespace Sys2Proof.Machine

/-- A device whose queue 0 has one command, a GROUP that releases entry 0, assigned once to a queue of context 1. -/
def releaseState : State :=
  { State.reset with
    queues := SMap.set .reset [] 0 { Queue.reset with en := true, tail := 1 }
    groups := [(0, { Group.reset with ctx := 1 })]
    hbm := writeBytes [] 0 (toBytes 8 0x0B ++ toBytes 8 0x100) }

/-- The words of that command. -/
def releaseWords : List W64 := [0x0B, 0x100, 0, 0, 0, 0, 0, 0]

theorem releaseState_atHead : releaseState.atHead 0 0x0B releaseWords := by decide +kernel

/-- The released entry has no context, although its owner's queue had one. -/
theorem releaseState_clears_context :
    ((releaseState.take 0 releaseWords).groupCommand 0 releaseWords).map (fun u => (u.group 0).ctx) = some 0 := by decide +kernel

/-- Refutes O42: a GROUP that releases its entry clears the entry's context too, which the statement leaves as it was. -/
theorem not_kernelCommandResults : ¬ Obligations.KernelCommandResults := by
  unfold Obligations.KernelCommandResults
  intro h
  obtain ⟨-, hgroup, -⟩ := h releaseState 0 releaseWords
  obtain ⟨-, -, -, hfree⟩ := hgroup releaseState_atHead
  obtain ⟨hrelease, -⟩ := hfree (.inl (by decide +kernel))
  obtain ⟨u, hu, hgroups⟩ := hrelease (by decide +kernel)
  have hzero := releaseState_clears_context
  rw [hu, Option.map_some] at hzero
  have hkept : (u.group 0).ctx = 1 := by
    unfold State.group
    rw [hgroups]
    decide +kernel
  rw [hkept] at hzero
  cases hzero

end Sys2Proof.Machine
end

section
/-! PROOFS. The queue commands of plans (R329-R331, R335-R337). -/
namespace Sys2Proof.Machine

theorem State.Takes.plan {s t : State} (h : s.Takes t) (n : Nat) : t.plan n = s.plan n := by
  obtain ⟨_, _, _, _, _, rfl⟩ := h
  rfl

theorem State.Takes.judge {s t : State} (h : s.Takes t) (v : W64) : t.judge v = s.judge v := by
  obtain ⟨_, _, _, _, _, rfl⟩ := h
  rfl

section
variable {s : State} {q : Nat} {ws : List W64}

theorem fireQueued_of {f : QueuedFire} (hr : s.ready = true) (hrec : s.recovery = false) (hhead : s.head q = some (.fire f))
    (hnext : s.nextQueue = some q) : exec (.fire q) s = .next (s.startQueued q f) := by
  change execFire q s = _
  unfold execFire
  rw [hhead]
  exact eventIf_true (by rw [serving_of hr hrec, hnext, beq_self_eq_true]; rfl)

/-- A FIRE command starts by the verdict on its trigger. -/
theorem fireCommand_of (h : s.atHead q 0x05 ws) :
    exec (.fire q) s = .next (((s.take q ws).fireCommand q (s.queue q).head (ws.getD 1 0)).reachHead q) := by
  have hstart := startHead_of (f := fun ws i t => t.fireCommand q i (ws.getD 1 0)) h
  obtain ⟨-, -, hhead, -⟩ := h
  change execFire q s = _
  unfold execFire
  rw [hhead]
  exact hstart

section
variable {t : State} {i : Nat} {v : W64} {p : Plan} (hp : t.plan (fld v 15 0) = some p)
include hp

theorem State.fireCommand_starts (hj : t.judge v = .accepted) (hq : p.queue = q) : t.fireCommand q i v =
    t.startFiring (fld v 15 0) { p with accepted := fld v 63 32 } v (some (q, i)) (v.getLsbD 24) none := by
  unfold State.fireCommand
  dsimp only
  rw [hp]
  dsimp only
  rw [hj]
  exact if_pos (beq_iff_eq.2 hq)

theorem State.fireCommand_queues (hj : t.judge v = .accepted) (hq : p.queue ≠ q) : t.fireCommand q i v = t.queueFire v (some (q, i)) none := by
  unfold State.fireCommand
  dsimp only
  rw [hp]
  dsimp only
  rw [hj]
  exact if_neg (mt beq_iff_eq.1 hq)

theorem State.fireCommand_duplicate (hj : t.judge v = .duplicate) : t.fireCommand q i v = t.finishStatus q i 0 := by
  unfold State.fireCommand
  dsimp only
  rw [hp]
  dsimp only
  rw [hj]

theorem State.fireCommand_refused (hj : t.judge v = .refused) :
    t.fireCommand q i v = t.finishStatus q i (if p.state = .failed then 3 else 1) := by
  unfold State.fireCommand
  dsimp only
  rw [hp]
  dsimp only
  rw [hj]
  simp only [beq_iff_eq]
end

section
variable (h : s.atHead q 0x06 ws) {d : PlanDesc} {p : Plan} (hset : s.pkgset = true)
  (hread : s.readPlan (s.keyOf (s.queue q).ctx) (cmdFld ws 1 38 0) = some d) (hnew : s.newPlan d (some (q, (s.queue q).head)) = some p)
include h hset hread hnew

theorem planSetup_starts {n : Nat} (ha : s.advertised d = true) (hfree : s.freeHandle (d.packages.map PlanPackage.package) = some n) :
    exec (.planSetup q) s = .next ((if p.live then
        ((s.take q ws).setPlan n p).finish q (s.queue q).head (handleRecord (cidOf q (s.queue q).head) n)
      else ((s.take q ws).setPlan n p).askAll n p d).reachHead q) := by
  change execPlanSetup q s = _
  unfold execPlanSetup
  rw [startHead_of h]
  dsimp only
  rw [if_pos hset, hread]
  dsimp only
  rw [hnew, if_pos ha, hfree]

theorem planSetup_refused (hno : s.advertised d = false ∨ s.freeHandle (d.packages.map PlanPackage.package) = none) :
    exec (.planSetup q) s = .next (((s.take q ws).finishStatus q (s.queue q).head 3).reachHead q) := by
  have hnone : (if s.advertised d then s.freeHandle (d.packages.map PlanPackage.package) else none) = none := by
    obtain hno | hno := hno
    · rw [hno]
      rfl
    · rw [hno, ite_self]
  change execPlanSetup q s = _
  unfold execPlanSetup
  rw [startHead_of h]
  dsimp only
  rw [if_pos hset, hread]
  dsimp only
  rw [hnew, hnone]
end

theorem planFree_of (h : s.atHead q 0x07 ws) {p : Plan} (hp : s.plan (cmdFld ws 1 15 0) = some p) :
    exec (.planFree q) s = .next ((if p.live ∧ p.ctx = ((s.take q ws).queue q).ctx then
        ((s.take q ws).freeEverywhere (cmdFld ws 1 15 0) p).finishStatus q (s.queue q).head 0
      else (s.take q ws).finishStatus q (s.queue q).head 1).reachHead q) := by
  change execPlanFree q s = _
  unfold execPlanFree
  rw [startHead_of h]
  dsimp only
  rw [((s.take_takes q ws).plan _).trans hp]
  simp only [Bool.and_eq_true, beq_iff_eq]
end

/-- Settles O43: a FIRE by the verdict on its trigger, a set-up by its switches and the handles, a plan that is freed. -/
theorem planCommandResults : Obligations.PlanCommandResults := by
  unfold Obligations.PlanCommandResults
  refine fun s q ws => ⟨fun f hr hrec hhead hnext => fireQueued_of hr hrec hhead hnext, fun p h hp => ?_,
    fun d p h hset hread hnew => ⟨fun n ha hfree => planSetup_starts h hset hread hnew ha hfree,
      fun hno => planSetup_refused h hset hread hnew hno⟩, fun p h hp => planFree_of h hp⟩
  have hplan := ((s.take_takes q ws).plan _).trans hp
  have hjudge := (s.take_takes q ws).judge (ws.getD 1 0)
  rw [fireCommand_of h]
  refine ⟨fun hj hq => ?_, fun hj hq => ?_, fun hj => ?_, fun hj => ?_⟩
  · rw [State.fireCommand_starts hplan (hjudge.trans hj) hq]
  · rw [State.fireCommand_queues hplan (hjudge.trans hj) hq]
  · rw [State.fireCommand_duplicate hplan (hjudge.trans hj)]
  · rw [State.fireCommand_refused hplan (hjudge.trans hj)]

end Sys2Proof.Machine
end

section
/-! PROOFS. Register blocks, doorbells and the aperture (R413-R418, R441, R442, R453). -/
namespace Sys2Proof.Machine

/-! ## Words in eight bytes (R3) -/

theorem mergeBytes_whole (old v : W64) : mergeBytes old v 0 8 = v := by
  have hlen : (toBytes 8 old.toNat).drop 8 = [] := List.drop_of_length_le (Nat.le_of_eq (length_toBytes 8 _))
  unfold mergeBytes
  rw [List.take_zero, List.nil_append, Nat.zero_add, hlen, List.append_nil, ofBytes_toBytes, Nat.mod_eq_of_lt v.isLt, BitVec.ofNat_toNat,
    BitVec.setWidth_eq]

theorem bitsOf_one {v i : Nat} : bitsOf v i 1 = (v.testBit i).toNat := by
  rw [bitsOf, Nat.toNat_testBit, Nat.shiftRight_eq_div_pow, Nat.pow_one]

/-! ## The package number (R453) -/

section
variable {s : State} {v : Nat}

theorem State.setPackage_first (hb : v.testBit 10 = true) (hs : s.pkgset = false) :
    s.setPackage v = some { s with pkgset := true, pkgnum := BitVec.ofNat 10 v } := by
  unfold State.setPackage
  rw [bitsOf_one, hb, hs]
  rfl

theorem State.setPackage_same (hb : v.testBit 10 = true) (hs : s.pkgset = true) (hv : s.pkgnum.toNat = v % 1024) : s.setPackage v = some s := by
  unfold State.setPackage
  rw [bitsOf_one, hb, hs, beq_iff_eq.2 hv]
  rfl

theorem State.setPackage_other (hb : v.testBit 10 = true) (hs : s.pkgset = true) (hv : s.pkgnum.toNat ≠ v % 1024) : s.setPackage v = none := by
  unfold State.setPackage
  rw [bitsOf_one, hb, hs, beq_eq_false_iff_ne.2 hv]
  rfl

theorem State.setPackage_clear (hb : v.testBit 10 = false) : s.setPackage v = none := by
  unfold State.setPackage
  rw [bitsOf_one, hb]
  rfl
end

/-! ## Queues (R414-R417) -/

section
variable {s : State} {q : Nat} {v : W64} {tee : Bool} (hq : q < 32) (ha : s.answers tee)

section
include hq ha

theorem queueEnable_of (hv : v.getLsbD 0 = true) : exec (.queueEnable q v tee) s =
    .next (if (s.queue q).en then s else (s.setQueue q (if s.mayEnable q ((s.queue q).configure v) then ((s.queue q).configure v).enable
      else (s.queue q).configure v)).noteReady) := by
  change execQueueEnable q v tee s = _
  unfold execQueueEnable
  rw [if_neg (by rw [decide_eq_false (Nat.not_le.2 hq), hv]; exact Bool.noConfusion), State.mmioWrite_of ha]

theorem queueDisable_of (hv : v.getLsbD 0 = false) : exec (.queueDisable q v tee) s =
    .next (s.setQueue q (if (s.queue q).en then (s.queue q).stop else (s.queue q).configure v)) := by
  change execQueueDisable q v tee s = _
  unfold execQueueDisable
  rw [if_neg (by rw [decide_eq_false (Nat.not_le.2 hq), hv]; exact Bool.noConfusion), State.mmioWrite_of ha]

theorem qtailWrite_of (w : Nat) : exec (.qtailWrite q w v tee) s = .next (if w == 8 then s.writeTail q v else s) := by
  change execQtailWrite q w v tee s = _
  unfold execQtailWrite
  rw [if_neg (Nat.not_le.2 hq), State.mmioWrite_of ha]
end

theorem State.writeTail_inside (hen : (s.queue q).en = true) (herr : (s.queue q).err = false) (hl : (s.queue q).tail ≤ fld v 31 0)
    (hu : fld v 31 0 ≤ (s.queue q).final_ + 2 ^ (s.queue q).log2n) :
    s.writeTail q v = ((s.setQueue q { s.queue q with tail := fld v 31 0 }).reachHead q).noteReady := by
  unfold State.writeTail
  dsimp only
  rw [if_neg (by rw [hen, herr]; exact Bool.noConfusion), if_neg (by simp only [Bool.or_eq_true, decide_eq_true_eq]; omega)]

theorem State.writeTail_outside (hen : (s.queue q).en = true) (herr : (s.queue q).err = false)
    (h : fld v 31 0 < (s.queue q).tail ∨ (s.queue q).final_ + 2 ^ (s.queue q).log2n < fld v 31 0) :
    s.writeTail q v = s.setQueue q { s.queue q with err := true } := by
  unfold State.writeTail
  dsimp only
  rw [if_neg (by rw [hen, herr]; exact Bool.noConfusion), if_pos (by simpa using h)]

theorem Queue.stop_enabled {x : Queue} (h : x.en = true) :
    x.stop = { x with en := false, ready := none, starved := false, stopped := some (x.done_, x.final_) } := if_pos h

section
include hq

theorem State.register_head : s.register (256 * q + 0x20) = (s.queue q).headWord := by
  have hdiv : (256 * q + 0x20) / 256 = q := by omega
  have hmod : (256 * q + 0x20) % 256 = 0x20 := by omega
  unfold State.register
  rw [if_pos (by omega), hdiv, hmod]
  rfl

theorem State.register_final : s.register (256 * q + 0x28) = BitVec.ofNat 64 ((s.queue q).progress.2 % 2 ^ 32) := by
  have hdiv : (256 * q + 0x28) / 256 = q := by omega
  have hmod : (256 * q + 0x28) % 256 = 0x28 := by omega
  unfold State.register
  rw [if_pos (by omega), hdiv, hmod]
  rfl
end

/-- A whole register of a queue's block is no row of its own but for QCFG and QTAIL. -/
theorem ownRow_queue {off : Nat} (hq : q < 32) (ho : off = 8 ∨ off = 16) : ownRow (256 * q + off) = false := by
  have h8 : 256 * q + off - (256 * q + off) % 8 = 256 * q + off := by omega
  unfold ownRow
  dsimp only
  rw [h8]
  simp only [Bool.or_eq_false_iff, Bool.and_eq_false_iff, beq_eq_false_iff_ne, decide_eq_false_iff_not]
  omega

theorem accessOk_whole {off : Nat} (h : off % 8 = 0) : accessOk off 8 = true := by
  rw [accessOk, h]
  rfl

include ha

theorem registerWrite_of {off : Nat} (h8 : off % 8 = 0) (hrow : ownRow off = false) : exec (.registerWrite off 8 v tee) s = .next (
    if off < 0x2000 then
      if (s.queue (off / 256)).en then s
      else if off % 256 / 8 == 1 then s.setQueue (off / 256) { s.queue (off / 256) with base := BitVec.ofNat 64 (fld v 38 0) }
      else if off % 256 / 8 == 2 then s.setQueue (off / 256) { s.queue (off / 256) with comp := v }
      else s
    else if off / 8 == 0x10008 / 8 then { s with dbgsel := v }
    else if 0x10100 ≤ off && off < 0x10200 then { s with dbgbuf := writeBytes s.dbgbuf (off - 0x10100) (toBytes 8 v.toNat) }
    else s) := by
  change execRegisterWrite off 8 v tee s = _
  unfold execRegisterWrite
  rw [if_neg (by rw [accessOk_whole h8, hrow]; exact Bool.noConfusion), State.mmioWrite_of ha]
  dsimp only
  rw [h8]
  simp only [mergeBytes_whole]

include hq

theorem registerWrite_queue {off : Nat} (hen : (s.queue q).en = false) (ho : off = 8 ∨ off = 16) :
    exec (.registerWrite (256 * q + off) 8 v tee) s = .next (
      if off / 8 == 1 then s.setQueue q { s.queue q with base := BitVec.ofNat 64 (fld v 38 0) }
      else if off / 8 == 2 then s.setQueue q { s.queue q with comp := v } else s) := by
  have hdiv : (256 * q + off) / 256 = q := by omega
  have hmod : (256 * q + off) % 256 = off := by omega
  rw [registerWrite_of ha (by omega) (ownRow_queue hq ho), if_pos (by omega), hdiv, hmod, if_neg (by rw [hen]; exact Bool.noConfusion)]
end

section
variable {s : State} {v : W64} {tee : Bool} (ha : s.answers tee)
include ha

theorem ap4baseWrite_of : exec (.ap4baseWrite v tee) s =
    .next (if fld v 38 0 % 2 ^ s.bar4 = 0 then { s with ap4base := BitVec.ofNat 64 (fld v 38 0) } else s) := by
  change execAp4baseWrite v tee s = _
  unfold execAp4baseWrite
  rw [State.mmioWrite_of ha]
  simp only [beq_iff_eq]

theorem pkgnumWrite_of : exec (.pkgnumWrite v tee) s = .next ((s.setPackage v.toNat).getD s) := by
  change execPkgnumWrite v tee s = _
  exact State.mmioWrite_of ha
end

/-- A doorbell is served once it has passed to die 0, where the front-end is (R417). -/
theorem doorbellWrite_of {s : State} {k q ctx die : Nat} {v : W64} {p : Packet} (hp : s.net[k]? = some p)
    (hk : p.kind = .doorbell q v ctx die) : exec (.doorbellWrite k) s = eventIf s (die == 0 || s.groupUp 3)
      (if ctx == (s.queue q).ctx then (s.dropPacket k).writeTail q v else s.dropPacket k) := by
  have hpass : s.packetPasses p = (die == 0 || s.groupUp 3) := by
    unfold State.packetPasses
    rw [hk]
  change execDoorbellWrite k s = _
  unfold execDoorbellWrite
  rw [hp]
  dsimp only
  rw [hk, ← hpass]
  rfl

/-- Settles O44: each register by its offset, each queue by whether it is enabled, a doorbell by the die it comes from. -/
theorem registerEventResults : Obligations.RegisterEventResults := by
  unfold Obligations.RegisterEventResults
  refine fun s q v tee hq => ⟨fun ha => ⟨fun hv => ⟨fun hen => ?_, fun hen => ⟨?_, rfl, rfl, rfl, rfl⟩⟩, fun hv => ⟨fun hen => ?_, fun hen => ?_⟩,
    fun h => ?_, fun p h => ?_, ?_, ?_, fun w hw => ?_, fun hen herr => ⟨fun hl hu => ?_, fun h => ?_⟩, ap4baseWrite_of ha, fun hb hs => ?_,
    fun h => ?_, fun hen => ⟨?_, ?_⟩, ?_, ?_⟩, fun k p ctx die hp hk => ⟨fun hd hg => ?_, fun hd => ?_⟩, fun hr hrec ht => ?_, fun hr hrec ht => ?_⟩
  · rw [queueEnable_of hq ha hv, if_pos hen]
  · rw [queueEnable_of hq ha hv, if_neg (by rw [hen]; exact Bool.noConfusion)]
  · rw [queueDisable_of hq ha hv, if_neg (by rw [hen]; exact Bool.noConfusion)]
  · rw [queueDisable_of hq ha hv, if_pos hen, Queue.stop_enabled hen]
  · rw [Queue.progress, h]
    rfl
  · rw [Queue.progress, h]
    rfl
  · rw [State.register_head hq, Queue.headWord, Nat.one_shiftLeft, Nat.shiftLeft_eq]
  · exact State.register_final hq
  · rw [qtailWrite_of hq ha, if_neg (mt beq_iff_eq.1 hw)]
  · rw [qtailWrite_of hq ha, if_pos (beq_self_eq_true 8), State.writeTail_inside hen herr hl hu]
  · rw [qtailWrite_of hq ha, if_pos (beq_self_eq_true 8), State.writeTail_outside hen herr h]
  · rw [pkgnumWrite_of ha, State.setPackage_first hb hs]
    rfl
  · rw [pkgnumWrite_of ha]
    obtain hb | ⟨hs, hne⟩ := h
    · rw [State.setPackage_clear hb]
      rfl
    · cases hb : v.toNat.testBit 10
      · rw [State.setPackage_clear hb]
        rfl
      · rw [State.setPackage_other hb hs fun heq => hne (BitVec.eq_of_toNat_eq (by rw [heq, BitVec.toNat_setWidth]))]
        rfl
  · exact registerWrite_queue hq ha hen (.inl rfl)
  · exact registerWrite_queue hq ha hen (.inr rfl)
  · exact registerWrite_of ha rfl rfl
  · exact registerWrite_of ha rfl rfl
  · rw [doorbellWrite_of hp hk, beq_eq_false_iff_ne.2 hd, hg]
    rfl
  · rw [doorbellWrite_of hp hk, eventIf_true (by simpa using hd)]
    simp only [beq_iff_eq]
  · change s.mmioWrite false _ = _
    unfold State.mmioWrite
    rw [hr, hrec, ht]
    rfl
  · change s.mmioWrite true _ = _
    unfold State.mmioWrite
    rw [hr, hrec, ht]
    rfl

end Sys2Proof.Machine
end

section
/-! PROOFS. BAR 4 and the package number over the side band (R418, R442, R447, R453). -/
namespace Sys2Proof.Machine

/-- A read of sound blocks of context 0 below the doorbell page gives the bytes that stand there. -/
theorem State.contextRead_sound {s : State} {a w : Nat} (hz : s.zeroFill = false) (hb : ∀ b ∈ rangeFrom a w, b / 64 ∉ s.hbmBad ∧ s.blockKey b = none)
    (hd : a + w ≤ doorbellBase) : s.contextRead none a w = (readBytes s.hbm a w, s) := by
  have hsound : s.uncorrectable a w = false := List.any_eq_false.2 fun b hm => mt List.contains_iff_mem.1 (hb b hm).1
  unfold State.contextRead
  rw [hsound, if_neg Bool.false_ne_true, State.hbmRead, State.hbmTouch_same_key hz fun b hm => (hb b hm).2,
    State.hbmBytes_same_key hz (fun b hm => (hb b hm).2) hd]

section
variable {s : State} {off w : Nat} (hserve : s.serving = true) (hw : w = 1 ∨ w = 2 ∨ w = 4 ∨ w = 8) (hoff : off % w = 0) (hin : off < 2 ^ s.bar4)

/-- Whether an access of BAR 4 meets no memory: beyond the end of HBM, or while a wipe has not filled it. -/
def State.gone (s : State) (off w : Nat) : Bool := hbmSize < s.aperture + off + w || s.zeroFill

theorem State.gone_iff : s.gone off w = true ↔ 2 ^ 39 < s.aperture + off + w ∨ s.zeroFill = true := by
  rw [State.gone, Bool.or_eq_true, decide_eq_true_iff, hbmSize]

include hw hoff in
theorem accessOk_of : accessOk off w = true := by
  rw [accessOk, hoff]
  obtain rfl | rfl | rfl | rfl := hw <;> rfl

include hserve hw hoff hin

section
variable (ht : s.tdi = .error)
include ht

theorem bar4Read_error : exec (.bar4Access off w none) s =
    .next { s with outs := s.outs ++ [.data (BitVec.ofNat 64 (2 ^ (8 * w) - 1))] } := by
  change execBar4Access off w none s = _
  unfold execBar4Access
  dsimp only
  rw [if_neg (by rw [hserve, accessOk_of hw hoff, decide_eq_false (Nat.not_le.2 hin)]; exact Bool.noConfusion), if_pos (beq_iff_eq.2 ht)]

theorem bar4Write_error (v : W64) : exec (.bar4Access off w (some v)) s = .next s := by
  change execBar4Access off w (some v) s = _
  unfold execBar4Access
  dsimp only
  rw [if_neg (by rw [hserve, accessOk_of hw hoff, decide_eq_false (Nat.not_le.2 hin)]; exact Bool.noConfusion), if_pos (beq_iff_eq.2 ht)]
end

variable (ht : s.tdi ≠ .error)
include ht

theorem bar4Read_of : exec (.bar4Access off w none) s = if s.gone off w then .next { s with outs := s.outs ++ [.data 0] }
    else .next { (s.contextRead none (s.aperture + off) w).2 with
      outs := (s.contextRead none (s.aperture + off) w).2.outs ++ [.data (BitVec.ofNat 64 (ofBytes (s.contextRead none (s.aperture + off) w).1))] } := by
  change execBar4Access off w none s = _
  unfold execBar4Access
  dsimp only
  rw [if_neg (by rw [hserve, accessOk_of hw hoff, decide_eq_false (Nat.not_le.2 hin)]; exact Bool.noConfusion), if_neg (mt beq_iff_eq.1 ht)]
  rfl

theorem bar4Write_of (v : W64) : exec (.bar4Access off w (some v)) s = if s.gone off w then .next s
    else if s.writeRoom (s.aperture + off) then
      .next ((s.hbmWrite none (s.aperture + off) (toBytes w v.toNat)).enqueue (s.aperture + off))
    else .next s := by
  change execBar4Access off w (some v) s = _
  unfold execBar4Access
  dsimp only
  rw [if_neg (by rw [hserve, accessOk_of hw hoff, decide_eq_false (Nat.not_le.2 hin)]; exact Bool.noConfusion), if_neg (mt beq_iff_eq.1 ht)]
  rfl
end

theorem barResize_of {s : State} {n : Nat} (h : s.serving = true) :
    exec (.barResize n) s = .next (s.guardedConfig fun s => if 30 ≤ n && n ≤ 39 then { s with bar4 := n } else s) := by
  change execBarResize n s = _
  unfold execBarResize
  rw [h]
  rfl

section
variable {s : State} {p : BitVec 16} (hl : s.lifecycle ≠ .scrapped) (hrec : s.recovery = false)
include hl hrec

theorem setPkgnum_accepted {t : State} (h : s.setPackage p.toNat = some t) : exec (.setPkgnum p) s = .next { t with outs := t.outs ++ [.answer true] } := by
  change execSetPkgnum p s = _
  unfold execSetPkgnum
  rw [if_neg (mt beq_iff_eq.1 hl), if_neg (by rw [hrec]; exact Bool.false_ne_true), h]

theorem setPkgnum_refused (h : s.setPackage p.toNat = none) : exec (.setPkgnum p) s = .next { s with outs := s.outs ++ [.answer false] } := by
  change execSetPkgnum p s = _
  unfold execSetPkgnum
  rw [if_neg (mt beq_iff_eq.1 hl), if_neg (by rw [hrec]; exact Bool.false_ne_true), h]
end

/-- Settles O45: an access of BAR 4 by the state of the interface and what it meets, the BAR's size, and the side band's number. -/
theorem apertureResults : Obligations.ApertureResults := by
  unfold Obligations.ApertureResults
  intro s hr hrec
  have hserve := serving_of hr hrec
  refine ⟨fun off w hw hoff hin => ⟨fun ht hz hsize => ⟨fun hb hd => ?_, fun v hroom => ?_⟩, fun ht hgone => ⟨?_, fun v => ?_⟩,
    fun ht => ⟨bar4Read_error hserve hw hoff hin ht, bar4Write_error hserve hw hoff hin ht⟩⟩,
    fun n => ⟨fun ht h30 h39 => ?_, fun ht => ?_, fun ht => ?_⟩, fun p hl => ⟨fun hb hs => ?_, fun hb hs => ?_, fun hb => ?_⟩⟩
  · have hin' : s.gone off w = false := Bool.eq_false_iff.2 fun h => by
      obtain h | h := State.gone_iff.1 h
      · omega
      · exact Bool.noConfusion (hz.symm.trans h)
    rw [bar4Read_of hserve hw hoff hin ht, hin', State.contextRead_sound hz hb hd]
    rfl
  · have hin' : s.gone off w = false := Bool.eq_false_iff.2 fun h => by
      obtain h | h := State.gone_iff.1 h
      · omega
      · exact Bool.noConfusion (hz.symm.trans h)
    rw [bar4Write_of hserve hw hoff hin ht, hin', if_neg Bool.false_ne_true, if_pos ((s.writeRoom_iff _).2 (.inr hroom))]
  · rw [bar4Read_of hserve hw hoff hin ht, if_pos (State.gone_iff.2 hgone)]
  · rw [bar4Write_of hserve hw hoff hin ht, if_pos (State.gone_iff.2 hgone)]
  · rw [barResize_of hserve, State.guardedConfig, ht]
    exact congrArg Host.Outcome.next (if_pos (by rw [decide_eq_true h30, decide_eq_true h39]; rfl))
  · rw [barResize_of hserve, State.guardedConfig, ht]
  · rw [barResize_of hserve, State.guardedConfig]
    obtain ht | ht := ht <;> rw [ht]
  · exact setPkgnum_accepted hl hrec (State.setPackage_first hb hs)
  · have hiff : (s.pkgnum == p.setWidth 10) = true ↔ s.pkgnum.toNat = p.toNat % 1024 := by
      rw [beq_iff_eq, ← BitVec.toNat_inj, BitVec.toNat_setWidth]
    by_cases hv : s.pkgnum.toNat = p.toNat % 1024
    · rw [hiff.2 hv]
      exact setPkgnum_accepted hl hrec (State.setPackage_same hb hs hv)
    · rw [Bool.eq_false_iff.2 (mt hiff.1 hv)]
      exact setPkgnum_refused hl hrec (State.setPackage_other hb hs hv)
  · exact setPkgnum_refused hl hrec (State.setPackage_clear hb)

end Sys2Proof.Machine
end

section
/-! PROOFS. The debug page (R114, R399-R401, R436). -/
namespace Sys2Proof.Machine

section
variable {s : State} {v : W64} {tee need : Bool} {k : Kernel} {op : Nat} {f : State → Kernel → Option State} (ha : s.answers tee)
  (hk : s.kernels.find? (fun k => k.cid == fld v 63 32) = some k) (hop : fld v 3 0 = op)
include ha hk hop

/-- A debug command that the interface serves gets as far as the checks of its kernel. -/
theorem debugCommand_served : s.debugCommand op v tee need f = .next (
    if (1 ≤ op && op ≤ 8) && s.debuggable k && (k.session || !need) then ((f s k).map fun t => t.debugDone 0).getD (s.debugDone 1)
    else s.debugDone 1) := by
  unfold State.debugCommand
  dsimp only
  rw [hop, if_neg (by rw [bne_self_eq_false]; exact Bool.noConfusion), State.mmioWrite_of ha, hk]
  dsimp only
  generalize f s k = r
  cases r <;> rfl

theorem debugCommand_refused (hf : f s k = none) : s.debugCommand op v tee need f = .next { s with dbgstat := 2 } := by
  rw [debugCommand_served ha hk hop, hf]
  exact congrArg Host.Outcome.next (ite_self _)
variable (hd : s.debuggable k = true) (hn : k.session = true ∨ need = false) (hl : 1 ≤ op) (hu : op ≤ 8)
include hd hn hl hu

theorem debugCommand_done {t : State} (hf : f s k = some t) : s.debugCommand op v tee need f = .next { t with dbgstat := 0 } := by
  have hsession : (k.session || !need) = true := by
    obtain h | h := hn <;> rw [h]
    · rfl
    · exact Bool.or_true _
  rw [debugCommand_served ha hk hop, hf, if_pos (by rw [hd, hsession, decide_eq_true hl, decide_eq_true hu]; rfl)]
  rfl

end

theorem debugCommand_barred {s : State} {v : W64} {tee need : Bool} {k : Kernel} {op : Nat} {f : State → Kernel → Option State}
    (ha : s.answers tee) (hk : s.kernels.find? (fun k => k.cid == fld v 63 32) = some k) (hop : fld v 3 0 = op)
    (hd : s.debuggable k = false) : s.debugCommand op v tee need f = .next { s with dbgstat := 2 } := by
  rw [debugCommand_served ha hk hop, hd, Bool.and_false, Bool.false_and]
  rfl

/-! ## Targets of READ, WRITE and CANCEL -/

section
variable {s : State} {k : Kernel} {v : W64} {able : Core → Nat → Bool}

theorem State.debugTargets_some (hne : k.named v ≠ []) (hh : ∀ n ∈ k.named v, s.heldHalted n = true)
    (ha : ∀ n ∈ k.named v, able (s.core n) n = true) : s.debugTargets k v able = some (k.named v) := by
  refine if_pos ?_
  rw [List.isEmpty_eq_false_iff.2 hne, Bool.not_false, Bool.true_and, List.all_eq_true]
  exact fun n hn => by rw [hh n hn, ha n hn]; rfl

theorem State.debugTargets_none (h : k.named v = [] ∨ ∃ n ∈ k.named v, (s.heldHalted n && able (s.core n) n) = false) :
    s.debugTargets k v able = none := by
  refine if_neg ?_
  rw [Bool.and_eq_true, List.all_eq_true]
  rintro ⟨hne, hall⟩
  obtain h | ⟨n, hn, h⟩ := h
  · rw [h] at hne
    exact Bool.noConfusion hne
  · exact Bool.noConfusion (h.symm.trans (hall n hn))
end

/-! ## Edits of several cores (R400) -/

/-- Cores changed one after another: those not named stay, and nothing but cores changes. -/
theorem State.foldl_modCore_other {f : Nat → Core → Core} {ns : List Nat} {n : Nat} (h : n ∉ ns) (s : State) :
    (ns.foldl (fun s m => s.modCore m (f m)) s).core n = s.core n :=
  foldl_read_other (r := fun t : State => t.core n) (fun t _ hm => State.core_setCore_other t _ fun heq => h (heq ▸ hm)) s

theorem State.foldl_modCore_same {f : Nat → Core → Core} : ∀ {ns : List Nat} {n : Nat}, ns.Nodup → n ∈ ns → ∀ s : State,
    (ns.foldl (fun s m => s.modCore m (f m)) s).core n = f n (s.core n)
  | m :: ms, n, hnd, hn, s => by
    obtain ⟨hm, hnd⟩ := List.nodup_cons.1 hnd
    rw [List.foldl_cons]
    obtain rfl | hn := List.mem_cons.1 hn
    · rw [State.foldl_modCore_other hm]
      exact State.core_setCore_same ..
    · rw [State.foldl_modCore_same hnd hn]
      exact congrArg (f n) (State.core_setCore_other s _ fun heq => hm (heq ▸ hn))

theorem State.foldl_modCore_frame (f : Nat → Core → Core) (ns : List Nat) (s : State) :
    ns.foldl (fun s m => s.modCore m (f m)) s = { s with cores := (ns.foldl (fun s m => s.modCore m (f m)) s).cores } := by
  obtain ⟨cores, h⟩ := foldl_keeps (P := fun t : State => ∃ cores, t = { s with cores := cores }) (f := fun s m => s.modCore m (f m))
    (fun t m h => by obtain ⟨_, rfl⟩ := h; exact ⟨_, rfl⟩) ns s ⟨_, rfl⟩
  rw [h]

theorem Core.cancelEntry_of {c : Core} {e : Nat} {i : Item} (hi : c.a.inflight[e]? = some i) (hg : i.act.isGate = false) :
    c.cancelEntry e = some { c with a := { c.a with inflight := c.a.inflight.eraseIdx e } } := by
  unfold Core.cancelEntry
  rw [hi]
  exact if_neg (by rw [hg]; exact Bool.noConfusion)

section
variable {s : State} {v : W64} {tee : Bool} {k : Kernel} (ha : s.answers tee)
  (hk : s.kernels.find? (fun k => k.cid == fld v 63 32) = some k) (hd : s.debuggable k = true) (hs : k.session = true)
include ha hk

theorem debugOpen_of (hop : fld v 3 0 = 1) : exec (.debugOpen v tee) s =
    if s.debuggable k = true ∧ k.ctx = (s.queue k.queue).ctx then .next { s.setKernel { k with session := true } with dbgstat := 0 }
    else .next { s with dbgstat := 2 } := by
  change execDebugOpen v tee s = _
  unfold execDebugOpen
  by_cases h : s.debuggable k = true ∧ k.ctx = (s.queue k.queue).ctx
  · rw [if_pos h]
    exact debugCommand_done ha hk hop h.1 (.inr rfl) (by decide) (by decide) (if_pos (beq_iff_eq.2 h.2))
  · rw [if_neg h]
    by_cases hd : s.debuggable k = true
    · exact debugCommand_refused ha hk hop (if_neg fun hc => h ⟨hd, beq_iff_eq.1 hc⟩)
    · exact debugCommand_barred ha hk hop (Bool.eq_false_iff.2 hd)

include hd hs

theorem debugClose_of (hop : fld v 3 0 = 2) : exec (.debugClose v tee) s =
    .next { (s.setKernel { k with session := false }).debugRelease { k with session := false } (k.place.take k.n) with dbgstat := 0 } := by
  change execDebugClose v tee s = _
  exact debugCommand_done ha hk hop hd (.inl hs) (by decide) (by decide) rfl

theorem debugHalt_of (hop : fld v 3 0 = 3) : exec (.debugHalt v tee) s =
    if ∃ n ∈ k.named v, (s.core n).run.live = true
    then .next { (k.named v).foldl (fun s n => s.freezeCore n (.debug false)) s with dbgstat := 0 } else .next { s with dbgstat := 2 } := by
  change execDebugHalt v tee s = _
  unfold execDebugHalt
  by_cases h : ∃ n ∈ k.named v, (s.core n).run.live = true
  · rw [if_pos h]
    exact debugCommand_done ha hk hop hd (.inl hs) (by decide) (by decide) (if_pos (List.any_eq_true.2 h))
  · rw [if_neg h]
    exact debugCommand_refused ha hk hop (if_neg (mt List.any_eq_true.1 h))

theorem debugResume_of (hop : fld v 3 0 = 4) : exec (.debugResume v tee) s =
    if (k.named v).filter (fun n => s.halted n || (s.core n).debugHold) = [] then .next { s with dbgstat := 2 }
    else .next { s.debugRelease k ((k.named v).filter fun n => s.halted n || (s.core n).debugHold) with dbgstat := 0 } := by
  change execDebugResume v tee s = _
  unfold execDebugResume
  by_cases h : (k.named v).filter (fun n => s.halted n || (s.core n).debugHold) = []
  · rw [if_pos h]
    exact debugCommand_refused ha hk hop (if_pos (List.isEmpty_iff.2 h))
  · rw [if_neg h]
    exact debugCommand_done ha hk hop hd (.inl hs) (by decide) (by decide) (if_neg (mt List.isEmpty_iff.1 h))

theorem debugStep_of (hop : fld v 3 0 = 5) : exec (.debugStep v tee) s =
    if (k.named v).filter s.halted = [] ∨ k.state = .frozen then .next { s with dbgstat := 2 }
    else .next { (((k.named v).filter s.halted).foldl (fun s n => s.modCore n fun c => { c with run := .debug true }) s).applyTraffic k with
      dbgstat := 0 } := by
  have hiff : ((k.named v).filter s.halted).isEmpty = true ∨ (k.state == .frozen) = true ↔ (k.named v).filter s.halted = [] ∨ k.state = .frozen := by
    rw [List.isEmpty_iff, beq_iff_eq]
  change execDebugStep v tee s = _
  unfold execDebugStep
  by_cases h : (k.named v).filter s.halted = [] ∨ k.state = .frozen
  · rw [if_pos h]
    exact debugCommand_refused ha hk hop (if_pos (Bool.or_eq_true_iff.2 (hiff.2 h)))
  · rw [if_neg h]
    exact debugCommand_done ha hk hop hd (.inl hs) (by decide) (by decide) (if_neg fun hc => h (hiff.1 (Bool.or_eq_true_iff.1 hc)))

/-! ## READ, WRITE and CANCEL (R400, R401, R114) -/

theorem debugRead_some (hop : fld v 3 0 = 6) (hne : k.named v ≠ []) (hh : ∀ n ∈ k.named v, s.heldHalted n = true)
    (hget : ∀ n ∈ k.named v, ((s.core n).debugGet n s.selected.1 s.selected.2.1 s.selected.2.2).isSome = true) :
    ∃ n ∈ k.named v, ∃ bs, (s.core n).debugGet n s.selected.1 s.selected.2.1 s.selected.2.2 = some bs ∧
      exec (.debugRead v tee) s = .next { s with dbgbuf := writeBytes s.dbgbuf 0 bs, fresh := s.fresh + 1, dbgstat := 0 } := by
  have hlt : Config.lastRead s.fresh % (k.named v).length < (k.named v).length := Nat.mod_lt _ (List.length_pos_iff.2 hne)
  have hmem : (k.named v).getD (Config.lastRead s.fresh % (k.named v).length) 0 ∈ k.named v := by
    rw [List.getD_eq_getElem?_getD, List.getElem?_eq_getElem hlt, Option.getD_some]
    exact List.getElem_mem hlt
  obtain ⟨bs, hbs⟩ := Option.isSome_iff_exists.1 (hget _ hmem)
  refine ⟨_, hmem, bs, hbs, ?_⟩
  change execDebugRead v tee s = _
  unfold execDebugRead
  refine debugCommand_done ha hk hop hd (.inl hs) (by decide) (by decide)
    (t := { s with dbgbuf := writeBytes s.dbgbuf 0 bs, fresh := s.fresh + 1 }) ?_
  dsimp only
  rw [State.debugTargets_some hne hh hget, Option.bind_some, hbs]
  rfl

omit hd hs in
theorem debugRead_refused (hop : fld v 3 0 = 6) (hno : k.named v = [] ∨ ∃ n ∈ k.named v,
    (s.heldHalted n && ((s.core n).debugGet n s.selected.1 s.selected.2.1 s.selected.2.2).isSome) = false) :
    exec (.debugRead v tee) s = .next { s with dbgstat := 2 } := by
  change execDebugRead v tee s = _
  refine debugCommand_refused ha hk hop ?_
  dsimp only
  rw [State.debugTargets_none (able := fun c n => (c.debugGet n s.selected.1 s.selected.2.1 s.selected.2.2).isSome) hno]
  rfl

section
variable {edit : Core → Option Core}

omit hd hs in
/-- The refusal of an edit, of whichever kind, of cores that cannot take it. -/
theorem debugEdit_refused {op : Nat} {f : State → Kernel → Option State} (hop : fld v 3 0 = op)
    (hno : k.named v = [] ∨ ∃ n ∈ k.named v, (s.heldHalted n && (edit (s.core n)).isSome) = false)
    (hf : f s k = (s.debugTargets k v fun c _ => (edit c).isSome).map fun ns => s.debugEdit k ns edit) :
    s.debugCommand op v tee true f = .next { s with dbgstat := 2 } :=
  debugCommand_refused ha hk hop
    (by rw [hf, State.debugTargets_none (able := fun c _ => (edit c).isSome) hno]; rfl)

/-- An edit that every core named can take. -/
theorem debugEdit_done {op : Nat} {f : State → Kernel → Option State} (hop : fld v 3 0 = op) (hl : 1 ≤ op) (hu : op ≤ 8)
    (hne : k.named v ≠ []) (hh : ∀ n ∈ k.named v, s.heldHalted n = true) (hedit : ∀ n ∈ k.named v, (edit (s.core n)).isSome = true)
    (hf : f s k = (s.debugTargets k v fun c _ => (edit c).isSome).map fun ns => s.debugEdit k ns edit) :
    s.debugCommand op v tee true f = .next { s.debugEdit k (k.named v) edit with dbgstat := 0 } :=
  debugCommand_done ha hk hop hd (.inl hs) hl hu (by rw [hf, State.debugTargets_some hne hh hedit]; rfl)
end
end

/-- Settles O46: each debug command by the kernel it names, the state of that kernel's cores and what DBGSEL selects. -/
theorem debugCommandResults : Obligations.DebugCommandResults := by
  unfold Obligations.DebugCommandResults
  intro s v tee k ha hk
  refine ⟨debugOpen_of ha hk, fun hd hs => ⟨debugClose_of ha hk hd hs, debugHalt_of ha hk hd hs, debugResume_of ha hk hd hs,
    debugStep_of ha hk hd hs, fun h => ?_, fun hne hh => ⟨fun hop hget => debugRead_some ha hk hd hs hop hne hh hget, fun hop hno => ?_,
      fun hop hput => ?_, fun hop hno => ?_, fun hop hcan => ?_⟩⟩⟩
  · have hno (able : Core → Nat → Bool) : k.named v = [] ∨ ∃ n ∈ k.named v, (s.heldHalted n && able (s.core n) n) = false :=
      h.imp_right fun ⟨n, hn, hf⟩ => ⟨n, hn, by rw [hf, Bool.false_and]⟩
    refine ⟨fun hop => debugRead_refused ha hk hop (hno fun c n => (c.debugGet n s.selected.1 s.selected.2.1 s.selected.2.2).isSome),
      fun hop => ?_, fun hop => ?_⟩
    · change execDebugWrite v tee s = _
      exact debugEdit_refused ha hk hop (hno fun c _ => (c.debugPut s.selected.1 s.selected.2.1
        s.selected.2.2 (readBytes s.dbgbuf 0 256)).isSome) rfl
    · change execDebugCancel v tee s = _
      exact debugEdit_refused ha hk hop (hno fun c _ => (c.cancelEntry (fld s.dbgsel 55 0)).isSome) rfl
  · obtain ⟨n, hn, hf⟩ := hno
    exact debugRead_refused ha hk hop (.inr ⟨n, hn,
      (congrArg (fun x => s.heldHalted n && Option.isSome x) hf).trans (Bool.and_false _)⟩)
  · change execDebugWrite v tee s = _
    exact debugEdit_done ha hk hd hs hop (by decide) (by decide) hne hh hput rfl
  · obtain ⟨n, hn, hf⟩ := hno
    change execDebugWrite v tee s = _
    exact debugEdit_refused ha hk hop (.inr ⟨n, hn,
      (congrArg (fun x => s.heldHalted n && Option.isSome x) hf).trans (Bool.and_false _)⟩) rfl
  · have hedit (n : Nat) (hn : n ∈ k.named v) : (s.core n).cancelEntry (fld s.dbgsel 55 0) = some { s.core n with a := { (s.core n).a with
        inflight := (s.core n).a.inflight.eraseIdx (fld s.dbgsel 55 0) } } := by
      obtain ⟨i, hi, hg⟩ := hcan n hn
      exact Core.cancelEntry_of hi hg
    refine ⟨(k.named v).foldl (fun t n => t.modCore n fun c => (c.cancelEntry (fld s.dbgsel 55 0)).getD c) s, ?_, State.foldl_modCore_frame (fun _ c => (c.cancelEntry (fld s.dbgsel 55 0)).getD c) _ _,
      fun n hn =>
      State.foldl_modCore_other (f := fun _ c => (c.cancelEntry (fld s.dbgsel 55 0)).getD c) hn s, fun hnd n hn => ?_⟩
    · change execDebugCancel v tee s = _
      exact debugEdit_done ha hk hd hs hop (by decide) (by decide) hne hh (fun n hn => by rw [hedit n hn]; rfl) rfl
    · rw [State.foldl_modCore_same (f := fun _ c => (c.cancelEntry (fld s.dbgsel 55 0)).getD c) hnd hn, hedit n hn]
      rfl

end Sys2Proof.Machine
end

section
/-! PROOFS. The scan, the heartbeat, takeover and firmware updates (R432-R435, R438, R449). -/
namespace Sys2Proof.Machine

/-! ## The scan (R432, R433) -/

section
variable {s : State} (hr : s.ready = true) (hrec : s.recovery = false)

section
include hr hrec

theorem scanStart_of {p : Nat} (hp : s.nextScan = some p) (hs : s.scanning = none) (hfree : s.pairFree p = true) :
    exec .scanStart s = .next { s with scanning := some p, scanNext := p } := by
  change execScanStart s = _
  unfold execScanStart
  rw [hp]
  exact eventIf_true (by rw [serving_of hr hrec, hs, hfree]; rfl)

theorem heartbeat_of (h : coreMhz s.freq * 100 ≤ s.phys - s.beatAt) :
    exec .heartbeat s = .next { s with heartbeats := s.heartbeats + 1, beatAt := s.phys } := by
  change execHeartbeat s = _
  exact eventIf_true (by rw [serving_of hr hrec, decide_eq_true h]; rfl)
end

section
variable {p q : Nat} {k : Kernel} (hp : s.nextScan = some p)
  (hk : s.kernels.find? (fun k => (k.place.take k.n).any fun n => pairOf n == p) = some k)
  (hq : (upto 96).find? (fun q => s.pairFree q && dieOf (2 * q) == dieOf (2 * p)) = some q)
include hp hk hq

theorem scanMove_freezes (hrun : k.state = .running) (ht : s.ms 200 ≤ s.phys - Nat.max s.scanSince k.since) :
    exec .scanMove s = .next (s.freezeAll k) := by
  change execScanMove s = _
  unfold execScanMove
  rw [hp]
  dsimp only
  rw [hk, hq]
  exact if_pos (by rw [hrun, decide_eq_true ht]; rfl)

theorem scanMove_moves (hrest : s.atRest k = true) (hpre : s.preempts k = false) : exec .scanMove s = .next (s.movePair k p q) := by
  have hfrozen : k.state = .frozen := by
    have hrest := hrest
    simp only [State.atRest, Bool.and_eq_true, beq_iff_eq] at hrest
    exact hrest.1.1
  change execScanMove s = _
  unfold execScanMove
  rw [hp]
  dsimp only
  rw [hk, hq]
  dsimp only
  rw [if_neg (by rw [hfrozen]; exact Bool.noConfusion), if_pos (by rw [hrest, hpre]; rfl)]
end

/-- A state that differs in its queues and in what records and interrupts write alone. -/
def State.Records (s t : State) : Prop := ∃ queues hostMem outs, t = { s with queues := queues, hostMem := hostMem, outs := outs }

theorem State.Records.refl (s : State) : s.Records s := ⟨_, _, _, rfl⟩

theorem State.Records.trans {s t u : State} (h1 : s.Records t) (h2 : t.Records u) : s.Records u := by
  obtain ⟨_, _, _, rfl⟩ := h1
  obtain ⟨_, _, _, rfl⟩ := h2
  exact ⟨_, _, _, rfl⟩

theorem State.noteReady_records (s : State) : s.Records s.noteReady :=
  foldl_keeps (P := s.Records) (fun t _ h => h.trans (ite_keeps (P := t.Records) (ite_keeps (P := t.Records) (.refl t) ⟨_, _, _, rfl⟩)
    (ite_keeps (P := t.Records) ⟨_, _, _, rfl⟩ (.refl t)))) _ s (.refl s)

theorem State.confirm_records (s : State) (n p : Nat) (ok : Bool) : s.Records (s.confirm n p ok) :=
  foldl_keeps (P := s.Records) (fun t _ h => h.trans (ite_keeps (P := t.Records) ⟨_, _, _, rfl⟩ ⟨_, _, _, rfl⟩)) _ _ ⟨_, _, _, rfl⟩

/-- A pass of pair p has ended; records that wait for it are still to be confirmed. -/
def State.passEnded (s : State) (p : Nat) (ok : Bool) : State :=
  { s with
    scanning := none, scanNext := (p + 1) % 96, scanSince := s.phys
    passes := SMap.set 0 s.passes p (SMap.get 0 s.passes p + 1)
    retired := if ok then s.retired else s.retired ++ [p]
    outs := if ok then s.outs else s.outs ++ [Output.pairFailed p] }

theorem State.passEnded_passes (s : State) (p : Nat) (ok : Bool) :
    SMap.get 0 (s.passEnded p ok).passes p = SMap.get 0 s.passes p + 1 :=
  SMap.get_set_same 0 s.passes p (SMap.get 0 s.passes p + 1)

theorem scanPassComplete_of {p : Nat} (hp : s.scanning = some p) (ok : Bool) : exec (.scanPassComplete ok) s =
    .next ((upto 32).foldl (fun t n => t.confirm n p ok) (s.passEnded p ok)).noteReady := by
  change execScanPassComplete ok s = _
  unfold execScanPassComplete
  rw [hp]
  rfl

theorem State.confirmAll_records (s : State) (p : Nat) (ok : Bool) : s.Records ((upto 32).foldl (fun t n => t.confirm n p ok) s).noteReady :=
  (foldl_keeps (P := s.Records) (fun t n h => h.trans (t.confirm_records n p ok)) (upto 32) s (.refl s)).trans (State.noteReady_records _)
end

/-! ## Front-end cores (R434, R435) -/

theorem State.front_setFront_same (s : State) (d : Bool) (f : FrontCore) : (s.setFront d f).front d = f := by cases d <;> rfl

theorem State.front_setFront_not (s : State) (d : Bool) (f : FrontCore) : (s.setFront (!d) f).front d = s.front d := by cases d <;> rfl

/-- A state that differs in a front-end core alone. -/
theorem State.setFront_eq (s : State) (d : Bool) (f : FrontCore) :
    s.setFront d f = { s with phobos := (s.setFront d f).phobos, deimos := (s.setFront d f).deimos } := by cases d <;> rfl

section
variable {s : State} (hr : s.ready = true) (hrec : s.recovery = false)
include hr hrec

omit hr hrec in
theorem takeover_lost {b : Bool} (h : s.ms 1 ≤ s.phys - s.beatAt) : exec (.takeover .heartbeatLost b) s = exec (.takeover .errorReport b) s := by
  change execTakeover .heartbeatLost b s = execTakeover .errorReport b s
  unfold execTakeover
  dsimp only
  rw [decide_eq_true h]

theorem takeover_of (hs : s.standby = true) (b : Bool) : exec (.takeover .errorReport b) s =
    .next ((if s.probation then s.rollBack else s).handover.standDown s.deimosActive b) := by
  change execTakeover .errorReport b s = _
  exact if_neg (by rw [serving_of hr hrec, hs]; exact Bool.noConfusion)
end

/-- What a roll-back leaves as it was, and what it changes. -/
theorem State.rollBack_spec (s : State) : s.rollBack.runsB = !s.runsB ∧ s.rollBack.probation = false ∧ s.rollBack.session = none ∧
    (if s.runsB then s.rollBack.slotB.failed else s.rollBack.slotA.failed) = true ∧ s.rollBack.journal = s.journal ∧
    s.rollBack.outs = s.outs ∧ s.rollBack.phys = s.phys ∧ s.rollBack.deimosActive = s.deimosActive := by
  unfold State.rollBack
  cases h : s.runsB <;> exact ⟨rfl, rfl, rfl, rfl, rfl, rfl, rfl, rfl⟩

/-- A front-end core that stands down loads the running image and stands by, or is reported failed. -/
theorem State.standDown_spec (s : State) (d b : Bool) :
    (s.standDown d b).standby = b ∧ (s.standDown d b).front d = .loaded s.running b ∧
    ((s.standDown d b).outs = if b then s.outs else s.outs ++ [.coreFailed d]) ∧
    ∃ phobos deimos outs, s.standDown d b = { s with phobos := phobos, deimos := deimos, standby := b, outs := outs } := by
  cases d <;> cases b <;> exact ⟨rfl, rfl, rfl, _, _, _, rfl⟩

/-- What the other core finds as it becomes active. -/
theorem State.handover_frame (s : State) : ∃ queues plans kernels, s.handover = { s with
    queues := queues, plans := plans, kernels := kernels, groups := s.journal.groups, scanNext := s.journal.scanNext
    scanning := s.journal.scanning, deimosActive := !s.deimosActive, beatAt := s.phys } := ⟨_, _, _, rfl⟩

/-- What a takeover leaves: the standby that was is active, with the queues, groups, plans and scan of the journal. -/
theorem State.handover_standDown (s : State) (d b : Bool) : ∃ t, s.handover.standDown d b = t ∧
    t.deimosActive = !s.deimosActive ∧ t.standby = b ∧ t.beatAt = s.phys ∧ t.probation = s.probation ∧ t.front d = .loaded t.running b ∧
    t.groups = s.journal.groups ∧ t.scanNext = s.journal.scanNext ∧ t.scanning = s.journal.scanning ∧
    (t.outs = if b then s.outs else s.outs ++ [.coreFailed d]) ∧ t.runsB = s.runsB ∧ t.session = s.session ∧ t.slotA = s.slotA ∧
    t.slotB = s.slotB := by
  obtain ⟨queues, plans, kernels, hand⟩ := s.handover_frame
  rw [hand]
  generalize hu : ({ s with
    queues := queues, plans := plans, kernels := kernels, groups := s.journal.groups, scanNext := s.journal.scanNext
    scanning := s.journal.scanning, deimosActive := !s.deimosActive, beatAt := s.phys } : State) = u
  obtain ⟨-, hfront, houts, phobos, deimos, outs, h⟩ := u.standDown_spec d b
  generalize u.standDown d b = t at hfront houts h
  subst h hu
  exact ⟨_, rfl, rfl, rfl, rfl, rfl, hfront, rfl, rfl, rfl, houts, rfl, rfl, rfl, rfl⟩

/-- The core that takes over in probation brings back the image of before. -/
def State.afterProbation (s : State) : State := if s.probation then s.rollBack else s

theorem State.afterProbation_spec (s : State) : s.afterProbation.probation = false ∧ s.afterProbation.journal = s.journal ∧
    s.afterProbation.outs = s.outs ∧ s.afterProbation.phys = s.phys ∧ s.afterProbation.deimosActive = s.deimosActive := by
  unfold State.afterProbation
  cases h : s.probation
  · exact ⟨h, rfl, rfl, rfl, rfl⟩
  · obtain ⟨-, hp, -, -, hj, ho, hph, hd⟩ := s.rollBack_spec
    exact ⟨hp, hj, ho, hph, hd⟩

/-! ## Firmware updates (R435, R438, R449) -/

section
variable {s : State} {who : Master} {image : Nat}

theorem firmwareUpdate_stranger (hsil : s.silent who = false) (hs : s.session ≠ some who) (ok : Bool) :
    exec (.firmwareUpdate who image ok) s = .next { s with outs := s.outs ++ [.answer false] } := by
  change execFirmwareUpdate who image ok s = _
  unfold execFirmwareUpdate
  rw [if_neg (by rw [hsil]; exact Bool.noConfusion), if_pos (bne_iff_ne.2 hs)]

section
variable (hsil : s.silent who = false) (hs : s.session = some who)
include hsil hs

theorem firmwareUpdate_recovery (hrec : s.recovery = true) (ok : Bool) : exec (.firmwareUpdate who image ok) s =
    .next { s.writeSlot image with session := none, outs := (s.writeSlot image).outs ++ [.answer ok] } := by
  change execFirmwareUpdate who image ok s = _
  unfold execFirmwareUpdate
  rw [if_neg (by rw [hsil]; exact Bool.noConfusion), if_neg (by rw [hs, bne_self_eq_false]; exact Bool.noConfusion), if_pos hrec]

variable (hrec : s.recovery = false)
include hrec

theorem firmwareUpdate_unsigned : exec (.firmwareUpdate who image false) s =
    .next { s.writeSlot image with session := none, outs := (s.writeSlot image).outs ++ [.answer false] } := by
  change execFirmwareUpdate who image false s = _
  unfold execFirmwareUpdate
  rw [if_neg (by rw [hsil]; exact Bool.noConfusion), if_neg (by rw [hs, bne_self_eq_false]; exact Bool.noConfusion),
    if_neg (by rw [hrec]; exact Bool.noConfusion)]
  rfl

/-- The standby with the new image in its store. -/
def State.imageLoaded (s : State) (image : Nat) : State :=
  (s.writeSlot image).setFront (!s.deimosActive) (.loaded image (s.front (!s.deimosActive)).sound)

theorem firmwareUpdate_runs (hp : s.probation = false) (hb : s.standby = true) : exec (.firmwareUpdate who image true) s =
    .next { (s.imageLoaded image).handover with
      runsB := !(s.imageLoaded image).runsB, probation := true, probationAt := (s.imageLoaded image).phys
      outs := (s.imageLoaded image).handover.outs ++ [.answer true] } := by
  change execFirmwareUpdate who image true s = _
  unfold execFirmwareUpdate
  rw [if_neg (by rw [hsil]; exact Bool.noConfusion), if_neg (by rw [hs, bne_self_eq_false]; exact Bool.noConfusion),
    if_neg (by rw [hrec]; exact Bool.noConfusion), if_neg (by exact Bool.noConfusion), if_neg (by rw [hp, hb]; exact Bool.noConfusion)]
  unfold State.imageLoaded
  dsimp only
end
end

/-- The image that is written goes to the slot whose image does not run. -/
theorem State.writeSlot_frame (s : State) (image : Nat) : ∃ a b, s.writeSlot image = { s with slotA := a, slotB := b } ∧
    (if s.runsB then a.image else b.image) = image := by
  unfold State.writeSlot
  cases h : s.runsB
  · exact ⟨_, _, rfl, rfl⟩
  · exact ⟨_, _, rfl, rfl⟩

/-- What stands in the slots, the stores and the queues of answers once the standby has loaded a new image. -/
theorem State.imageLoaded_spec (s : State) (image : Nat) :
    let u := s.imageLoaded image
    u.runsB = s.runsB ∧ u.phys = s.phys ∧ u.deimosActive = s.deimosActive ∧ u.outs = s.outs ∧
    (if s.runsB then u.slotA.image else u.slotB.image) = image ∧ u.front (!s.deimosActive) = .loaded image (s.front (!s.deimosActive)).sound ∧
    u.front s.deimosActive = s.front s.deimosActive := by
  obtain ⟨a, b, hslot, him⟩ := s.writeSlot_frame image
  unfold State.imageLoaded
  rw [hslot]
  refine ⟨?_, ?_, ?_, ?_, ?_, State.front_setFront_same .., State.front_setFront_not ..⟩
  all_goals rw [State.setFront_eq]
  exact him

/-- The image that the standby has loaded runs on it, and the other core keeps its own. -/
theorem State.imageRuns_spec (s : State) (image : Nat) (outs : List Output) : ∃ t : State, { (s.imageLoaded image).handover with
      runsB := !(s.imageLoaded image).runsB, probation := true, probationAt := (s.imageLoaded image).phys
      outs := (s.imageLoaded image).handover.outs ++ outs } = t ∧
    t.runsB = !s.runsB ∧ t.probation = true ∧ t.probationAt = s.phys ∧ t.deimosActive = !s.deimosActive ∧ t.running = image ∧
    (t.front t.deimosActive).store = image ∧ t.front s.deimosActive = s.front s.deimosActive ∧ t.outs = s.outs ++ outs := by
  obtain ⟨hb, hph, hd, ho, him, hnew, hold⟩ := s.imageLoaded_spec image
  generalize s.imageLoaded image = u at hb hph hd ho him hnew hold
  obtain ⟨queues, plans, kernels, hand⟩ := u.handover_frame
  rw [hand, hb, hph, ← ho, ← hd]
  refine ⟨_, rfl, rfl, rfl, rfl, rfl, ?_, ?_, ?_, rfl⟩
  · unfold State.running
    cases h : s.runsB <;> rw [h] at him <;> exact him
  · rw [← hd] at hnew
    exact congrArg FrontCore.store hnew
  · rw [← hd] at hold
    exact hold

section
variable {s : State} {who : Master} (hsil : s.silent who = false)
include hsil

theorem updateSession_opens (hs : s.session = none) : exec (.firmwareUpdateSession who true) s =
    .next { s with session := some who, outs := s.outs ++ [.answer true] } := by
  change execFirmwareUpdateSession who true s = _
  unfold execFirmwareUpdateSession
  rw [if_neg (by rw [hsil]; exact Bool.noConfusion), hs]
  rfl

theorem updateSession_held {w : Master} (hs : s.session = some w) : exec (.firmwareUpdateSession who true) s =
    .next (s.answer (w == who)) := by
  change execFirmwareUpdateSession who true s = _
  unfold execFirmwareUpdateSession
  rw [if_neg (by rw [hsil]; exact Bool.noConfusion), hs]
  rfl

theorem updateSession_closes (hs : s.session = some who) (hp : s.probation = false) : exec (.firmwareUpdateSession who false) s =
    .next { s with session := none, outs := s.outs ++ [.answer true] } := by
  change execFirmwareUpdateSession who false s = _
  unfold execFirmwareUpdateSession
  rw [if_neg (by rw [hsil]; exact Bool.noConfusion), if_neg Bool.false_ne_true, if_pos (by rw [hs, hp, beq_self_eq_true]; rfl)]
  rfl

theorem updateSession_kept (h : s.session ≠ some who ∨ s.probation = true) : exec (.firmwareUpdateSession who false) s =
    .next { s with outs := s.outs ++ [.answer false] } := by
  have hno : (s.session == some who && !s.probation) = false := by
    obtain h | h := h
    · rw [beq_eq_false_iff_ne.2 h, Bool.false_and]
    · rw [h, Bool.not_true, Bool.and_false]
  change execFirmwareUpdateSession who false s = _
  unfold execFirmwareUpdateSession
  rw [if_neg (by rw [hsil]; exact Bool.noConfusion), if_neg Bool.false_ne_true, if_neg (by rw [hno]; exact Bool.noConfusion)]
  rfl
end

/-! ## Probation (R435) -/

section
variable {s : State} (hp : s.probation = true)
include hp

theorem probationEnd_over (ht : s.ms 10000 ≤ s.phys - s.probationAt) : exec (.probationEnd true) s =
    .next (({ s with probation := false, session := none } : State).standDown (!s.deimosActive) true) := by
  change execProbationEnd true s = _
  unfold execProbationEnd
  rw [if_neg (by rw [hp]; exact Bool.noConfusion), if_pos rfl]
  exact eventIf_true (decide_eq_true ht)

theorem probationEnd_failed : exec (.probationEnd false) s =
    .next (s.rollBack.handover.standDown s.deimosActive (s.front s.deimosActive).sound) := by
  change execProbationEnd false s = _
  unfold execProbationEnd
  rw [if_neg (by rw [hp]; exact Bool.noConfusion), if_neg Bool.false_ne_true]
end

/-- Settles O47: the scan by the pair that is next, the front-end cores by which of them is active, updates by who holds the session. -/
theorem scanFirmwareResults : Obligations.ScanFirmwareResults := by
  unfold Obligations.ScanFirmwareResults
  refine ⟨fun s hr hrec => ⟨fun p hp => ⟨scanStart_of hr hrec hp, fun k q hk hq => ⟨scanMove_freezes hp hk hq, scanMove_moves hp hk hq⟩⟩,
    fun p ok hp => ?_, heartbeat_of hr hrec, fun hb b => ⟨?_, takeover_lost⟩,
    fun who image hsil hs hp hb => ⟨?_, firmwareUpdate_unsigned hsil hs hrec⟩, fun hp => ⟨fun ht => ?_, ?_⟩⟩,
    fun s who => ⟨fun hsil => ⟨updateSession_opens hsil, fun w hs => updateSession_held hsil hs, updateSession_closes hsil, updateSession_kept hsil,
      fun hs image ok => firmwareUpdate_stranger hsil hs ok⟩, fun hrec => ⟨fun hl hs image ok => ?_, fun image ok => ?_⟩, fun image => rfl⟩⟩
  · obtain ⟨_, _, _, h⟩ := (s.passEnded p ok).confirmAll_records p ok
    refine ⟨_, scanPassComplete_of hp ok, ?_⟩
    rw [h]
    exact ⟨rfl, s.passEnded_passes p ok, rfl⟩
  · obtain ⟨hprob, hj, ho, hph, hd⟩ := s.afterProbation_spec
    obtain ⟨t, ht, hact, hstand, hbeat, hpr, hfront, hg, hnext, hscan, houts, -⟩ := s.afterProbation.handover_standDown s.deimosActive b
    refine ⟨t, (takeover_of hr hrec hb b).trans (congrArg Host.Outcome.next ht), hact.trans (by rw [hd]), hstand, hbeat.trans hph, hpr.trans hprob,
      hfront, hg.trans (by rw [hj]), hnext.trans (by rw [hj]), hscan.trans (by rw [hj]), houts.trans (by rw [ho])⟩
  · obtain ⟨t, ht, hrest⟩ := s.imageRuns_spec image [.answer true]
    exact ⟨t, (firmwareUpdate_runs hsil hs hrec hp hb).trans (congrArg Host.Outcome.next ht), hrest⟩
  · obtain ⟨hstand, hfront, houts, _, _, _, h⟩ := ({ s with probation := false, session := none } : State).standDown_spec (!s.deimosActive) true
    exact ⟨_, probationEnd_over hp ht, by rw [h], hstand, by rw [h], by rw [h], by rw [h], hfront, houts⟩
  · obtain ⟨hrun, hprob, hsess, hfail, -, -, -, hd⟩ := s.rollBack_spec
    obtain ⟨t, ht, hact, hstand, -, hpr, -, -, -, -, -, hb, hse, ha, hslot⟩ :=
      s.rollBack.handover_standDown s.deimosActive (s.front s.deimosActive).sound
    exact ⟨t, (probationEnd_failed hp).trans (congrArg Host.Outcome.next ht), hb.trans hrun, hpr.trans hprob, hse.trans hsess, hact.trans (by rw [hd]),
      by rw [hslot, ha]; exact hfail, hstand⟩
  · exact firmwareUpdate_recovery (by rw [State.silent, beq_eq_false_iff_ne.2 hl]; rfl) hs hrec ok
  · change execFirmwareUpdate .host image ok s = _
    exact if_pos (by rw [State.silent, hrec, Bool.true_or, Bool.and_true]; exact Bool.or_true _)

end Sys2Proof.Machine
end

section
/-! PROOFS. Measurements, the trusted interface and lifecycle tokens (R437, R439, R442-R447). -/
namespace Sys2Proof.Machine

/-! ## Measurements (R439) -/

section
variable {s : State} {who : Master} {n : Nat}

theorem getMeasurements_silent (h : s.silent who = true) : exec (.getMeasurements who n) s = .next s := by
  change execGetMeasurements who n s = _
  exact if_pos h

theorem negotiate_silent (h : s.silent who = true) (b : Bool) : exec (.negotiateAlgorithms who b) s = .next s := by
  change execNegotiateAlgorithms who b s = _
  exact if_pos h

variable (h : s.silent who = false)
include h

theorem getMeasurements_signed {d : BitVec 256} {k : Nat} (hserve : s.serving = true) (ha : who ∈ s.agreed) (hd : s.measurement n = some d)
    (hk : s.identity = some k) : exec (.getMeasurements who n) s =
      .next { s with outs := s.outs ++ [.measurement n d (Config.signature k s.fresh)], fresh := s.fresh + 1 } := by
  change execGetMeasurements who n s = _
  unfold execGetMeasurements
  rw [if_neg (by rw [h]; exact Bool.noConfusion), if_pos (by rw [hserve, List.contains_iff_mem.2 ha]; rfl), hd, hk]

theorem getMeasurements_refused (hno : who ∉ s.agreed ∨ s.measurement n = none ∨ s.identity = none) :
    exec (.getMeasurements who n) s = .next (s.answer false) := by
  change execGetMeasurements who n s = _
  unfold execGetMeasurements
  rw [if_neg (by rw [h]; exact Bool.noConfusion)]
  obtain hno | hno | hno := hno
  · rw [if_neg (by rw [Bool.eq_false_iff.2 (mt List.contains_iff_mem.1 hno), Bool.and_false]; exact Bool.noConfusion)]
  · rw [hno, ite_self]
  · rw [hno]
    generalize (if (s.serving && s.agreed.contains who) = true then s.measurement n else none) = d
    cases d <;> rfl

/-- Who has agreed on the algorithm once a requester has offered a match or none. -/
def State.agreedAfter (s : State) (who : Master) (b : Bool) : List Master :=
  if b then s.agreed.filter (fun w => w != who) ++ [who] else s.agreed.filter fun w => w != who

omit h in
theorem State.mem_agreedAfter {w : Master} {b : Bool} : w ∈ s.agreedAfter who b ↔ w = who ∧ b = true ∨ w ∈ s.agreed ∧ w ≠ who := by
  cases b
  · simp [State.agreedAfter]
  · simp [State.agreedAfter, or_comm]

theorem negotiate_of (hrec : s.recovery = false) (b : Bool) : exec (.negotiateAlgorithms who b) s =
    .next { s with outs := s.outs ++ [.algorithm b], agreed := s.agreedAfter who b } := by
  change execNegotiateAlgorithms who b s = _
  unfold execNegotiateAlgorithms
  rw [if_neg (by rw [h]; exact Bool.noConfusion), if_neg (by rw [hrec]; exact Bool.noConfusion)]
  rfl
end

/-! ## The trusted interface (R442-R444) -/

section
variable {s : State} (hserve : s.serving = true)
include hserve

section
variable (ht : s.tdi = .configUnlocked)
include ht

theorem lockInterface_ide (hi : s.ide = true) : exec .lockInterface s =
    .next { s with tdi := .configLocked, measure5 := some s.measureTdi, outs := s.outs ++ [.answer true] } := by
  change execLockInterface s = _
  unfold execLockInterface
  rw [if_neg (by rw [hserve]; exact Bool.noConfusion), if_pos (by rw [ht, hi]; rfl)]
  rfl

omit ht in
theorem lockInterface_plain (hi : s.ide = false) : exec .lockInterface s = .next (s.answer false) := by
  change execLockInterface s = _
  unfold execLockInterface
  rw [if_neg (by rw [hserve]; exact Bool.noConfusion), if_neg (by rw [hi, Bool.and_false]; exact Bool.noConfusion)]
end

theorem startInterface_of (ht : s.tdi = .configLocked) (hs : s.stopping = false) : exec .startInterface s =
    .next { s with tdi := .run, outs := s.outs ++ [.answer true] } := by
  change execStartInterface s = _
  unfold execStartInterface
  rw [if_neg (by rw [hserve]; exact Bool.noConfusion), if_pos (by rw [ht, hs]; rfl)]
  rfl

section
variable (hs : s.stopping = false)
include hs

theorem stopInterface_unlocked (ht : s.tdi = .configUnlocked) : exec .stopInterface s = .next (s.answer true) := by
  change execStopInterface s = _
  unfold execStopInterface
  rw [if_neg (by rw [hserve, hs]; exact Bool.noConfusion), ht]

theorem stopInterface_stops (ht : s.tdi = .configLocked ∨ s.tdi = .run) :
    exec .stopInterface s = .next { s.stopTenants with stopping := true } := by
  change execStopInterface s = _
  unfold execStopInterface
  rw [if_neg (by rw [hserve, hs]; exact Bool.noConfusion)]
  obtain ht | ht := ht <;> rw [ht]

theorem stopInterface_error (ht : s.tdi = .error) : exec .stopInterface s =
    if s.wiping then .next { s with stopping := true } else .next { s with tdi := .configUnlocked, outs := s.outs ++ [.answer true] } := by
  change execStopInterface s = _
  unfold execStopInterface
  rw [if_neg (by rw [hserve, hs]; exact Bool.noConfusion), ht]
  rfl
end

theorem interfaceReport_of (ht : s.tdi = .configLocked ∨ s.tdi = .run) :
    exec .getDeviceInterfaceReport s = .next { s with outs := s.outs ++ [.interfaceReport s.interfaceReport] } := by
  change execGetDeviceInterfaceReport s = _
  unfold execGetDeviceInterfaceReport
  rw [if_neg (by rw [hserve]; exact Bool.noConfusion), if_pos (by obtain ht | ht := ht <;> rw [ht] <;> rfl)]

theorem pcieConfigWrite_served {r : ConfigReg} {v : W64} {f : State → State} (hr : (r = .decode ∧ f = fun s => { s with decode := v }) ∨
    (r = .msix ∧ f = fun s => { s with msix := v }) ∨
    (r = .resizableBar ∧ f = fun s => if 30 ≤ v.toNat && v.toNat ≤ 39 then { s with bar4 := v.toNat } else s)) :
    exec (.pcieConfigWrite r v) s = .next (s.guardedConfig f) := by
  change execPcieConfigWrite r v s = _
  unfold execPcieConfigWrite
  rw [if_neg (by rw [hserve]; exact Bool.noConfusion)]
  obtain ⟨rfl, rfl⟩ | ⟨rfl, rfl⟩ | ⟨rfl, rfl⟩ := hr <;> rfl

theorem pcieConfigWrite_plain {r : ConfigReg} {v : W64} {t : State} (hr : (r = .ide ∧ t = { s with ide := v.getLsbD 0 }) ∨
    (r = .other ∧ t = { s with config := v })) : exec (.pcieConfigWrite r v) s = .next t := by
  change execPcieConfigWrite r v s = _
  unfold execPcieConfigWrite
  rw [if_neg (by rw [hserve]; exact Bool.noConfusion)]
  obtain ⟨rfl, rfl⟩ | ⟨rfl, rfl⟩ := hr <;> rfl
end

theorem State.guardedConfig_error {s : State} (ht : s.tdi = .error) (f : State → State) : s.guardedConfig f = s := by
  unfold State.guardedConfig
  rw [ht]

theorem State.guardedConfig_enters {s : State} (ht : s.tdi = .configLocked ∨ s.tdi = .run) (f : State → State) :
    s.guardedConfig f = s.enterError := by
  unfold State.guardedConfig
  obtain ht | ht := ht <;> rw [ht]

theorem State.guardedConfig_unlocked {s : State} (ht : s.tdi = .configUnlocked) (f : State → State) : s.guardedConfig f = f s := by
  unfold State.guardedConfig
  rw [ht]

/-! ## Lifecycle tokens (R445) -/

section
variable {s : State} {dest : Lifecycle}

theorem lifecycleToken_scrapped (h : s.lifecycle = .scrapped) (valid : Bool) : exec (.lifecycleToken dest valid) s = .next s := by
  change execLifecycleToken dest valid s = _
  exact if_pos (beq_iff_eq.2 h)

theorem lifecycleToken_refused (h : s.lifecycle ≠ .scrapped) {valid : Bool} (hno : valid = false ∨ lifecycleStep s.lifecycle dest = false) :
    exec (.lifecycleToken dest valid) s = .next (s.answer false) := by
  change execLifecycleToken dest valid s = _
  unfold execLifecycleToken
  rw [if_neg (mt beq_iff_eq.1 h), if_neg (by obtain h | h := hno <;> rw [h] <;> simp)]

theorem lifecycleToken_moves (h : s.lifecycle ≠ .scrapped) (hstep : lifecycleStep s.lifecycle dest = true) :
    exec (.lifecycleToken dest true) s = .next ((s.enterLifecycle dest).afterReset.answer true) := by
  change execLifecycleToken dest true s = _
  unfold execLifecycleToken
  rw [if_neg (mt beq_iff_eq.1 h), if_pos (by rw [hstep]; rfl)]

/-- A device comes up after a move of its lifecycle, unless it stands in recovery, where the new state serves a host. -/
theorem serves_of_step {a b : Lifecycle} (h : lifecycleStep a b = true) :
    Lifecycle.serves b = true ↔ b = .deployed ∨ b = .provisioned ∨ b = .returned := by
  cases a <;> cases b <;> first | exact absurd h Bool.false_ne_true | decide
end

/-- Settles O48: measurements by who asks, the interface by its state, tokens by the transition they ask for. -/
theorem trustedInterfaceResults : Obligations.TrustedInterfaceResults := by
  unfold Obligations.TrustedInterfaceResults
  refine ⟨fun s hr hrec => ?_, fun s dest => ⟨fun hl => ⟨fun hstep => ?_, fun valid hno => lifecycleToken_refused hl hno⟩,
    fun hl valid => lifecycleToken_scrapped hl valid⟩⟩
  · have hserve := serving_of hr hrec
    refine ⟨fun who h n b => ⟨getMeasurements_silent h, negotiate_silent h b⟩, fun who h => ⟨fun n d k ha hd hk =>
      getMeasurements_signed h hserve ha hd hk, fun n hno => getMeasurements_refused h hno, fun b => ⟨_, negotiate_of h hrec b, ?_, fun w hw => ?_⟩⟩,
      fun ht => ⟨lockInterface_ide hserve ht, lockInterface_plain hserve⟩, startInterface_of hserve, fun hs => ⟨stopInterface_unlocked hserve hs,
        stopInterface_stops hserve hs, fun ht hw => ?_, fun ht hw => ?_⟩, fun hw => ⟨fun hs => ?_, fun hs => ?_⟩, interfaceReport_of hserve, ?_,
      fun v => ⟨pcieConfigWrite_plain hserve (.inl ⟨rfl, rfl⟩), pcieConfigWrite_plain hserve (.inr ⟨rfl, rfl⟩), fun ht => ⟨?_, ?_⟩,
        fun r hr => ?_⟩⟩
    · rw [State.mem_agreedAfter]
      simp
    · rw [State.mem_agreedAfter]
      simp [hw]
    · rw [stopInterface_error hserve hs ht, if_pos hw]
    · rw [stopInterface_error hserve hs ht, if_neg (by rw [hw]; exact Bool.false_ne_true)]
    · change execSramClearComplete s = _
      unfold execSramClearComplete
      rw [if_neg (by rw [hw]; exact Bool.noConfusion)]
      dsimp only
      rw [if_pos hs]
      rfl
    · change execSramClearComplete s = _
      unfold execSramClearComplete
      rw [if_neg (by rw [hw]; exact Bool.noConfusion)]
      dsimp only
      rw [if_neg (by rw [hs]; exact Bool.noConfusion)]
    · change execGetDeviceInterfaceState s = _
      exact eventIf_true hserve
    · rw [pcieConfigWrite_served hserve (.inl ⟨rfl, rfl⟩), State.guardedConfig_unlocked ht]
    · rw [pcieConfigWrite_served hserve (.inr (.inl ⟨rfl, rfl⟩)), State.guardedConfig_unlocked ht]
    · have hserved : ∃ f, exec (.pcieConfigWrite r v) s = .next (s.guardedConfig f) := by
        obtain rfl | rfl | rfl := hr
        · exact ⟨_, pcieConfigWrite_served hserve (.inl ⟨rfl, rfl⟩)⟩
        · exact ⟨_, pcieConfigWrite_served hserve (.inr (.inl ⟨rfl, rfl⟩))⟩
        · exact ⟨_, pcieConfigWrite_served hserve (.inr (.inr ⟨rfl, rfl⟩))⟩
      obtain ⟨f, hf⟩ := hserved
      exact ⟨fun ht => by rw [hf, State.guardedConfig_error ht], fun ht => by rw [hf, State.guardedConfig_enters ht]⟩
  · refine ⟨_, lifecycleToken_moves hl hstep, rfl, rfl, rfl, rfl, rfl, ?_, ?_, rfl, rfl, ?_⟩
    · exact ite_congr (propext beq_iff_eq) (fun _ => rfl) fun _ => ite_congr (propext beq_iff_eq) (fun _ => rfl) fun _ => rfl
    · exact ite_congr (propext beq_iff_eq) (fun _ => rfl) fun _ => rfl
    · change (!s.recovery && Lifecycle.serves dest) = true ↔ _
      rw [Bool.and_eq_true, Bool.not_eq_true', serves_of_step hstep]

end Sys2Proof.Machine
end

section
/-! PROOFS. What the work of cores and of the front-end leaves of the package (R418, R438, R445, R450, R451): its settings, its kernels,
the records that have gone out, and memories in canonical form. -/
namespace Sys2Proof.Machine

/-- What only the side band, the limits of R451, a reset or a rail that changes sets. -/
def State.settings (s : State) : (Nat × Nat × Bool) × (Bool × Bool × Lifecycle) × List Nat × List Nat :=
  ((s.bar4, s.freq, s.thermal), (s.ready, s.recovery, s.lifecycle), s.portsDown, s.d2dDown)

/-- HBM, host memory and the debug buffer are in canonical form. -/
structure State.Sound (s : State) : Prop where
  hbm : Memory.wf s.hbm = true
  host : Memory.wf s.hostMem = true
  buffer : Memory.wf s.dbgbuf = true

/-- `t` has the settings of `s`, in canonical form where `s` is, and has said whatever `s` has. -/
structure State.Keeps (s t : State) : Prop where
  settings : t.settings = s.settings
  sound : s.Sound → t.Sound
  lost : s.d2dLost = true → t.d2dLost = true
  outs : s.outs <+: t.outs

/-- The kernels too are those of `s`. -/
structure State.Works (s t : State) : Prop extends State.Keeps s t where
  kernels : t.kernels = s.kernels

/-- What these relations speak of, but for what has been said. -/
def State.silentPart (s : State) : ((Nat × Nat × Bool) × (Bool × Bool × Lifecycle) × List Nat × List Nat) × List Host.Cell × List Host.Cell ×
    List Host.Cell × Bool :=
  (s.settings, s.hbm, s.hostMem, s.dbgbuf, s.d2dLost)

/-- A change that only says something. -/
theorem State.Keeps.says {s t : State} (h : t.silentPart = s.silentPart) (ho : s.outs <+: t.outs) : s.Keeps t := by
  simp only [State.silentPart, Prod.mk.injEq] at h
  obtain ⟨hset, hhbm, hhost, hbuf, hlost⟩ := h
  exact ⟨hset, fun hs => ⟨hhbm ▸ hs.hbm, hhost ▸ hs.host, hbuf ▸ hs.buffer⟩, fun hl => hlost ▸ hl, ho⟩

/-- A change elsewhere. -/
theorem State.Keeps.same {s t : State} (h : (t.silentPart, t.outs) = (s.silentPart, s.outs)) : s.Keeps t := by
  obtain ⟨hpart, houts⟩ := Prod.mk.inj h
  exact .says hpart (houts ▸ List.prefix_rfl)

/-- A write of a memory that keeps the canonical form. -/
theorem State.Keeps.wrote {s t : State} (h : (t.settings, t.d2dLost, t.outs) = (s.settings, s.d2dLost, s.outs)) (hs : s.Sound → t.Sound) :
    s.Keeps t := by
  simp only [Prod.mk.injEq] at h
  obtain ⟨hset, hlost, houts⟩ := h
  exact ⟨hset, hs, fun hl => hlost ▸ hl, houts ▸ List.prefix_rfl⟩

theorem State.Works.says {s t : State} (h : (t.silentPart, t.kernels) = (s.silentPart, s.kernels)) (ho : s.outs <+: t.outs) : s.Works t :=
  { toKeeps := .says (congrArg Prod.fst h) ho, kernels := congrArg Prod.snd h }

theorem State.Works.same {s t : State} (h : ((t.silentPart, t.outs), t.kernels) = ((s.silentPart, s.outs), s.kernels)) : s.Works t :=
  { toKeeps := .same (congrArg Prod.fst h), kernels := congrArg Prod.snd h }

theorem State.Works.wrote {s t : State}
    (h : ((t.settings, t.d2dLost, t.outs), t.kernels) = ((s.settings, s.d2dLost, s.outs), s.kernels)) (hs : s.Sound → t.Sound) : s.Works t :=
  { toKeeps := .wrote (congrArg Prod.fst h) hs, kernels := congrArg Prod.snd h }

theorem State.Keeps.refl (s : State) : s.Keeps s := .same rfl

theorem State.Works.refl (s : State) : s.Works s := .same rfl

theorem State.Keeps.trans {s t u : State} (h1 : s.Keeps t) (h2 : t.Keeps u) : s.Keeps u :=
  ⟨h2.settings.trans h1.settings, fun h => h2.sound (h1.sound h), fun h => h2.lost (h1.lost h), h1.outs.trans h2.outs⟩

theorem State.Works.trans {s t u : State} (h1 : s.Works t) (h2 : t.Works u) : s.Works u :=
  { toKeeps := h1.toKeeps.trans h2.toKeeps, kernels := h2.kernels.trans h1.kernels }

/-- A fold keeps what each of its steps keeps. -/
theorem State.foldl_works {α : Type} {f : State → α → State} (hf : ∀ (s : State) (a : α), s.Works (f s a)) (l : List α) (s : State) :
    s.Works (l.foldl f s) :=
  foldl_keeps (P := s.Works) (fun t a h => h.trans (hf t a)) l s (.refl s)

theorem State.foldl_keeps' {α : Type} {f : State → α → State} (hf : ∀ (s : State) (a : α), s.Keeps (f s a)) (l : List α) (s : State) :
    s.Keeps (l.foldl f s) :=
  foldl_keeps (P := s.Keeps) (fun t a h => h.trans (hf t a)) l s (.refl s)

/-! ## Cores and traps -/

theorem State.setCore_works (s : State) (n : Nat) (c : Core) : s.Works (s.setCore n c) := .same rfl

theorem State.modCore_works (s : State) (n : Nat) (f : Core → Core) : s.Works (s.modCore n f) := .same rfl

theorem State.Works.setCore {s t : State} (h : s.Works t) (n : Nat) (c : Core) : s.Works (t.setCore n c) := h.trans (.same (by rfl))

theorem State.Works.modCore {s t : State} (h : s.Works t) (n : Nat) (f : Core → Core) : s.Works (t.modCore n f) := h.trans (.same (by rfl))

theorem takeTrap_works (n : Nat) (t : Trap) (s : State) : s.Works (takeTrap n t s) := .same rfl

/-! ## HBM and rails -/

theorem State.Sends.works {s t : State} (h : s.Sends t) : s.Works t := by
  obtain ⟨outs, _, _, rfl⟩ := h
  exact .says rfl (List.prefix_append _ _)

theorem State.hbmTouch_works (s : State) (key : Option (Nat × Nat)) (a n : Nat) : s.Works (s.hbmTouch key a n) :=
  ite_keeps (P := s.Works) (.refl s) (.same (by rfl))

theorem State.contextRead_works (s : State) (key : Option (Nat × Nat)) (a n : Nat) : s.Works (s.contextRead key a n).2 := by
  unfold State.contextRead
  split
  · exact .same rfl
  · exact s.hbmTouch_works key a n

theorem State.rekey_works (s : State) (key : Option (Nat × Nat)) (b : Nat) : s.Works (s.rekey key b) :=
  ite_keeps (P := s.Works) (.refl s) (.wrote (by rfl) (fun h => ⟨wf_writeBytes _ _ _ h.hbm, h.host, h.buffer⟩))

theorem State.hbmWrite_works (s : State) (key : Option (Nat × Nat)) (a : Nat) (bs : List Byte) : s.Works (s.hbmWrite key a bs) := by
  unfold State.hbmWrite
  split
  · exact .refl s
  · exact (State.foldl_works (fun s b => s.rekey_works key b) _ s).trans
      (.wrote (by rfl) (fun h => ⟨wf_writeBytes _ _ _ h.hbm, h.host, h.buffer⟩))

theorem State.transmit_works (s : State) (n : Option Nat) (g : Nat) (x : Bool) (bs : List Beat512) (w : List Output) :
    s.Works (s.transmit n g x bs w) := (s.transmit_sends n g x bs w).works

theorem State.sendOut_works (s : State) (n : Option Nat) (bs : List Beat512) (w : List Output) : s.Works (s.sendOut n bs w) :=
  s.transmit_works ..

theorem State.crossDie_works (s : State) (a b : Nat) (bs : List Beat512) : s.Works (s.crossDie a b bs) := (s.crossDie_sends a b bs).works

theorem State.crossRange_works (s : State) (die a : Nat) (bs : List Byte) (r : Bool) : s.Works (s.crossRange die a bs r) :=
  (s.crossRange_sends die a bs r).works

theorem State.frontReads_works (s : State) (key : Option (Nat × Nat)) (rs : List (Nat × Nat)) : s.Works (s.frontReads key rs) :=
  (s.frontReads_sends key rs).works

theorem State.frontRead_works (s : State) (key : Option (Nat × Nat)) (a n : Nat) : s.Works (s.frontRead key a n).2 :=
  (s.contextRead_works key a n).trans (State.crossRange_works _ _ _ _ _)

theorem State.frontWrite_works (s : State) (key : Option (Nat × Nat)) (a : Nat) (bs : List Byte) : s.Works (s.frontWrite key a bs) :=
  (s.crossRange_works 0 a bs false).trans (State.hbmWrite_works _ _ _ _)

/-! ## The amplitude engine -/

theorem State.writeElems_works (s : State) (n : Nat) (d : AmpDesc) (o : Nat) (xs : List Nat) : s.Works (s.writeElems n d o xs) :=
  ite_keeps (P := s.Works) ((s.crossRange_works _ _ _ _).trans (State.hbmWrite_works _ _ _ _)) (.same (by rfl))

theorem State.writeSlice_works (s : State) (n : Nat) (d : AmpDesc) (os xs : List Nat) : s.Works (s.writeSlice n d os xs) := by
  have hrun (t : State) (r : Nat × Nat) : t.Works (t.writeElems n d r.1 ((xs.drop r.1).take r.2)) := t.writeElems_works ..
  unfold State.writeSlice
  exact State.foldl_works hrun _ s

theorem State.sendChunks_works (s : State) (d : AmpDesc) (p k : Nat) (cs : List AmpChunk) : s.Works (s.sendChunks d p k cs) :=
  State.foldl_works (fun s c => s.sendOut_works none (d.chunkBeats c) [.chunk p k c]) cs s

theorem State.ampAdvance_works (n fuel : Nat) (s : State) : s.Works (s.ampAdvance n fuel) := by
  induction fuel generalizing s with
  | zero => exact .refl s
  | succ fuel ih =>
    unfold State.ampAdvance
    dsimp only
    have hgo (c : Core) : s.Works ((s.setCore n c).ampAdvance n fuel) := (s.setCore_works n c).trans (ih _)
    split
    · exact .refl s
    · split
      · split
        · exact .same rfl
        · exact .same rfl
      · split
        · split
          · exact .same rfl
          · exact hgo _
        · split
          · exact hgo _
          · split
            · exact (s.setCore_works n _).trans (State.sendChunks_works _ _ _ _ _)
            · exact ite_keeps (P := s.Works) (.same (by rfl)) (.refl s)

theorem State.ampRefuse_works (s : State) (n : Nat) (e : AmpEntry) (k : AmpChunk) : s.Works (s.ampRefuse n e k) := by
  unfold State.ampRefuse
  dsimp only
  split
  · exact ((s.setCore_works n _).trans (State.crossDie_works _ _ _ _)).modCore _ _
  · exact .same rfl
  · exact (s.setCore_works n _).trans (State.sendOut_works _ _ _ _)

theorem State.ampAbsorb_works (n fuel : Nat) (s : State) : s.Works (s.ampAbsorb n fuel) := by
  induction fuel generalizing s with
  | zero => exact .refl s
  | succ fuel ih =>
    unfold State.ampAbsorb
    dsimp only
    split
    · exact .refl s
    · split
      · exact s.ampRefuse_works ..
      · split
        · exact .refl s
        · split
          · exact .refl s
          · exact ite_keeps (P := s.Works) (.refl s) (((s.setCore_works n _).trans (State.ampAdvance_works _ _ _)).trans (ih _))

theorem State.ampRun_works (s : State) (n : Nat) : s.Works (s.ampRun n) :=
  (State.ampAdvance_works n _ s).trans (State.ampAbsorb_works n 64 _)

theorem State.ampStart_works {s t : State} {n id : Nat} (h : s.ampStart n id = .ok t) : s.Works t := by
  unfold State.ampStart at h
  dsimp only at h
  split at h
  · cases h; exact .refl s
  · split at h
    · cases h
      exact (s.setCore_works n _).trans (State.ampAbsorb_works n 64 _)
    · split at h
      · exact nomatch h
      · cases h
        exact (ite_keeps (P := s.Works) (s.crossRange_works _ _ _ _) (.refl s)).trans
          ((State.setCore_works _ n _).trans (State.ampRun_works _ n))

theorem State.ampEnd_works {s t : State} {n id : Nat} (h : s.ampEnd n id = .ok t) : s.Works t := by
  unfold State.ampEnd at h
  dsimp only at h
  split at h
  · cases h; exact .refl s
  · split at h
    · exact nomatch h
    · cases h
      refine State.Works.trans ?_ (State.setCore_works _ n _)
      split
      · exact s.writeSlice_works ..
      · exact .refl s

/-! ## What is due at an LT -/

theorem State.performPairRead_works {s t : State} {n : Nat} {old : Core} {i : Item} {x j : Nat} {src : RowSrc} {len : Nat} {seq : BitVec 32}
    {par : Nat × Nat × Nat × Nat} (h : s.performPairRead n old i x j src len seq par = .ok t) : s.Works t := by
  unfold State.performPairRead at h
  simp only [bind, Except.bind] at h
  split at h
  · cases h
  · split at h
    · split at h
      · cases h
      · split at h <;> (cases h; exact .same rfl)
    · split at h <;> (cases h; exact .same rfl)

theorem State.perform_works {s t : State} {n : Nat} {old : Core} {x : Nat} {i : Item} (h : s.perform n old x i = .ok t) : s.Works t := by
  unfold State.perform at h
  split at h
  · exact State.performPairRead_works h
  · exact State.ampStart_works h
  · exact State.ampEnd_works h
  · split at h
    · cases h; exact .same rfl
    · exact nomatch h

theorem State.spend_works (s : State) (n k : Nat) : s.Works (s.spend n k) := by
  unfold State.spend
  dsimp only
  split <;> exact .same rfl

theorem State.stall_works (s : State) (n : Nat) : s.Works (s.stall n) := s.spend_works n 1

theorem State.reach_works (s : State) (n x : Nat) : s.Works (s.reach n x) := by
  unfold State.reach
  exact (s.spend_works n _).modCore n _

theorem State.passGate_works {s t : State} {n : Nat} {i : Item} (h : s.passGate n i = .ok t) : s.Works t := by
  unfold State.passGate at h
  dsimp only at h
  split at h
  · split at h
    · exact nomatch h
    · cases h; exact .same rfl
  · split at h
    · exact nomatch h
    · cases h; exact .same rfl
  · split at h
    · exact nomatch h
    · split at h
      · exact nomatch h
      · cases h; exact .refl s
  · cases h; exact .refl s

theorem State.takeItem_works {s t : State} {n : Nat} {old : Core} {x : Nat} {i : Item} (h : s.takeItem n old x i = .ok t) : s.Works t := by
  unfold State.takeItem at h
  dsimp only at h
  split at h
  · exact (s.setCore_works n _).trans (State.passGate_works h)
  · exact (s.setCore_works n _).trans (State.perform_works h)

theorem State.runDue_works {n x : Nat} {gates : Bool} {old : Core} (fuel : Nat) {s t : State}
    (h : State.runDue n x gates old fuel s = .ok t) : s.Works t := by
  induction fuel generalizing s with
  | zero => cases h; exact .refl _
  | succ fuel ih =>
    unfold State.runDue at h
    dsimp only at h
    split at h
    · cases h; exact .refl _
    · split at h
      · next hi => exact (State.takeItem_works hi).trans (ih h)
      · exact nomatch h

theorem State.pairStall_works (s : State) (n x : Nat) : s.Works (s.pairStall n x) :=
  ite_keeps (P := s.Works) (s.reach_works n x) ((s.stall_works n).modCore _ _)

theorem State.deadline_works (s : State) (n : Nat) : s.Works (s.deadline n) := .same rfl

theorem State.standAt_works (s : State) (n t : Nat) : s.Works (s.standAt n t) :=
  ite_keeps (P := s.Works) (s.reach_works n t) (s.stall_works n)

theorem State.tick_works (s : State) (n x : Nat) : s.Works (s.tick n x) := by
  unfold State.tick
  dsimp only
  split
  · exact s.standAt_works n _
  · split
    · refine (s.reach_works n x).trans ?_
      split
      · exact State.deadline_works _ n
      · split
        · next h => exact (State.runDue_works _ h).modCore _ _
        · exact (State.modCore_works _ _ _).trans (takeTrap_works _ _ _)
    · exact ite_keeps (P := s.Works) (s.pairStall_works n x) (s.stall_works n)

theorem State.landSome_works (n x : Nat) (old : Core) (fuel : Nat) (stay : List Item) (s : State) :
    s.Works (State.landSome n x old fuel stay s) := by
  induction fuel generalizing s stay with
  | zero => exact .refl s
  | succ fuel ih =>
    unfold State.landSome
    dsimp only
    split
    · exact .refl s
    · split
      · next h => exact (State.takeItem_works h).trans (ih _ _)
      · exact ih _ s

theorem State.landRest_works (n last fuel x : Nat) (s : State) : s.Works (State.landRest n last fuel x s) := by
  induction fuel generalizing s x with
  | zero => exact .refl s
  | succ fuel ih =>
    unfold State.landRest
    dsimp only
    split
    · exact .refl s
    · split
      · exact .refl s
      · next y _ _ =>
        refine ite_keeps (P := s.Works) ?_ (State.Works.trans ?_ (ih _ _)) <;>
          exact ((s.reach_works n y).trans (State.landSome_works ..)).modCore n _

theorem State.landBy_works (s : State) (n last : Nat) : s.Works (s.landBy n last) :=
  (s.modCore_works n _).trans (landRest_works ..)

theorem State.drain_works (s : State) (n : Nat) : s.Works (s.drain n) := s.landBy_works n _

/-! ## Queues, records and the end of a kernel -/

theorem State.logRewind_works (s : State) (n outcome : Nat) : s.Works (s.logRewind n outcome) :=
  ite_keeps (P := s.Works) (.refl s) (.same (by rfl))

theorem State.logRewinds_works (s : State) (k : Kernel) : s.Works (s.logRewinds k) :=
  (State.foldl_works (fun s n => s.logRewind_works n 0) _ s).trans (.same (by rfl))

theorem State.setQueue_works (s : State) (n : Nat) (q : Queue) : s.Works (s.setQueue n q) := .same rfl

theorem State.writeRecordAt_works (s : State) (a n index : Nat) (r : Record) (irq : Bool) : s.Works (s.writeRecordAt a n index r irq) :=
  ⟨⟨rfl, fun h => ⟨h.hbm, wf_writeBytes _ _ _ h.host, h.buffer⟩, fun h => h, (List.prefix_append _ _).trans (List.prefix_append _ _)⟩, rfl⟩

theorem State.writeRecord_works (s : State) (n index : Nat) (r : Record) (irq : Bool) : s.Works (s.writeRecord n index r irq) :=
  s.writeRecordAt_works ..

theorem State.dropCmd_works (s : State) (n index : Nat) : s.Works (s.dropCmd n index) := .same rfl

theorem State.finish_works (s : State) (n index : Nat) (r : Record) : s.Works (s.finish n index r) := by
  unfold State.finish
  split
  · exact .refl s
  · exact (s.writeRecord_works ..).trans (State.dropCmd_works _ _ _)

theorem State.finishStatus_works (s : State) (n index status : Nat) : s.Works (s.finishStatus n index status) := s.finish_works ..

theorem State.writeCodes_works (s : State) (k : Kernel) : s.Works (s.writeCodes k) := by
  refine State.foldl_works (fun s e => ?_) _ s
  split
  · exact s.frontWrite_works ..
  · exact .refl s

theorem State.kernelRecord_works (s : State) (k : Kernel) (e : KernelEnd) : s.Works (s.kernelRecord k e) := by
  unfold State.kernelRecord
  dsimp only
  split
  · exact s.dropCmd_works ..
  · split
    · exact s.finish_works ..
    · split
      · exact s.finish_works ..
      · exact (ite_keeps (P := s.Works) (.refl s) (s.writeRecord_works ..)).trans (State.setQueue_works _ _ _)

theorem State.touchGroups_works (s : State) (gs : List (Nat × BitVec 8)) : s.Works (s.touchGroups gs) :=
  State.foldl_works (fun _ _ => .same (by rfl)) gs s

theorem State.readOperands_works (s : State) (n : Nat) : s.Works (s.readOperands n) := by
  unfold State.readOperands
  dsimp only
  split
  · exact .refl s
  · refine (s.landBy_works n _).trans (State.foldl_works (fun s i => ?_) _ _)
    split
    · split
      · next h => exact State.perform_works h
      · exact s.setCore_works n _
    · exact .refl s

theorem State.endPreempt_works (s : State) (k : Kernel) : s.Works (s.endPreempt k) := by
  refine State.foldl_works (fun s n => ?_) _ s
  split
  · exact s.finishStatus_works ..
  · exact .refl s

end Sys2Proof.Machine
end

section
/-! PROOFS. The end and the abort of kernels (R388, R420), and O49: resets, the zero fill, frequency steps and limits (R446, R447,
R450-R452). -/
namespace Sys2Proof.Machine

theorem State.setKernel_keeps (s : State) (k : Kernel) : s.Keeps (s.setKernel k) := .same rfl

/-! ## A kernel that ends -/

/-- A kernel is another one than that of a queue and a CID. -/
def Kernel.differs (k x : Kernel) : Bool := !(x.queue == k.queue && x.cid == k.cid)

/-- What is left of a kernel's record keeping before it leaves the list. -/
theorem State.endKernel_spec (s : State) (k : Kernel) (e : KernelEnd) :
    s.Keeps (s.endKernel k e) ∧ (s.endKernel k e).kernels = s.kernels.filter k.differs := by
  unfold State.endKernel
  dsimp only
  have hworks (ns : List Nat) :
      s.Works (ns.foldl (fun s n => s.modCore n Core.release) (((s.writeCodes k).kernelRecord k e).touchGroups k.groups)) :=
    (((s.writeCodes_works k).trans (State.kernelRecord_works _ k e)).trans (State.touchGroups_works _ _)).trans
      (State.foldl_works (fun s n => s.modCore_works n _) ns _)
  exact ⟨(hworks _).toKeeps.trans (.same (by rfl)), congrArg (List.filter k.differs) (hworks _).kernels⟩

theorem State.endKernel_keeps (s : State) (k : Kernel) (e : KernelEnd) : s.Keeps (s.endKernel k e) := (s.endKernel_spec k e).1

theorem State.mem_setKernel {s : State} {k x : Kernel} (h : x ∈ (s.setKernel k).kernels) : x = k ∨ x ∈ s.kernels ∧ k.differs x = true := by
  obtain ⟨y, hy, rfl⟩ := List.mem_map.1 h
  split
  · exact .inl rfl
  · next hne => exact .inr ⟨hy, (Bool.not_eq_true' _).mpr (Bool.eq_false_iff.mpr hne)⟩

/-- An aborted kernel is marked, and may leave the list; the others stay. -/
theorem State.abortKernel_spec (s : State) (k : Kernel) (e : KernelEnd) : s.Keeps (s.abortKernel k e) ∧
    ∀ x ∈ (s.abortKernel k e).kernels, x.state = .aborted ∨ x ∈ s.kernels ∧ k.differs x = true := by
  unfold State.abortKernel
  dsimp only
  have hstop : s.Works ((k.place.take k.n).foldl (fun s n => (s.readOperands n).modCore n Core.stop) (s.logRewinds k)) :=
    (s.logRewinds_works k).trans (State.foldl_works (fun s n => (s.readOperands_works n).modCore n _) _ _)
  generalize (k.place.take k.n).foldl (fun s n => (s.readOperands n).modCore n Core.stop) (s.logRewinds k) = t at hstop ⊢
  have hpre {u : State} (hu : t.Works u) : s.Works (if k.state == .frozen then u.endPreempt k else u) :=
    ite_keeps (P := s.Works) (hstop.trans (hu.trans (u.endPreempt_works k))) (hstop.trans hu)
  specialize hpre (u := { t with reports := t.reports.filter fun r => !(k.place.take k.n).contains r.core }) (.same (by rfl))
  generalize (if k.state == .frozen then _ else _) = u at hpre ⊢
  have hmark : ∀ x ∈ (u.setKernel { k with state := .aborted, end_ := some e, held := [], context := [] }).kernels,
      x.state = .aborted ∨ x ∈ s.kernels ∧ k.differs x = true := by
    intro x hx
    rcases State.mem_setKernel hx with rfl | ⟨hx, hne⟩
    · exact .inl rfl
    · exact .inr ⟨hpre.kernels ▸ hx, hne⟩
  split
  · exact ⟨hpre.toKeeps.trans (u.setKernel_keeps _), hmark⟩
  · refine ⟨(hpre.toKeeps.trans (u.setKernel_keeps _)).trans (State.endKernel_keeps _ _ _), fun x hx => hmark x ?_⟩
    rw [(State.endKernel_spec _ _ _).2] at hx
    exact (List.mem_filter.1 hx).1

theorem State.abortKernel_keeps (s : State) (k : Kernel) (e : KernelEnd) : s.Keeps (s.abortKernel k e) := (s.abortKernel_spec k e).1

/-- One kernel's turn in `abortAll`. -/
def State.abortOne (e : KernelEnd) (s : State) (k : Kernel) : State :=
  match s.kernel? (k.queue, k.cid) with
  | some k => if k.state == .aborted then s.setKernel { k with end_ := if e.silent then some e else k.end_ } else s.abortKernel k e
  | none => s

theorem State.kernel?_same {s : State} {id : Nat × Nat} {k : Kernel} (h : s.kernel? id = some k) : k.queue = id.1 ∧ k.cid = id.2 := by
  have := List.find?_some h
  simpa using this

theorem State.abortOne_spec (e : KernelEnd) (s : State) (k : Kernel) : s.Keeps (s.abortOne e k) ∧
    ∀ x ∈ (s.abortOne e k).kernels, x.state = .aborted ∨ x ∈ s.kernels ∧ k.differs x = true := by
  unfold State.abortOne
  split
  · next k' hk =>
    obtain ⟨hq, hc⟩ := State.kernel?_same hk
    have hsame : k'.differs = k.differs := by
      funext x
      rw [Kernel.differs, Kernel.differs, hq, hc]
    split
    · next hab =>
      refine ⟨s.setKernel_keeps _, fun x hx => ?_⟩
      rcases State.mem_setKernel hx with rfl | ⟨hx, hne⟩
      · exact .inl (eq_of_beq hab)
      · exact .inr ⟨hx, by rw [← hsame]; exact hne⟩
    · rw [← hsame]
      exact s.abortKernel_spec k' e
  · next hk =>
    refine ⟨.refl s, fun x hx => .inr ⟨hx, ?_⟩⟩
    exact (Bool.not_eq_true' _).mpr (Bool.eq_false_iff.mpr (List.find?_eq_none.1 hk x hx))

theorem State.abortAll_keeps (s : State) (p : Kernel → Bool) (e : KernelEnd) : s.Keeps (s.abortAll p e) :=
  State.foldl_keeps' (fun s k => (s.abortOne_spec e k).1) _ s

/-- Kernels whose turn has come are aborted; the others are those that were there. -/
theorem State.foldl_abortOne (e : KernelEnd) (ks : List Kernel) (s : State) :
    ∀ x ∈ (ks.foldl (State.abortOne e) s).kernels, x.state = .aborted ∨ x ∈ s.kernels ∧ ∀ k ∈ ks, k.differs x = true := by
  induction ks generalizing s with
  | nil => exact fun x hx => .inr ⟨hx, fun k hk => nomatch hk⟩
  | cons k ks ih =>
    intro x hx
    rcases ih (s.abortOne e k) x hx with h | ⟨hin, hrest⟩
    · exact .inl h
    · rcases (s.abortOne_spec e k).2 x hin with h | ⟨hs, hk⟩
      · exact .inl h
      · exact .inr ⟨hs, List.forall_mem_cons.2 ⟨hk, hrest⟩⟩

/-- R451: after a limit every kernel there is has been aborted. -/
theorem State.trip_aborts (s : State) : ∀ x ∈ s.trip.kernels, x.state = .aborted := by
  intro x hx
  rcases State.foldl_abortOne _ _ s x hx with h | ⟨hs, hall⟩
  · exact h
  · have := hall x (List.mem_filter.2 ⟨hs, rfl⟩)
    simp [Kernel.differs] at this

/-! ## Resets -/

/-- Settles O49: each reset by its definition; the zero fill by the frame of `noteReady`; the limits by `trip_aborts`. -/
theorem resetPowerResults : Obligations.ResetPowerResults := by
  intro s
  refine ⟨fun a b => ⟨⟨_, rfl, ⟨rfl, rfl, rfl, rfl, rfl, rfl, rfl, rfl, rfl, rfl, rfl, rfl⟩, ?_, ?_, ?_⟩,
      fun hl => ⟨fun hr => ?_, fun hr => ?_⟩⟩,
    fun hready hrec => ⟨⟨s.afterReset, eventIf_true ?_, rfl, rfl, rfl, rfl, rfl, rfl, rfl, rfl, rfl, rfl, rfl, rfl⟩,
      ⟨s.afterReset, eventIf_true ?_, rfl, rfl, rfl, rfl, rfl, rfl, rfl, rfl, rfl, rfl, rfl, rfl⟩⟩,
    fun hz => ?_, fun hready hrec => ⟨fun n hn hth => eventIf_true ?_, fun hdue => eventIf_true ?_⟩,
    ⟨s.trip, rfl, rfl, rfl, rfl, s.trip_aborts⟩, fun hth hready hrec => eventIf_true ?_, fun hl hr => ?_⟩
  · intro ha hA
    subst ha
    change (!(true && !s.slotA.failed) && (b && !s.slotB.failed)) = false
    rw [hA]; rfl
  · intro ha hb hB
    subst ha hb
    change (!(false && !s.slotA.failed) && (true && !s.slotB.failed)) = true
    rw [hB]; rfl
  · intro ha hb
    subst ha hb
    rfl
  · refine ⟨s.afterReset.coldReset a b, ?_, rfl, rfl, rfl, rfl, rfl, rfl, rfl, rfl, rfl, rfl, rfl, rfl⟩
    change execEmergencyWipe a b s = _
    rw [execEmergencyWipe, if_neg (by simpa using hl), if_neg (by rw [hr]; exact Bool.noConfusion)]
  · change execEmergencyWipe a b s = _
    rw [execEmergencyWipe, if_neg (by simpa using hl), if_pos hr]
    rfl
  · rw [State.serving, hready, hrec]; rfl
  · rw [State.serving, hready, hrec]; rfl
  · obtain ⟨_, _, _, h⟩ := State.noteReady_records { s with zeroFill := false, hbm := [], hbmKey := [], hbmBad := [], hbmWeak := [] }
    exact ⟨_, eventIf_true hz, by rw [h], by rw [h], by rw [h]⟩
  · rw [State.serving, hready, hrec, hth, decide_eq_true hn]; rfl
  · rw [State.serving, hready, hrec]
    cases hat : s.stepAt with
    | none => rfl
    | some t => exact decide_eq_true (hdue t hat)
  · rw [State.serving, hready, hrec, hth]; rfl
  · change execPldmMonitoring s = _
    have hs : s.silent .sideBand = false := by
      rw [State.silent, Bool.or_eq_false_iff]
      exact ⟨by simpa using hl, rfl⟩
    rw [execPldmMonitoring, if_neg (by rw [hs]; exact Bool.noConfusion), if_neg (by rw [hr]; exact Bool.noConfusion)]

end Sys2Proof.Machine
end

section
/-! PROOFS. What plans, their firings and the packets of other packages leave of the package (R326-R342, R418, R438, R450). -/
namespace Sys2Proof.Machine

/-- Whatever follows `s` keeps what it must. -/
def State.KeepsTo (s : State) (r : Res) : Prop := ∀ t, r = .next t → s.Keeps t

theorem State.KeepsTo.next {s t : State} (h : s.Keeps t) : s.KeepsTo (.next t) := by
  rintro _ ⟨⟩
  exact h

theorem State.KeepsTo.stay (s : State) : s.KeepsTo (notNow s) := .next (.refl s)

theorem State.KeepsTo.after {s t : State} {r : Res} (h : s.Keeps t) (hr : t.KeepsTo r) : s.KeepsTo r := fun u hu => h.trans (hr u hu)

theorem State.KeepsTo.when {s t : State} {b : Bool} (h : s.Keeps t) : s.KeepsTo (eventIf s b t) := by
  unfold eventIf
  split
  · exact .next h
  · exact .stay s

theorem State.Keeps.ite {s t u : State} {p : Prop} {d : Decidable p} (ht : s.Keeps t) (hu : s.Keeps u) : s.Keeps (if p then t else u) :=
  ite_keeps (P := s.Keeps) ht hu

theorem State.setCore_keeps (s : State) (n : Nat) (c : Core) : s.Keeps (s.setCore n c) := .same rfl

theorem State.modCore_keeps (s : State) (n : Nat) (f : Core → Core) : s.Keeps (s.modCore n f) := .same rfl

theorem State.setPlan_keeps (s : State) (h : Nat) (p : Plan) : s.Keeps (s.setPlan h p) := .same rfl

theorem State.erasePlan_keeps (s : State) (h : Nat) : s.Keeps (s.erasePlan h) := .same rfl

theorem State.setQueue_keeps (s : State) (n : Nat) (q : Queue) : s.Keeps (s.setQueue n q) := .same rfl

theorem State.says_keeps (s : State) (os : List Output) : s.Keeps { s with outs := s.outs ++ os } := .says rfl (List.prefix_append _ _)

theorem State.crossDie_keeps (s : State) (a b : Nat) (bs : List Beat512) : s.Keeps (s.crossDie a b bs) := (s.crossDie_works a b bs).toKeeps

theorem State.sendOut_keeps (s : State) (n : Option Nat) (bs : List Beat512) (w : List Output) : s.Keeps (s.sendOut n bs w) :=
  (s.sendOut_works n bs w).toKeeps

theorem State.sendSwitch_keeps (s : State) (g : Nat) (bs : List Beat512) (w : Output) : s.Keeps (s.sendSwitch g bs w) :=
  (s.transmit_works ..).toKeeps

theorem State.frontRead_keeps (s : State) (key : Option (Nat × Nat)) (a n : Nat) : s.Keeps (s.frontRead key a n).2 :=
  (s.frontRead_works key a n).toKeeps

theorem State.frontWrite_keeps (s : State) (key : Option (Nat × Nat)) (a : Nat) (bs : List Byte) : s.Keeps (s.frontWrite key a bs) :=
  (s.frontWrite_works key a bs).toKeeps

theorem State.finish_keeps (s : State) (n index : Nat) (r : Record) : s.Keeps (s.finish n index r) := (s.finish_works n index r).toKeeps

theorem State.finishStatus_keeps (s : State) (n index status : Nat) : s.Keeps (s.finishStatus n index status) :=
  (s.finishStatus_works n index status).toKeeps

/-! ## What waits for a firing -/

theorem State.modMember_keeps (s : State) (k : Kernel) (l : Nat) (f : Core → Core) : s.Keeps (s.modMember k l f) := by
  unfold State.modMember
  split
  · exact .same rfl
  · split
    · exact .same rfl
    · exact .refl s

theorem State.modOrigin_keeps (s : State) (o : Option ((Nat × Nat) × Nat × Nat)) (f : Core → Nat → Core) : s.Keeps (s.modOrigin o f) := by
  unfold State.modOrigin
  split
  · split
    · exact (s.crossDie_keeps ..).trans (State.modMember_keeps ..)
    · exact .refl s
  · exact .refl s

theorem State.answerOrigin_keeps (s : State) (o : Option ((Nat × Nat) × Nat × Nat)) (ok : Bool) : s.Keeps (s.answerOrigin o ok) := by
  unfold State.answerOrigin
  split
  · exact .ite (s.modOrigin_keeps ..) (.same (by rfl))
  · exact .refl s

theorem State.sendAnswers_keeps (s : State) : s.Keeps s.sendAnswers := by
  have hrun : s.Keeps (s.fireAnswers.foldl (fun s a => s.answerOrigin (some a.1) a.2) { s with fireAnswers := [] }) :=
    State.Keeps.trans (.same (by rfl)) (State.foldl_keeps' (fun s _ => s.answerOrigin_keeps ..) _ { s with fireAnswers := [] })
  exact .ite hrun (.refl s)

theorem State.endTrigger_keeps (s : State) (cmd : Option (Nat × Nat)) (origin : Option ((Nat × Nat) × Nat × Nat)) (status : Nat) :
    s.Keeps (s.endTrigger cmd origin status) := by
  unfold State.endTrigger
  refine .trans ?_ (State.answerOrigin_keeps ..)
  split
  · exact s.finishStatus_keeps ..
  · exact .refl s

theorem State.endFiring_keeps (s : State) (p : Plan) (f : Firing) (status : Nat) : s.Keeps (s.endFiring p f status) :=
  (s.endTrigger_keeps f.cmd f.origin status).trans (.ite (State.says_keeps ..) (.refl _))

theorem State.failPlan_keeps (s : State) (h : Nat) : s.Keeps (s.failPlan h) := by
  unfold State.failPlan
  split
  · exact .refl s
  · dsimp only
    split
    · exact (s.setPlan_keeps ..).trans (State.endFiring_keeps ..)
    · exact .same rfl

theorem State.failPlans_keeps (s : State) (t : Plan → Bool) : s.Keeps (s.failPlans t) := State.foldl_keeps' State.failPlan_keeps _ s

/-! ## What packages and switches tell each other -/

theorem State.tellPackage_keeps (s : State) (m : PlanMessage) (q : Nat) : s.Keeps (s.tellPackage m q) := s.sendOut_keeps ..

theorem State.tellPackages_keeps (s : State) (p : Plan) (m : PlanMessage) : s.Keeps (s.tellPackages p m) :=
  State.foldl_keeps' (fun s q => s.tellPackage_keeps m q) _ s

theorem State.tellAll_keeps (s : State) (p : Plan) (m : PlanMessage) : s.Keeps (s.tellAll p m) :=
  (s.tellPackages_keeps p m).trans (State.foldl_keeps' (fun s _ => s.sendSwitch_keeps ..) _ _)

theorem State.askAll_keeps (s : State) (h : Nat) (p : Plan) (d : PlanDesc) : s.Keeps (s.askAll h p d) :=
  (s.tellPackages_keeps p _).trans
    (State.foldl_keeps' (fun s _ => s.sendSwitch_keeps ..) _ _)

theorem State.failSetups_keeps (s : State) (t : Plan → Bool) : s.Keeps (s.failSetups t) := by
  refine State.foldl_keeps' (fun s e => ?_) _ s
  split
  · split
    · exact .ite ((s.tellAll_keeps ..).trans (State.finishStatus_keeps ..)) (.refl s)
    · exact .refl s
  · exact .refl s

theorem State.tellNews_keeps (s : State) (h : Nat) (p : Plan) (seq : Nat) (node : Nat × Nat) (fell : Bool) :
    s.Keeps (s.tellNews h p seq node fell) := s.tellPackages_keeps ..

/-! ## Packets and switch nodes -/

theorem State.takePacket_keeps (s : State) (h : Nat) (p : Plan) (k : CollPacket) (i : Nat) : s.Keeps (s.takePacket h p k i) := by
  unfold State.takePacket
  dsimp only
  split
  · exact .ite (.same (by rfl)) (.same (by rfl))
  · exact .same rfl

theorem State.receivePacket_keeps (s : State) (h : Nat) (p : Plan) (k : CollPacket) (i : Nat) : s.Keeps (s.receivePacket h p k i) :=
  .ite (.refl s) (s.takePacket_keeps h p k i)

theorem State.sendPacket_keeps (s : State) (h q : Nat) (k : CollPacket) : s.Keeps (s.sendPacket h q k) := by
  unfold State.sendPacket
  split
  · split
    · split
      · exact s.receivePacket_keeps ..
      · exact .refl s
    · exact .refl s
  · exact s.sendOut_keeps ..

theorem State.takeChild_keeps (s : State) (h : Nat) (p : Plan) (k : CollPacket) : s.Keeps (s.takeChild h p k) := by
  unfold State.takeChild
  dsimp only
  split
  · exact (s.setPlan_keeps ..).trans (State.foldl_keeps' (fun s q => s.sendPacket_keeps h q _) _ _)
  · exact .same rfl

theorem State.sendChild_keeps (s : State) (h fb : Nat) (k : CollPacket) : s.Keeps (s.sendChild h fb k) := by
  unfold State.sendChild
  split
  · split
    · exact s.takeChild_keeps ..
    · exact .refl s
  · exact s.sendOut_keeps ..

theorem State.sendChildren_keeps (s : State) (h : Nat) (p : Plan) (f : Firing) (node : Nat × Nat) : s.Keeps (s.sendChildren h p f node) := by
  unfold State.sendChildren
  split
  · exact .refl s
  · refine State.foldl_keeps' (fun s e => ?_) _ s
    split
    · exact .ite (s.sendChild_keeps ..) (.refl s)
    · exact .refl s

theorem State.fallNode_keeps (s : State) (h : Nat) (told : Bool) (node : Nat × Nat) : s.Keeps (s.fallNode h told node) := by
  unfold State.fallNode
  split
  · exact .refl s
  · split
    · exact .refl s
    · dsimp only
      exact .ite (.refl s) (.trans (.ite (.same (by rfl)) ((s.setPlan_keeps ..).trans (State.tellNews_keeps ..))) (State.sendChildren_keeps ..))

/-! ## Rails that are lost -/

theorem State.fallBack_keeps (s : State) (g : Nat) : s.Keeps (s.fallBack g) := by
  refine State.foldl_keeps' (fun s e => ?_) _ s
  split
  · exact State.foldl_keeps' (fun s _ => s.fallNode_keeps ..) _ s
  · exact .refl s

theorem State.loseD2d_keeps (s : State) : s.Keeps s.loseD2d ∧ s.loseD2d.d2dLost = true := by
  have hcut := State.foldl_keeps' (fun (s : State) n => s.modCore_keeps n fun c => c.cutCopies (dieOf n))
  have hlost (t : State) : t.Keeps { t with d2dLost := true } := ⟨rfl, fun h => ⟨h.hbm, h.host, h.buffer⟩, fun _ => rfl, List.prefix_rfl⟩
  have hab := State.abortAll_keeps
  exact ⟨((hcut _ s).trans (hlost _)).trans (hab _ _ _), (hab _ _ _).lost rfl⟩

theorem State.loseFabric_keeps (s : State) : s.Keeps s.loseFabric := .trans (.same (by rfl)) (State.failPlans_keeps _ _)

end Sys2Proof.Machine
end

section
/-! PROOFS. O36: rails (R318-R322). -/
namespace Sys2Proof.Machine

/-! ## Stripes that arrive (R319) -/

/-- What becomes of a stripe on a group that carries traffic: delivered, rebuilt or requested again. -/
def State.takeStripe (s : State) (group : Nat) (beats : List (Option Beat512)) (xor : Option Beat512) : Res :=
  let got := beats.filterMap id
  if (beats.filter Option.isNone).length == 0 then .next { s with outs := s.outs ++ [.beats group got] }
  else match (beats.filter Option.isNone).length, xor with
    | 1, some x =>
      let b := xorBeats got ^^^ x
      .next { s with outs := s.outs ++ [.beats group (beats.map fun o => o.getD b)], rebuilt := s.rebuilt ++ [group] }
    | _, _ => .next { s with outs := s.outs ++ [.resend group] }

/-- No beat of a stripe comes on a rail that is down. -/
def clearOf (down : List Nat) (beats : List (Option Beat512)) (xor : Option Beat512) : Prop :=
  (∀ k < beats.length, k ∈ down → beats.getD k none = none) ∧ (4 ∈ down → xor = none)

theorem linkBeatReceive_takes {s : State} {g : Nat} {beats : List (Option Beat512)} {xor : Option Beat512} (hdeaf : s.groupDeaf g = false)
    (hg : g < 4) (hne : beats ≠ []) (hlen : beats.length ≤ 4) (hup : (s.railsDown g).length < 2) (hclear : clearOf (s.railsDown g) beats xor) :
    exec (.linkBeatReceive g beats xor) s = s.takeStripe g beats xor := by
  change execLinkBeatReceive g beats xor s = _
  obtain ⟨hseen, hxor⟩ := hclear
  unfold execLinkBeatReceive
  dsimp only
  refine if_neg ?_
  simp only [Bool.or_eq_true, hdeaf, decide_eq_true_eq, List.isEmpty_iff, Bool.and_eq_true, List.contains_iff_mem, Bool.not_eq_true',
    Bool.false_eq_true, false_or, not_or, not_and]
  refine ⟨⟨⟨⟨⟨by omega, hne⟩, by omega⟩, by omega⟩, ?_⟩, fun h4 => by rw [hxor h4]; exact Bool.noConfusion⟩
  rw [Bool.not_eq_false, List.all_eq_true]
  intro k hk
  rw [mem_upto] at hk
  by_cases hd : k ∈ s.railsDown g
  · rw [hseen k hk hd]
    simp
  · simp [hd]

theorem linkBeatReceive_ignored {s : State} {g : Nat} (beats : List (Option Beat512)) (xor : Option Beat512)
    (h : s.groupDeaf g = true ∨ 2 ≤ (s.railsDown g).length) : exec (.linkBeatReceive g beats xor) s = .next s := by
  change execLinkBeatReceive g beats xor s = _
  unfold execLinkBeatReceive
  refine if_pos ?_
  rcases h with h | h
  · simp [h]
  · simp [decide_eq_true h]

theorem State.takeStripe_whole (s : State) (g : Nat) (bs : List Beat512) (x : Option Beat512) :
    s.takeStripe g (bs.map some) x = .next { s with outs := s.outs ++ [.beats g bs] } := by
  simp [State.takeStripe, List.filterMap_map]

theorem State.takeStripe_again {s : State} {g : Nat} {bs : List (Option Beat512)} {x : Option Beat512}
    (h : 2 ≤ (bs.filter Option.isNone).length) : s.takeStripe g bs x = .next { s with outs := s.outs ++ [.resend g] } := by
  unfold State.takeStripe
  dsimp only
  rw [if_neg (by rw [beq_iff_eq]; omega)]
  split
  · next h1 _ => omega
  · rfl

/-- The XOR of some beats started from a value is that value with the XOR from 0. -/
theorem foldl_xor (bs : List Beat512) (a : Beat512) : bs.foldl (fun a b => a ^^^ b) a = a ^^^ xorBeats bs := by
  induction bs generalizing a with
  | nil => simp [xorBeats]
  | cons b bs ih =>
    rw [xorBeats, List.foldl_cons, List.foldl_cons, ih, ih, BitVec.xor_assoc]
    exact congrArg _ (congrArg (· ^^^ _) BitVec.zero_xor.symm)

theorem xorBeats_append (as bs : List Beat512) : xorBeats (as ++ bs) = xorBeats as ^^^ xorBeats bs := by
  rw [xorBeats, List.foldl_append, foldl_xor]
  rfl

/-- R319: the beat that is missing is the XOR of the others and the XOR beat. -/
theorem xorBeats_missing (pre post : List Beat512) (b : Beat512) :
    xorBeats (pre ++ post) ^^^ xorBeats (pre ++ [b] ++ post) = b := by
  have hb : xorBeats [b] = b := BitVec.zero_xor
  rw [xorBeats_append, xorBeats_append, xorBeats_append, hb]
  have : ∀ p q : Beat512, p ^^^ q ^^^ (p ^^^ b ^^^ q) = b := by
    intro p q
    rw [BitVec.xor_comm p q, BitVec.xor_assoc q p, ← BitVec.xor_assoc p, ← BitVec.xor_assoc p, BitVec.xor_self, BitVec.zero_xor,
      BitVec.xor_comm b q, ← BitVec.xor_assoc, BitVec.xor_self, BitVec.zero_xor]
  exact this _ _

theorem State.takeStripe_one (s : State) (g : Nat) {bs : List (Option Beat512)} (x : Beat512) (h : (bs.filter Option.isNone).length = 1) :
    s.takeStripe g bs (some x) = .next { s with
      outs := s.outs ++ [.beats g (bs.map fun o => o.getD (xorBeats (bs.filterMap id) ^^^ x))], rebuilt := s.rebuilt ++ [g] } := by
  unfold State.takeStripe
  rw [h]
  rfl

theorem State.takeStripe_rebuilt (s : State) (g : Nat) (pre post : List Beat512) (b : Beat512) :
    s.takeStripe g (pre.map some ++ [none] ++ post.map some) (some (xorBeats (pre ++ [b] ++ post))) =
      .next { s with outs := s.outs ++ [.beats g (pre ++ [b] ++ post)], rebuilt := s.rebuilt ++ [g] } := by
  have hgot : (pre.map some ++ [none] ++ post.map some).filterMap id = pre ++ post := by simp [List.filterMap_append, List.filterMap_map]
  have hlost : ((pre.map some ++ [none] ++ post.map some).filter Option.isNone).length = 1 := by
    simp [List.filter_append, List.filter_map, Function.comp_def, filter_never]
  rw [State.takeStripe_one s g _ hlost, hgot, xorBeats_missing]
  simp [Function.comp_def]

/-! ## A packet on its rails (R318) -/

theorem map_getD_eq_zip (bs : List Beat512) : (upto bs.length).map (fun r => (r, bs.getD r 0)) = (upto bs.length).zip bs := by
  rw [upto_eq_range]
  refine List.ext_getElem (by simp) fun i h1 h2 => ?_
  have hi : i < bs.length := by simpa using h1
  simp [hi]

theorem onRails_stripe {bs : List Beat512} (hne : bs ≠ []) (hlen : bs.length ≤ 4) :
    onRails true bs = (upto bs.length).zip bs ++ [(4, xorBeats bs)] := by
  have hpos : 0 < bs.length := List.length_pos_iff.2 hne
  have hone : ceilDiv bs.length 4 = 1 := by unfold ceilDiv; omega
  have hup : upto 1 = [0] := rfl
  rw [onRails, hone, hup]
  simp only [List.flatMap_cons, List.flatMap_nil, List.append_nil, Nat.mul_zero, List.drop_zero, List.take_of_length_le hlen, if_true]
  rw [map_getD_eq_zip]

/-! ## Packets that leave, and leave again (R319, R320) -/

theorem State.groupUp_iff (s : State) (g : Nat) : s.groupUp g = true ↔ (s.railsDown g).length < 2 := decide_eq_true_iff

theorem State.groupUp_false (s : State) (g : Nat) : s.groupUp g = false ↔ 2 ≤ (s.railsDown g).length := by
  rw [← Bool.not_eq_true, s.groupUp_iff, Nat.not_lt]

theorem State.lowestUp {s : State} (h : ∃ g < 3, (s.railsDown g).length < 2) :
    s.groupUp (((upto 3).find? s.groupUp).getD 0) = true := by
  obtain ⟨g, hg, hup⟩ := h
  cases hf : (upto 3).find? s.groupUp with
  | none => exact absurd ((s.groupUp_iff g).2 hup) (List.find?_eq_none.1 hf g ((mem_upto _ _).2 hg))
  | some j => exact List.find?_some hf

theorem State.transmit_beats (s : State) (n : Option Nat) (g : Nat) (x : Bool) {bs : List Beat512} (what : List Output) (hne : bs ≠ []) :
    s.transmit n g x bs what = { s with
      fresh := s.fresh + 1
      outs := if s.groupUp g then s.outs ++ .rails g (onRails x bs) :: what else s.outs
      retransmit := s.retransmit ++ [{ number := n.getD (2 ^ 80 + s.fresh), group := g, xor := x, beats := bs
                                       unsent := if s.groupUp g then [] else what }] } := by
  unfold State.transmit
  rw [if_neg (by rwa [List.isEmpty_iff])]

/-- R319, R320: a packet leaves on the lowest group that is up, or waits in the buffer with what it says. -/
theorem State.sendOut_spec (s : State) (n : Option Nat) {bs : List Beat512} (what : List Output) (hne : bs ≠ []) :
    ∃ e, (s.sendOut n bs what).retransmit = s.retransmit ++ [e] ∧ e.beats = bs ∧ e.xor = true ∧
      ((∃ g < 3, (s.railsDown g).length < 2) → e.unsent = [] ∧ (s.railsDown e.group).length < 2 ∧
        (s.sendOut n bs what).outs = s.outs ++ .rails e.group (onRails true bs) :: what) ∧
      ((∀ g < 3, 2 ≤ (s.railsDown g).length) → e.unsent = what ∧ (s.sendOut n bs what).outs = s.outs) := by
  rw [State.sendOut, State.transmit_beats s n _ true what hne]
  refine ⟨_, rfl, rfl, rfl, fun h => ?_, fun h => ?_⟩
  · have hup := State.lowestUp h
    exact ⟨if_pos hup, (s.groupUp_iff _).1 hup, if_pos hup⟩
  · have hdown : (upto 3).find? s.groupUp = none := List.find?_eq_none.2 fun g hg => by
      rw [(s.groupUp_false g).2 (h g ((mem_upto _ _).1 hg))]
      exact Bool.noConfusion
    have hnot : ¬s.groupUp (((upto 3).find? s.groupUp).getD 0) = true := by
      rw [hdown, Option.getD_none, (s.groupUp_false 0).2 (h 0 (by omega))]
      exact Bool.noConfusion
    exact ⟨if_neg hnot, if_neg hnot⟩

/-- R319: an entry of the buffer goes out again on group `g`. -/
def State.resent (s : State) (k : Nat) (e : Sent) (g : Nat) : State :=
  { s with
    outs := s.outs ++ .rails g (onRails e.xor e.beats) :: e.unsent
    retransmit := s.retransmit.set k { e with group := g, unsent := [] } }

theorem retransmitRequest_on {s : State} {k g : Nat} {e : Sent} (hk : s.retransmit[k]? = some e) (hg : s.groupFor e = some g) :
    exec (.retransmitRequest k) s = if s.groupDeaf g then .next s else .next (s.resent k e g) := by
  change execRetransmitRequest k s = _
  unfold execRetransmitRequest
  rw [hk]
  dsimp only
  rw [hg]
  cases hd : s.groupDeaf g with
  | true => exact eventIf_false (by rw [hd]; rfl)
  | false => exact eventIf_true (by rw [hd]; rfl)

theorem State.groupFor_own {s : State} {e : Sent} (h : (s.railsDown e.group).length < 2) : s.groupFor e = some e.group :=
  if_pos ((s.groupUp_iff _).2 h)

theorem State.groupFor_other {s : State} {e : Sent} {g : Nat} (hg : g < 3) (he : e.group < 3) (hx : e.xor = true)
    (hdown : 2 ≤ (s.railsDown e.group).length) (hup : (s.railsDown g).length < 2) (hlow : ∀ j < g, 2 ≤ (s.railsDown j).length) :
    s.groupFor e = some g := by
  unfold State.groupFor
  rw [if_neg (by rw [(s.groupUp_false _).2 hdown]; exact Bool.noConfusion),
    if_neg (by rw [hx]; simp; omega)]
  have hlow' : ∀ j < g, s.groupUp j = false := fun j hj => (s.groupUp_false j).2 (hlow j hj)
  have hthree : upto 3 = [0, 1, 2] := rfl
  rw [hthree]
  have hg' := (s.groupUp_iff g).2 hup
  obtain rfl | rfl | rfl : g = 0 ∨ g = 1 ∨ g = 2 := by omega
  · simp [hg']
  · simp [hlow' 0 (by omega), hg']
  · simp [hlow' 0 (by omega), hlow' 1 (by omega), hg']

/-! ## Rails that change (R320-R322) -/

theorem State.Keeps.portsDown {s t : State} (h : s.Keeps t) : t.portsDown = s.portsDown := congrArg (fun x => x.2.2.1) h.settings

theorem State.Keeps.d2dDown {s t : State} (h : s.Keeps t) : t.d2dDown = s.d2dDown := congrArg (fun x => x.2.2.2) h.settings

/-- The list of rails that are down once one has changed. -/
def railsAfter (up : Bool) (l : List Nat) (r : Nat) : List Nat := if up then l.filter fun x => x != r else l ++ [r]

theorem not_mem_railsAfter_true (l : List Nat) (r : Nat) : r ∉ railsAfter true l r := by simp [railsAfter]

theorem mem_railsAfter_false (l : List Nat) (r : Nat) : r ∈ railsAfter false l r := by simp [railsAfter]

/-- R320: a rail of a UALink port that changes is recorded and reported. -/
theorem railStateChange_port {s : State} {r : Nat} {up : Bool} (hr : r < 15) (h : s.portsDown.contains r = up) :
    ∃ t, exec (.railStateChange r up) s = .next t ∧ t.portsDown = railsAfter up s.portsDown r ∧ Output.railReport r up ∈ t.outs := by
  have hframe {u : State} (hu : State.Keeps { s with portsDown := railsAfter up s.portsDown r, outs := s.outs ++ [.railReport r up] } u) :
      u.portsDown = railsAfter up s.portsDown r ∧ Output.railReport r up ∈ u.outs :=
    ⟨hu.portsDown, hu.outs.subset (by simp)⟩
  change ∃ t, execRailStateChange r up s = _ ∧ _
  unfold execRailStateChange
  rw [if_pos hr, if_neg (by rw [h]; simp)]
  exact ⟨_, rfl, hframe (.ite (.ite (State.fallBack_keeps _ _) (.refl _))
    (.trans (.ite (State.fallBack_keeps _ _) (.refl _)) (State.loseFabric_keeps _)))⟩

/-- R320: a die-to-die rail has changed, and this is reported. -/
def State.d2dMoved (s : State) (r : Nat) (up : Bool) : State :=
  { s with d2dDown := railsAfter up s.d2dDown r, outs := s.outs ++ [.railReport (15 + r) up] }

/-- R320, R322: a die-to-die rail that changes is recorded and reported; with two down the link is lost. -/
theorem railStateChange_d2d {s : State} {r : Nat} {up : Bool} (hr : r < 5) (h : s.d2dDown.contains r = up) :
    ∃ t, exec (.railStateChange (15 + r) up) s = .next t ∧ t.d2dDown = railsAfter up s.d2dDown r ∧ Output.railReport (15 + r) up ∈ t.outs ∧
      (2 ≤ t.d2dDown.length → t.d2dLost = true) := by
  have hsub : 15 + r - 15 = r := by omega
  let u : State := s.d2dMoved r up
  change ∃ t, execRailStateChange (15 + r) up s = _ ∧ _
  unfold execRailStateChange
  rw [if_neg (by omega), if_pos (by omega), hsub, if_neg (by rw [h]; simp)]
  have hu : ∃ v, v = (if 2 ≤ u.d2dDown.length && !u.d2dLost then u.loseD2d else u) ∧ u.Keeps v ∧
      (2 ≤ u.d2dDown.length → v.d2dLost = true) := by
    refine ⟨_, rfl, .ite u.loseD2d_keeps.1 (.refl u), fun h2 => ?_⟩
    cases hl : u.d2dLost with
    | true => simp [hl]
    | false => simpa [h2] using u.loseD2d_keeps.2
  obtain ⟨v, hv, hkeep, hlost⟩ := hu
  refine ⟨v.sendAnswers, by rw [hv]; rfl, ?_⟩
  have hall := hkeep.trans v.sendAnswers_keeps
  refine ⟨hall.d2dDown, hall.outs.subset (by simp [u, State.d2dMoved]), fun h2 => v.sendAnswers_keeps.lost (hlost ?_)⟩
  rwa [hall.d2dDown] at h2

theorem clearOf_nil (beats : List (Option Beat512)) (x : Option Beat512) : clearOf [] beats x :=
  ⟨fun _ _ h => (nomatch h), fun h => (nomatch h)⟩

theorem map_ne_nil_some {bs : List Beat512} (h : bs ≠ []) : bs.map some ≠ [] := mt List.map_eq_nil_iff.1 h

theorem mem_of_not_contains {l : List Nat} {r : Nat} (h : r ∉ l) : l.contains r = false := by simpa using h

/-- Settles O36: stripes by what is missing of them, packets by `sendOut` and `groupFor`, rails by what every consequence of their loss
keeps. -/
theorem railEventResults : Obligations.RailEventResults := by
  intro s
  refine ⟨fun g bs x hd hg hne hlen hr => ?_, fun g pre post b hd hg hlen hr => ?_, fun g bs x hd hg hlen hr hlost => ?_,
    fun g r pre post b hd hg hr hpre hlen => ?_, fun g r bs x hd hg hr hne hlen h4 hx => ?_,
    fun g bs x h hg => linkBeatReceive_ignored bs x h, fun bs hne hlen => onRails_stripe hne hlen,
    fun n bs what hne => s.sendOut_spec n what hne, fun k e hk => ⟨fun hup => retransmitRequest_on hk (State.groupFor_own hup),
      fun g hg he hx hdown hup hlow => retransmitRequest_on hk (State.groupFor_other hg he hx hdown hup hlow)⟩,
    fun r hr => ⟨fun hin => ?_, fun hout => ?_⟩, fun r hr => ⟨fun hin => ?_, fun hout => ?_⟩⟩
  · rw [linkBeatReceive_takes hd hg (map_ne_nil_some hne) (by simpa using hlen) (by rw [hr]; decide) (by rw [hr]; exact clearOf_nil _ _)]
    exact s.takeStripe_whole g bs x
  · intro parity
    rw [linkBeatReceive_takes hd hg (by simp) (by simp; omega) (by rw [hr]; decide) (by rw [hr]; exact clearOf_nil _ _)]
    exact s.takeStripe_rebuilt g pre post b
  · have hne : bs ≠ [] := by rintro rfl; exact absurd hlost (by decide)
    rw [linkBeatReceive_takes hd hg hne hlen (by rw [hr]; decide) (by rw [hr]; exact clearOf_nil _ _)]
    exact State.takeStripe_again hlost
  · intro parity
    have hclear : clearOf [r] (pre.map some ++ [none] ++ post.map some) (some parity) := by
      refine ⟨fun k _ hk => ?_, fun h => ?_⟩
      · rw [List.mem_singleton.1 hk, ← hpre]
        simp
      · have := List.mem_singleton.1 h
        omega
    rw [linkBeatReceive_takes hd hg (by simp) (by simp; omega) (by rw [hr]; exact Nat.lt_add_one 1) (by rw [hr]; exact hclear)]
    exact s.takeStripe_rebuilt g pre post b
  · have hclear : clearOf [r] (bs.map some) x := by
      refine ⟨fun k hk hkr => ?_, fun h => hx (List.mem_singleton.1 h).symm⟩
      rw [List.length_map] at hk
      have := List.mem_singleton.1 hkr
      omega
    rw [linkBeatReceive_takes hd hg (map_ne_nil_some hne) (by simpa using h4) (by rw [hr]; exact Nat.lt_add_one 1) (by rw [hr]; exact hclear)]
    exact s.takeStripe_whole g bs x
  · obtain ⟨t, ht, hports, hrep⟩ := railStateChange_port hr (List.contains_iff_mem.2 hin)
    exact ⟨t, ht, hports ▸ not_mem_railsAfter_true _ _, hrep⟩
  · obtain ⟨t, ht, hports, hrep⟩ := railStateChange_port hr (mem_of_not_contains hout)
    exact ⟨t, ht, hports ▸ mem_railsAfter_false _ _, hrep⟩
  · obtain ⟨t, ht, hports, hrep, -⟩ := railStateChange_d2d hr (List.contains_iff_mem.2 hin)
    exact ⟨t, ht, hports ▸ not_mem_railsAfter_true _ _, hrep⟩
  · obtain ⟨t, ht, hports, hrep, hlost⟩ := railStateChange_d2d hr (mem_of_not_contains hout)
    exact ⟨t, ht, hports ▸ mem_railsAfter_false _ _, hrep, hlost⟩

end Sys2Proof.Machine
end

section
/-! PROOFS. What the events of cores, the network, copies and memory leave of the package (R418, R438, R450). -/
namespace Sys2Proof.Machine

theorem State.KeepsTo.ite {s : State} {q r : Res} {p : Prop} {d : Decidable p} (hq : s.KeepsTo q) (hr : s.KeepsTo r) :
    s.KeepsTo (if p then q else r) := ite_keeps (P := s.KeepsTo) hq hr

theorem State.takeTrap_keeps (n : Nat) (t : Trap) (s : State) : s.Keeps (takeTrap n t s) := .same rfl

/-! ## Cores that freeze, rewind and trap -/

theorem State.freezeCore_keeps (s : State) (n : Nat) (dest : RunState) : s.Keeps (s.freezeCore n dest) :=
  .ite ((s.modCore_works n _).trans (State.drain_works _ n)).toKeeps (s.modCore_keeps n _)

theorem State.freezeKernel_keeps (s : State) (k : Kernel) (dest : RunState) : s.Keeps (s.freezeKernel k dest) :=
  State.foldl_keeps' (fun s n => s.freezeCore_keeps n dest) _ s

theorem State.debugHalt_keeps (s : State) (n : Nat) (k : Kernel) : s.Keeps (s.debugHalt n k) :=
  ((s.modCore_keeps n _).trans (State.foldl_keeps' (fun s m => s.freezeCore_keeps m (.debug false)) _ _)).trans (State.drain_works _ n).toKeeps

theorem State.abortOrHalt_keeps (s : State) (n : Nat) (k : Kernel) (halt : Bool) : s.Keeps (s.abortOrHalt n k halt) :=
  .ite (s.debugHalt_keeps n k) (s.abortKernel_keeps k _)

theorem State.logRewind_keeps (s : State) (n outcome : Nat) : s.Keeps (s.logRewind n outcome) := (s.logRewind_works n outcome).toKeeps

theorem State.rewindCore_keeps (s : State) (n credit : Nat) (k : Kernel) : s.Keeps (s.rewindCore n credit k) := .same rfl

theorem State.errorRewind_keeps (s : State) (n t : Nat) (k : Kernel) : s.Keeps (s.errorRewind n t k) := .same rfl

theorem State.noteRewind_keeps (s : State) (n : Nat) : s.Keeps (s.noteRewind n) := by
  unfold State.noteRewind
  dsimp only
  split
  · exact .ite (.same (by rfl)) ((s.logRewind_keeps n 0).trans (State.modCore_keeps ..))
  · exact .same rfl

theorem State.twinMismatch_keeps (s : State) (n : Nat) (k : Kernel) : s.Keeps (s.twinMismatch n k) :=
  (s.logRewind_keeps n 2).trans (.trans (.trans (.says (by rfl) (List.prefix_append _ _)) (State.modCore_keeps _ n _))
    (State.abortOrHalt_keeps _ n k false))

theorem State.handleTrap_keeps (s : State) (n : Nat) (k : Kernel) (r : TrapReport) : s.Keeps (s.handleTrap n k r) := by
  unfold State.handleTrap
  dsimp only
  refine .ite (s.twinMismatch_keeps n k) ?_
  split
  · exact s.abortKernel_keeps ..
  · exact s.abortOrHalt_keeps ..
  · exact s.abortOrHalt_keeps ..
  · refine .ite (s.abortOrHalt_keeps ..) (.ite ((s.logRewind_keeps n 3).trans (State.abortOrHalt_keeps ..)) ?_)
    exact ((s.noteRewind_keeps n).trans (State.errorRewind_keeps ..)).trans (.ite (.same (by rfl)) (.refl _))
  · exact .ite (s.abortOrHalt_keeps ..) (.says (by rfl) (List.prefix_append _ _))

theorem execTrapHandling_keeps (s : State) : s.KeepsTo (execTrapHandling s) := by
  unfold execTrapHandling
  split
  · exact .stay s
  · dsimp only
    split
    · split
      · exact .next (.trans (.same (by rfl)) (State.handleTrap_keeps ..))
      · exact .next (.same rfl)
    · exact .next (.same rfl)

theorem execPriResponse_keeps (n : Nat) (ok : Bool) (s : State) : s.KeepsTo (execPriResponse n ok s) := by
  unfold execPriResponse
  dsimp only
  split
  · split
    · exact .stay s
    · split
      · exact .next ((s.noteRewind_keeps n).trans ((State.rewindCore_keeps ..).trans (State.modCore_keeps ..)))
      · exact .next (s.abortOrHalt_keeps ..)
  · exact .stay s

theorem execMatrixTwinRerun_keeps (n : Nat) (s : State) : s.KeepsTo (execMatrixTwinRerun n s) := by
  unfold execMatrixTwinRerun
  dsimp only
  split
  · split
    · exact .stay s
    · split
      · split
        · refine .next (.trans (.trans ?_ (State.logRewind_keeps _ n 3)) (State.abortOrHalt_keeps ..))
          split
          · exact .same rfl
          · exact .refl s
        · exact .next ((s.errorRewind_keeps ..).trans (State.modCore_keeps ..))
      · split
        · exact .next ((s.logRewind_keeps n 1).trans (State.modCore_keeps ..))
        · exact .next (s.twinMismatch_keeps ..)
  · exact .stay s

/-! ## Events inside a timing domain -/

theorem execResultLand_keeps (n k : Nat) (s : State) : s.KeepsTo (execResultLand n k s) := by
  unfold execResultLand
  dsimp only
  split
  · exact .when (.same rfl)
  · exact .stay s

theorem execRdvRelease_keeps (n slot : Nat) (s : State) : s.KeepsTo (execRdvRelease n slot s) := by
  unfold execRdvRelease
  dsimp only
  split
  · split
    · exact .next (.same rfl)
    · exact .stay s
  · exact .stay s

theorem State.stepExit_keeps (s : State) (n : Nat) : s.Keeps (s.stepExit n) := by
  unfold State.stepExit
  dsimp only
  refine .ite (.refl s) ?_
  split
  · exact .same rfl
  · exact .ite (.same (by rfl)) (.same (by rfl))

theorem execStepRelease_keeps (k : Nat) (s : State) : s.KeepsTo (execStepRelease k s) := by
  unfold execStepRelease
  split
  · exact .stay s
  · dsimp only
    split
    · exact .stay s
    · split
      · split
        · exact .next (State.foldl_keeps' (fun s n => s.modCore_keeps n _) _ s)
        · exact .stay s
      · exact .next (State.foldl_keeps' State.stepExit_keeps _ s)

theorem execPairRowArrival_keeps (n : Nat) (s : State) : s.KeepsTo (execPairRowArrival n s) := by
  unfold execPairRowArrival
  dsimp only
  split
  · exact .stay s
  · split
    · exact .next (.same rfl)
    · exact .stay s

theorem execPairTimeout_keeps (n : Nat) (s : State) : s.KeepsTo (execPairTimeout n s) := by
  unfold execPairTimeout
  dsimp only
  split
  · exact .when (.same rfl)
  · exact .stay s

theorem execAmpChunkArrival_keeps (n : Nat) (peer : Option AmpChunk) (s : State) : s.KeepsTo (execAmpChunkArrival n peer s) := by
  unfold execAmpChunkArrival
  dsimp only
  split
  · exact .when ((s.setCore_works n _).trans (State.ampRun_works _ n)).toKeeps
  · split
    · exact .stay s
    · exact .next ((s.setCore_works n _).trans ((State.crossDie_works ..).trans
        ((State.modCore_works ..).trans ((State.ampRun_works ..).trans (State.ampRun_works ..))))).toKeeps

theorem execCoreHaltReport_keeps (n : Nat) (s : State) : s.KeepsTo (execCoreHaltReport n s) := by
  unfold execCoreHaltReport
  dsimp only
  split
  · split
    · exact .stay s
    · split
      · exact .next (.same rfl)
      · exact .next (.same rfl)
  · exact .stay s

theorem execKernelFinish_keeps (k : Nat) (s : State) : s.KeepsTo (execKernelFinish k s) := by
  unfold execKernelFinish
  split
  · exact .stay s
  · split
    · exact .stay s
    · split
      · exact .when (s.endKernel_keeps ..)
      · exact .when (s.endKernel_keeps ..)
      · exact .stay s

/-! ## The network -/

theorem State.land_keeps {s t : State} {n : Nat} {l : Landing} (h : s.land n l = some t) : s.Keeps t := by
  obtain ⟨_, _, rfl⟩ := Option.map_eq_some_iff.1 h
  exact .same rfl

theorem State.dropPacket_keeps (s : State) (k : Nat) : s.Keeps (s.dropPacket k) := .same rfl

theorem State.sendBack_keeps (s : State) (p : Packet) : s.Keeps (s.sendBack p) := by
  unfold State.sendBack
  split
  · exact s.crossDie_keeps ..
  · exact .refl s

theorem State.acknowledge_keeps (s : State) (p : Packet) : s.Keeps (s.acknowledge p) := by
  unfold State.acknowledge
  split
  · exact (s.sendBack_keeps p).trans (State.modCore_keeps ..)
  · exact .refl s

theorem execSendArrival_keeps (k : Nat) (s : State) : s.KeepsTo (execSendArrival k s) := by
  unfold execSendArrival
  split
  · split
    · split
      · exact .stay s
      · refine .ite (.next ((s.dropPacket_keeps k).trans (State.acknowledge_keeps ..))) ?_
        split
        · next h => exact .next ((s.dropPacket_keeps k).trans ((State.land_keeps h).trans (State.acknowledge_keeps ..)))
        · exact .stay s
    · exact .stay s
  · exact .stay s

theorem execRemoteArrival_keeps (k : Nat) (s : State) : s.KeepsTo (execRemoteArrival k s) := by
  unfold execRemoteArrival
  split
  · split
    · exact .next ((s.dropPacket_keeps k).trans ((State.acknowledge_keeps ..).trans (State.modMember_keeps ..)))
    · exact .stay s
  · exact .stay s

theorem State.refusePk_keeps (s : State) (p : Packet) (code : TrapCode) (a : Nat) : s.Keeps (s.refusePk p code a) := by
  unfold State.refusePk
  split
  · exact (s.sendBack_keeps p).trans (.same (by rfl))
  · exact s.sendOut_keeps ..

theorem State.deliverPk_keeps (s : State) (p : Packet) (n a : Nat) (wide : Bool) (v : Val) (bar : Option Nat) (held : Bool) :
    s.Keeps (s.deliverPk p n a wide v bar held) := by
  unfold State.deliverPk
  dsimp only
  refine .ite ((s.setCore_keeps n _).trans (State.refusePk_keeps ..)) ?_
  split
  · exact (s.setCore_keeps n _).trans (State.acknowledge_keeps _ p)
  · exact ((s.setCore_keeps n _).trans (State.acknowledge_keeps _ p)).trans (State.sendOut_keeps ..)

theorem State.holdPk_keeps (s : State) (k : Kernel) (p : Packet) (bar : Option Nat) : s.Keeps (s.holdPk k p bar) := by
  unfold State.holdPk
  dsimp only
  split
  · exact (s.setKernel_keeps _).trans (State.modMember_keeps ..)
  · exact .same rfl

theorem State.pkArrive_keeps {s t : State} {p : Packet} (h : s.pkArrive p = some t) : s.Keeps t := by
  unfold State.pkArrive at h
  split at h
  · dsimp only at h
    split at h
    · cases h
      exact (s.modMember_keeps ..).trans (State.refusePk_keeps ..)
    · split at h
      · cases h
        exact s.holdPk_keeps ..
      · split at h
        · cases h
          exact s.holdPk_keeps ..
        · split at h
          · exact nomatch h
          · cases h
            exact s.deliverPk_keeps ..
  · exact nomatch h

theorem execPkSndArrival_keeps (k : Nat) (peer : Option PkPacket) (s : State) : s.KeepsTo (execPkSndArrival k peer s) := by
  unfold execPkSndArrival
  split
  · split
    · exact .stay s
    · split
      · split
        · next h => exact .next (State.pkArrive_keeps h)
        · exact .stay s
      · exact .next (s.sendOut_keeps ..)
  · split
    · split
      · next h => exact .next ((s.dropPacket_keeps k).trans (State.pkArrive_keeps h))
      · exact .stay s
    · exact .stay s

theorem execPkSndRefusal_keeps (n id : Nat) (s : State) : s.KeepsTo (execPkSndRefusal n id s) := by
  unfold execPkSndRefusal
  dsimp only
  split
  · split
    · split
      · split
        · exact .next (.same rfl)
        · exact .stay s
      · exact .when (.same rfl)
    · exact .stay s
  · exact .stay s

theorem execIcinvRequestArrival_keeps (k : Nat) (s : State) : s.KeepsTo (execIcinvRequestArrival k s) := by
  unfold execIcinvRequestArrival
  split
  · split
    · dsimp only
      exact .next (.trans ((s.dropPacket_keeps k).trans (State.modMember_keeps ..))
        (.ite (State.sendBack_keeps ..) (State.acknowledge_keeps ..)))
    · exact .stay s
  · exact .stay s

theorem State.takeStripe_keeps (s : State) (g : Nat) (bs : List (Option Beat512)) (x : Option Beat512) : s.KeepsTo (s.takeStripe g bs x) := by
  unfold State.takeStripe
  dsimp only
  split
  · exact .next (s.says_keeps _)
  · split <;> exact .next (.says rfl (List.prefix_append _ _))

theorem execLinkBeatReceive_keeps (g : Nat) (bs : List (Option Beat512)) (x : Option Beat512) (s : State) :
    s.KeepsTo (execLinkBeatReceive g bs x s) := by
  unfold execLinkBeatReceive
  dsimp only
  split
  · exact .stay s
  · exact s.takeStripe_keeps g bs x

theorem execRetransmitRequest_keeps (k : Nat) (s : State) : s.KeepsTo (execRetransmitRequest k s) := by
  unfold execRetransmitRequest
  split
  · split
    · exact .when (.says rfl (List.prefix_append _ _))
    · exact .stay s
  · exact .stay s

/-! ## Copies -/

theorem State.enterFabric_keeps (s : State) (n : Nat) (k : Copy) : s.Keeps (s.enterFabric n k) := (s.enterFabric_sends n k).works.toKeeps

theorem State.startCopy_keeps (s : State) (n : Nat) (kr : Kernel) (k : Copy) : s.Keeps (s.startCopy n kr k) := by
  unfold State.startCopy
  dsimp only
  refine .ite (.same (by rfl)) (.trans (.trans (.trans (s.setCore_keeps n _) (.ite (State.enterFabric_keeps _ n k) (.refl _)))
    (State.foldl_keeps' (fun (s : State) _ => s.crossDie_keeps ..) _ _)) (.same (by rfl)))

theorem execCopyStart_keeps (n id : Nat) (s : State) : s.KeepsTo (execCopyStart n id s) := by
  unfold execCopyStart
  dsimp only
  split
  · exact .when (s.startCopy_keeps ..)
  · exact .stay s

theorem State.writeBeat_keeps {s t : State} {n j : Nat} {k : Copy} {b : Beat} (h : s.writeBeat n k j b = some t) : s.Keeps t := by
  unfold State.writeBeat at h
  dsimp only at h
  split at h
  · cases h
    exact .same rfl
  · split at h
    · split at h
      · cases h
        exact .wrote rfl (fun h => ⟨h.hbm, wf_writeBytes _ _ _ h.host, h.buffer⟩)
      · split at h
        · cases h
          exact .says rfl (List.prefix_append _ _)
        · exact nomatch h
    · exact nomatch h
  · exact nomatch h

theorem execCopyBeatDone_keeps (n id beat : Nat) (data : BeatData) (s : State) : s.KeepsTo (execCopyBeatDone n id beat data s) := by
  unfold execCopyBeatDone
  dsimp only
  split
  · split
    · split
      · exact .stay s
      · split
        · split
          · exact .stay s
          · split
            · exact .next (.says rfl (List.prefix_append _ _))
            · exact .stay s
        · split
          · exact .when (.same rfl)
          · split
            · next h => exact .next (State.writeBeat_keeps h)
            · exact .stay s
    · exact .stay s
  · exact .stay s

theorem execTimedBeatArrival_keeps (n id beat : Nat) (s : State) : s.KeepsTo (execTimedBeatArrival n id beat s) := by
  unfold execTimedBeatArrival
  dsimp only
  split
  · split
    · split
      · split
        · exact .stay s
        · split
          · next h => exact .next ((s.setCore_keeps n _).trans (State.land_keeps h))
          · exact .next (.same rfl)
      · exact .stay s
    · exact .stay s
  · exact .stay s

theorem execPeerAccessRefusal_keeps (n id beat : Nat) (s : State) : s.KeepsTo (execPeerAccessRefusal n id beat s) := by
  unfold execPeerAccessRefusal
  dsimp only
  split
  · split
    · exact .when (.says rfl (List.prefix_append _ _))
    · exact .stay s
  · exact .stay s

theorem execFlushingReadComplete_keeps (n id : Nat) (s : State) : s.KeepsTo (execFlushingReadComplete n id s) := by
  unfold execFlushingReadComplete
  dsimp only
  split
  · exact .when (.same rfl)
  · exact .stay s

theorem State.refuseGranule_keeps (s : State) (n w g : Nat) (copy fetch : TrapCode) : s.Keeps (s.refuseGranule n w g copy fetch) :=
  .ite (.same (by rfl)) (.same (by rfl))

theorem State.settleGranule_keeps (s : State) (n w g : Nat) (v : Option AtsVerdict) : s.Keeps (s.settleGranule n w g v) := by
  match v with
  | some (.translated ..) => exact .same rfl
  | some .tooSmall => exact s.refuseGranule_keeps ..
  | some .notPresent => exact s.refuseGranule_keeps ..
  | none => exact s.refuseGranule_keeps ..

theorem execAtsCompletion_keeps (n w g : Nat) (v : AtsVerdict) (s : State) : s.KeepsTo (execAtsCompletion n w g v s) := by
  unfold execAtsCompletion
  dsimp only
  split
  · exact .stay s
  · split
    · split
      · exact .next (.same rfl)
      · exact .next ((s.setCore_keeps n _).trans (State.settleGranule_keeps ..))
    · exact .next (s.settleGranule_keeps ..)

/-! ## The HBM controllers -/

theorem State.setChannel_keeps (s : State) (ch : Nat) (x : Channel) : s.Keeps (s.setChannel ch x) := .same rfl

theorem State.enqueue_keeps (s : State) (pa : Nat) : s.Keeps (s.enqueue pa) := .ite (.refl s) (.same (by rfl))

theorem State.hbmWrite_keeps (s : State) (key : Option (Nat × Nat)) (a : Nat) (bs : List Byte) : s.Keeps (s.hbmWrite key a bs) :=
  (s.hbmWrite_works key a bs).toKeeps

theorem State.reduce_keeps (s : State) (key : Option (Nat × Nat)) (pa : Nat) (op : BitVec 3) (t : BitVec 4) (v : Beat512) :
    s.Keeps (s.reduce key pa op t v) :=
  .ite (.same (by rfl)) ((s.hbmTouch_works key pa 64).trans (State.hbmWrite_works ..)).toKeeps

theorem State.ring_keeps (s : State) (c : Core) (pa : Nat) (d : Beat512) : s.Keeps (s.ring c pa d) := .ite (.same (by rfl)) (.refl s)

theorem State.acceptBeat_keeps {s t : State} {n j pa : Nat} {k : Copy} {b : Beat} (h : s.acceptBeat n k j b pa = some t) : s.Keeps t := by
  have hput {u : State} (hu : s.Keeps u) (c : Core) : s.Keeps ((u.setCore n c).enqueue pa) :=
    hu.trans ((State.setCore_keeps ..).trans (State.enqueue_keeps ..))
  unfold State.acceptBeat at h
  dsimp only at h
  split at h
  · cases h
    exact (s.hbmTouch_works ..).toKeeps.trans (State.setCore_keeps ..)
  · cases h
    exact (s.hbmTouch_works ..).toKeeps.trans (State.setCore_keeps ..)
  · cases h
    exact (State.Keeps.ite (.refl s) (.same (by rfl))).trans (State.setCore_keeps ..)
  · obtain ⟨d, -, h⟩ := Option.bind_eq_some_iff.1 h
    split at h
    · cases h
      exact hput (s.reduce_keeps ..) _
    · exact nomatch h
  case h_5 | h_6 | h_7 =>
    obtain ⟨d, -, h⟩ := Option.bind_eq_some_iff.1 h
    split at h
    · cases h
      exact hput (.ite ((s.hbmWrite_keeps ..).trans (State.ring_keeps ..)) (s.hbmWrite_keeps ..)) _
    · exact nomatch h
  · exact nomatch h

theorem State.crossBeat_keeps (s : State) (n : Nat) (k : Copy) (j pa : Nat) : s.Keeps (s.crossBeat n k j pa) :=
  (s.crossBeat_sends n k j pa).works.toKeeps

theorem execHbmAccessAccept_keeps (n id beat : Nat) (s : State) : s.KeepsTo (execHbmAccessAccept n id beat s) := by
  unfold execHbmAccessAccept
  dsimp only
  split
  · split
    · split
      · split
        · exact .stay s
        · split
          · next h => exact .next ((State.acceptBeat_keeps h).trans ((State.crossBeat_keeps ..).trans (State.setChannel_keeps ..)))
          · exact .stay s
      · exact .stay s
    · exact .stay s
  · exact .stay s

theorem execHbmWriteDrain_keeps (ch : Nat) (s : State) : s.KeepsTo (execHbmWriteDrain ch s) := by
  unfold execHbmWriteDrain
  split
  · exact .ite (.next (.same rfl)) (.stay s)
  · exact .stay s

theorem execHbmRefresh_keeps (ch : Nat) (s : State) : s.KeepsTo (execHbmRefresh ch s) :=
  .ite (.stay s) (.ite (.stay s) (.next (.same rfl)))

theorem execPeerAccess_keeps (r : PeerReq) (s : State) : s.KeepsTo (execPeerAccess r s) := by
  unfold execPeerAccess
  refine .ite (.stay s) ?_
  split
  · exact .next (s.sendOut_keeps ..)
  · dsimp only
    split
    · exact .next ((s.contextRead_works ..).toKeeps.trans (State.sendOut_keeps ..))
    · exact .ite (.next ((s.hbmWrite_keeps ..).trans ((State.enqueue_keeps ..).trans (State.sendOut_keeps ..)))) (.stay s)
    · exact .ite (.next ((s.reduce_keeps ..).trans ((State.enqueue_keeps ..).trans (State.sendOut_keeps ..)))) (.stay s)

end Sys2Proof.Machine
end

section
/-! PROOFS. What set-ups, triggers and firings of plans, entries to ERROR and writes of registers leave of the package (R326-R345, R418,
R438, R442, R443). -/
namespace Sys2Proof.Machine

/-! ## Queues and heads -/

theorem State.noteReady_keeps (s : State) : s.Keeps s.noteReady :=
  State.foldl_keeps' (fun _ _ => .ite (.ite (.refl _) (.same (by rfl))) (.ite (.same (by rfl)) (.refl _))) _ s

theorem State.reachHead_keeps (s : State) (n : Nat) : s.Keeps (s.reachHead n) := by
  unfold State.reachHead
  dsimp only
  split
  · exact .ite (.same (by rfl)) (.refl s)
  · exact .refl s

theorem State.serve_keeps (s : State) (n : Nat) : s.Keeps (s.serve n) := by
  have h := s.noteReady_keeps
  unfold State.serve
  generalize s.noteReady = t at h ⊢
  exact h.trans (.same (by rfl))

theorem State.frontReads_keeps (s : State) (key : Option (Nat × Nat)) (rs : List (Nat × Nat)) : s.Keeps (s.frontReads key rs) :=
  (s.frontReads_works key rs).toKeeps

theorem State.take_keeps (s : State) (n : Nat) (ws : List W64) : s.Keeps (s.take n ws) :=
  ((s.serve_keeps n).trans (State.frontReads_keeps ..)).trans (State.setQueue_keeps _ n _)

theorem State.startHead_keeps (s : State) (code n : Nat) {f : List W64 → Nat → State → State} (hf : ∀ ws i t, State.Keeps t (f ws i t)) :
    s.KeepsTo (s.startHead code n f) := by
  unfold State.startHead
  split
  · dsimp only
    split
    · exact .stay s
    · split
      · exact .ite (.next (((s.take_keeps n _).trans (hf ..)).trans (State.reachHead_keeps ..))) (.stay s)
      · exact .ite (.next (((s.take_keeps n _).trans (State.finishStatus_keeps ..)).trans (State.reachHead_keeps ..))) (.stay s)
  · exact .stay s

theorem State.writeTail_keeps (s : State) (n : Nat) (v : W64) : s.Keeps (s.writeTail n v) :=
  .ite (.refl s) (.ite (.same (by rfl)) (((s.setQueue_keeps n _).trans (State.reachHead_keeps _ n)).trans (State.noteReady_keeps _)))

/-! ## ERROR and writes of registers -/

theorem State.touchGroups_keeps (s : State) (gs : List (Nat × BitVec 8)) : s.Keeps (s.touchGroups gs) := (s.touchGroups_works gs).toKeeps

theorem State.wipeTenants_keeps (s : State) : s.Keeps s.wipeTenants := .same rfl

theorem State.stopTenants_keeps (s : State) : s.Keeps s.stopTenants := by
  have hgone := State.foldl_keeps' (f := fun (s : State) (k : Kernel) => (s.touchGroups k.groups).logRewinds k)
    fun s k => (s.touchGroups_keeps k.groups).trans (State.logRewinds_works _ k).toKeeps
  have hstop (theirs : QueuedFire → Bool) := State.foldl_keeps' (f := fun (s : State) n => s.setQueue n ((s.queue n).stopTenant theirs))
    fun s n => s.setQueue_keeps n _
  have hfires := State.foldl_keeps' (f := fun (s : State) (c : Nat × Nat) => s.finishStatus c.1 c.2 3) fun s c => s.finishStatus_keeps ..
  unfold State.stopTenants
  exact ((((hgone _ s).trans (.same (by rfl))).trans (hstop _ _ _)).trans (hfires _ _)).trans
    ((State.failSetups_keeps _ _).trans (State.wipeTenants_keeps _))

theorem State.enterError_keeps (s : State) : s.Keeps s.enterError := s.stopTenants_keeps.trans (.same (by rfl))

theorem State.mmioWrite_keeps {s : State} {tee : Bool} {f : State → State} (hf : s.Keeps (f s)) : s.KeepsTo (s.mmioWrite tee f) :=
  .ite (.stay s) (.ite (.next hf) (.ite (.next s.enterError_keeps) (.ite (.next (s.says_keeps _)) (.stay s))))

/-! ## Set-ups and triggers -/

theorem execPlanSetupConfirm_keeps (h who : Nat) (ok : Bool) (s : State) : s.KeepsTo (execPlanSetupConfirm h who ok s) := by
  unfold execPlanSetupConfirm
  split
  · exact .stay s
  · split
    · exact .stay s
    · refine .ite (.stay s) (.ite (.next ((s.tellAll_keeps ..).trans ((State.erasePlan_keeps ..).trans (State.finishStatus_keeps ..)))) ?_)
      exact .next (.ite ((s.setPlan_keeps ..).trans ((State.tellAll_keeps ..).trans (State.finish_keeps ..))) (s.setPlan_keeps ..))

theorem execPlanSetupTimeout_keeps (h : Nat) (s : State) : s.KeepsTo (execPlanSetupTimeout h s) := by
  unfold execPlanSetupTimeout
  split
  · exact .stay s
  · split
    · exact .stay s
    · exact .when ((s.tellAll_keeps ..).trans ((State.erasePlan_keeps ..).trans (State.finishStatus_keeps ..)))

theorem State.peerSetup_keeps (s : State) (q h : Nat) (d : PlanDesc) : s.KeepsTo (s.peerSetup q h d) := by
  unfold State.peerSetup
  dsimp only
  refine .ite (.stay s) ?_
  split
  · exact .next ((s.setPlan_keeps ..).trans (State.tellPackage_keeps ..))
  · exact .next (s.tellPackage_keeps ..)

theorem State.peerSetupDone_keeps (s : State) (h : Nat) (ok : Bool) : s.KeepsTo (s.peerSetupDone h ok) := by
  unfold State.peerSetupDone
  split
  · exact .when (.ite (.same (by rfl)) (.same (by rfl)))
  · exact .stay s

theorem State.queueFire_keeps (s : State) (v : W64) (cmd : Option (Nat × Nat)) (origin : Option ((Nat × Nat) × Nat × Nat)) :
    s.Keeps (s.queueFire v cmd origin) := by
  unfold State.queueFire
  split
  · exact .refl s
  · exact .same rfl

theorem execHostTrigger_keeps (off width : Nat) (v : W64) (tee : Bool) (s : State) : s.KeepsTo (execHostTrigger off width v tee s) := by
  refine State.mmioWrite_keeps (.ite (.refl s) ?_)
  dsimp only
  split
  · exact .ite (s.queueFire_keeps ..) (s.says_keeps _)
  · exact .refl s
  · exact s.says_keeps _

theorem execCoreTriggerArrival_keeps (k : Nat) (s : State) : s.KeepsTo (execCoreTriggerArrival k s) := by
  have hdrop := s.dropPacket_keeps k
  have hfail (p : Packet) (n : Nat) (c : Core) : s.Keeps (((s.dropPacket k).sendBack p).setCore n c) :=
    hdrop.trans ((State.sendBack_keeps ..).trans (State.setCore_keeps ..))
  unfold execCoreTriggerArrival
  split
  · exact .stay s
  · split
    · refine .ite (.stay s) ?_
      dsimp only
      split
      · exact .next hdrop
      · split
        · split
          · exact .ite (.next (hdrop.trans ((State.setPlan_keeps ..).trans (State.acknowledge_keeps ..)))) (.next (hfail ..))
          · exact .next (hfail ..)
        · split
          · refine .ite (.next (hfail ..)) ?_
            split
            · exact .next (.ite (hdrop.trans (State.queueFire_keeps ..)) (hfail ..))
            · exact .next (hdrop.trans (State.acknowledge_keeps ..))
            · exact .next (hfail ..)
          · exact .next (hfail ..)
        · exact .next hdrop
    · exact .stay s

/-! ## Firings -/

theorem State.startFiring_keeps (s : State) (h : Nat) (p : Plan) (v : W64) (cmd : Option (Nat × Nat)) (irq : Bool)
    (origin : Option ((Nat × Nat) × Nat × Nat)) : s.Keeps (s.startFiring h p v cmd irq origin) := by
  unfold State.startFiring
  dsimp only
  exact .ite ((s.setPlan_keeps h _).trans (State.failPlan_keeps ..))
    ((s.setPlan_keeps h _).trans (State.foldl_keeps' (fun s _ => s.tellNews_keeps ..) _ _))

theorem State.peerNews_keeps (s : State) (h : Nat) (x : PlanNews) : s.KeepsTo (s.peerNews h x) := by
  unfold State.peerNews
  split
  · exact .stay s
  · dsimp only
    refine .ite (.stay s) ?_
    split
    · exact .next (s.fallNode_keeps ..)
    · exact .when ((s.setPlan_keeps ..).trans (State.sendChildren_keeps ..))
    · exact .next (.same rfl)

theorem State.performSend_keeps (s : State) (h : Nat) (p : Plan) (f : Firing) (i : Nat) (o : BitVec 256) (data : List Beat512) :
    s.Keeps (s.performSend h p f i o data) := by
  unfold State.performSend
  dsimp only
  split
  · split
    · exact s.sendPacket_keeps ..
    · exact .refl s
  · split
    · exact .refl s
    · exact .ite ((s.setPlan_keeps ..).trans (State.sendChild_keeps ..)) ((s.setPlan_keeps ..).trans (State.sendSwitch_keeps ..))

theorem State.performOp_keeps (s : State) (h : Nat) (p : Plan) (f : Firing) (i : Nat) (o : BitVec 256) : s.Keeps (s.performOp h p f i o) := by
  unfold State.performOp
  dsimp only
  split
  · exact (s.frontRead_keeps ..).trans (State.performSend_keeps ..)
  · split
    · exact s.frontWrite_keeps ..
    · exact .refl s
  · exact (s.frontRead_keeps ..).trans ((State.frontRead_keeps ..).trans (State.frontWrite_keeps ..))
  · exact (s.frontRead_keeps ..).trans (State.frontWrite_keeps ..)

theorem State.endOp_keeps (s : State) (h op : Nat) (o : BitVec 256) : s.Keeps (s.endOp h op o) := by
  unfold State.endOp
  split
  · exact .refl s
  · split
    · exact .refl s
    · exact .ite ((s.setPlan_keeps ..).trans (State.endFiring_keeps ..)) (s.setPlan_keeps ..)

theorem execChunkOpComplete_keeps (h op : Nat) (s : State) : s.KeepsTo (execChunkOpComplete h op s) := by
  unfold execChunkOpComplete
  split
  · exact .stay s
  · split
    · exact .when ((s.performOp_keeps ..).trans (State.endOp_keeps ..))
    · exact .stay s

theorem State.tellResult_keeps (s : State) (k : CollPacket) : s.Keeps (s.tellResult k) := by
  unfold State.tellResult
  split
  · exact .ite (s.tellNews_keeps ..) (.refl s)
  · exact .refl s

theorem execCollectivePacketArrival_keeps (k : CollPacket) (s : State) : s.KeepsTo (execCollectivePacketArrival k s) := by
  unfold execCollectivePacketArrival
  split
  · exact .stay s
  · dsimp only
    refine .ite (.stay s) (.ite (.next (.same rfl)) (.ite (.stay s) (.ite ?_ ?_)))
    · split
      · exact .stay s
      · refine .ite (.stay s) ?_
        have hfall (told : Bool) (b : Prop) (d : Decidable b) : s.Keeps (if b then s.fallNode k.handle told (k.level, k.index) else s) :=
          .ite (s.fallNode_keeps ..) (.refl s)
        split
        · exact .next ((hfall ..).trans (State.takeChild_keeps ..))
        · exact .after (hfall ..) (.stay _)
    · split
      · exact .stay s
      · exact .ite (.stay s) (.ite (.stay s) (.next ((s.receivePacket_keeps ..).trans (State.tellResult_keeps ..))))

theorem execPlanProgressTimeout_keeps (h : Nat) (s : State) : s.KeepsTo (execPlanProgressTimeout h s) := by
  unfold execPlanProgressTimeout
  split
  · exact .stay s
  · exact .when (s.failPlan_keeps h)

end Sys2Proof.Machine
end

section
/-! PROOFS. What queue commands, pre-emption, the scan and the debug page leave of the package (R394-R401, R418-R436). -/
namespace Sys2Proof.Machine

/-! ## Kernels that start, rest and come back -/

theorem State.crossRange_keeps (s : State) (die a : Nat) (bs : List Byte) (r : Bool) : s.Keeps (s.crossRange die a bs r) :=
  (s.crossRange_works die a bs r).toKeeps

theorem State.takePairs_keeps (s : State) (ctx : Nat) (place : List Nat) : s.Keeps (s.takePairs ctx place) := .same rfl

theorem State.loadCore_keeps (s : State) (k : Kernel) (img : Image) (wins : List (W64 × W64)) (ws : List W64) (l n : Nat) :
    s.Keeps (s.loadCore k img wins ws l n) := by
  unfold State.loadCore
  exact (s.crossRange_keeps ..).trans (State.modCore_keeps ..)

theorem State.startKernel_keeps (s : State) (n index : Nat) (img : Image) (wins : List (W64 × W64)) (place : List Nat) (ws : List W64) :
    s.Keeps (s.startKernel n index img wins place ws) := by
  have hplaced (k : Kernel) : s.Keeps { s.takePairs k.ctx place with kernels := s.kernels ++ [k] } := .same rfl
  have hload (k : Kernel) := State.foldl_keeps' (f := fun (s : State) l => s.loadCore k img wins ws l (place.getD l 0))
    fun s l => s.loadCore_keeps k img wins ws l _
  have hspare := State.foldl_keeps' (f := fun (s : State) m => s.modCore m fun c => c.physical .reset) fun s m => s.modCore_keeps m _
  exact (((hplaced (s.newKernel n index img place ws)).trans (hload _ _ _)).trans (hspare _ _)).trans (.same (by rfl))

theorem State.saveKernel_keeps (s : State) (k : Kernel) (area : Nat) : s.Keeps (s.saveKernel k area) := by
  unfold State.saveKernel
  dsimp only
  refine .trans (.trans (State.foldl_keeps' (fun s l => ?_) _ s) (State.foldl_keeps' (fun s n => s.modCore_keeps n _) _ _))
    (State.setKernel_keeps _ _)
  exact ((s.crossRange_keeps ..).trans (State.hbmWrite_keeps ..)).trans (.same (by rfl))

theorem State.landHeld_keeps (s : State) (p : Packet) (n a : Nat) (wide : Bool) (v : Val) (bar : Option Nat) :
    s.Keeps (s.landHeld p n a wide v bar) := .ite (.same (by rfl)) (s.deliverPk_keeps p n a wide v bar true)

theorem State.applyTraffic_keeps (s : State) (k : Kernel) : s.Keeps (s.applyTraffic k) := by
  unfold State.applyTraffic
  dsimp only
  refine ((s.setKernel_keeps _).trans (State.foldl_keeps' (fun s p => ?_) _ _)).trans (State.foldl_keeps' (fun s n => s.modCore_keeps n _) _ _)
  split
  · exact s.landHeld_keeps ..
  · exact .refl s

theorem State.thawKernel_keeps (s : State) (k : Kernel) : s.Keeps (s.thawKernel k) :=
  ((s.setKernel_keeps _).trans (State.foldl_keeps' (fun s n => s.modCore_keeps n Core.thaw) _ _)).trans (State.applyTraffic_keeps _ _)

theorem State.settle_keeps (s : State) (n : Nat) (c : Core) : s.Keeps (s.settle n c) := .same rfl

theorem State.readAreas_keeps (s : State) (k : Kernel) (area : Nat) : s.Keeps (s.readAreas k area) :=
  State.foldl_keeps' (fun s _ => .ite (s.crossRange_keeps ..) (.refl s)) _ s

theorem State.resumeKernel_keeps (s : State) (k : Kernel) (area : Nat) (place : List Nat) : s.Keeps (s.resumeKernel k area place) := by
  have hsettle (t : State) (l : Nat) : t.Keeps (match SMap.get none k.context l, place[l]? with
      | some c, some n => t.settle n c
      | _, _ => t) := by
    split
    · exact t.settle_keeps ..
    · exact .refl t
  exact (((s.readAreas_keeps k area).trans (State.takePairs_keeps ..)).trans (State.foldl_keeps' hsettle _ _)).trans
    (State.thawKernel_keeps ..)

theorem State.freezeAll_keeps (s : State) (k : Kernel) : s.Keeps (s.freezeAll k) :=
  (s.freezeKernel_keeps k .frozen).trans (State.setKernel_keeps ..)

/-! ## Commands -/

theorem execLaunch_keeps (q : Nat) (s : State) : s.KeepsTo (execLaunch q s) := by
  unfold execLaunch
  dsimp only
  refine s.startHead_keeps _ q fun ws i t => ?_
  split
  · exact t.finish_keeps ..
  · exact t.startKernel_keeps ..
  · exact t.finishStatus_keeps ..

theorem State.rereadWait_keeps (s : State) (q : Nat) (ws : List W64) : s.Keeps (s.rereadWait q ws) := by
  have h := (s.frontReads_keeps (s.keyOf (s.queue q).ctx) (s.cmdReads q ws)).trans (State.noteReady_keeps _)
  unfold State.rereadWait
  generalize State.noteReady _ = t at h ⊢
  exact h.trans (.same (by rfl))

theorem execWait_keeps (q : Nat) (s : State) : s.KeepsTo (execWait q s) := s.startHead_keeps _ q fun _ _ t => t.finishStatus_keeps ..

theorem execWaitReread_keeps (q : Nat) (s : State) : s.KeepsTo (execWaitReread q s) := by
  unfold execWaitReread
  split
  · exact .ite (.stay s) (.ite (execWait_keeps q s) (.ite (.next (s.rereadWait_keeps ..)) (.stay s)))
  · exact .stay s

theorem State.queueWrite_keeps (s : State) (n : Nat) (host : Bool) (a : Nat) (bs : List Byte) : s.Keeps (s.queueWrite n host a bs) :=
  .ite (.wrote (by rfl) (fun h => ⟨h.hbm, wf_writeBytes _ _ _ h.host, h.buffer⟩)) (s.frontWrite_keeps ..)

theorem execSignal_keeps (q : Nat) (s : State) : s.KeepsTo (execSignal q s) :=
  s.startHead_keeps _ q fun _ _ t => (t.queueWrite_keeps ..).trans (State.finishStatus_keeps ..)

theorem State.fireCommand_keeps (s : State) (n index : Nat) (v : W64) : s.Keeps (s.fireCommand n index v) := by
  unfold State.fireCommand
  dsimp only
  split
  · exact s.finishStatus_keeps ..
  · split
    · exact .ite (s.startFiring_keeps ..) (s.queueFire_keeps ..)
    · exact s.finishStatus_keeps ..
    · exact s.finishStatus_keeps ..

theorem State.startQueued_keeps (s : State) (n : Nat) (f : QueuedFire) : s.Keeps (s.startQueued n f) := by
  unfold State.startQueued
  dsimp only
  have hserve (q : Queue) : s.Keeps ((s.serve n).setQueue n q) := (s.serve_keeps n).trans (State.setQueue_keeps _ n q)
  refine .trans ?_ (State.reachHead_keeps ..)
  split
  · exact .ite ((hserve _).trans (State.endTrigger_keeps ..)) ((hserve _).trans (State.startFiring_keeps ..))
  · exact (hserve _).trans (State.endTrigger_keeps ..)

theorem execFire_keeps (q : Nat) (s : State) : s.KeepsTo (execFire q s) := by
  unfold execFire
  split
  · exact .when (s.startQueued_keeps ..)
  · exact s.startHead_keeps _ q fun _ _ t => t.fireCommand_keeps ..

theorem execPlanSetup_keeps (q : Nat) (s : State) : s.KeepsTo (execPlanSetup q s) := by
  refine s.startHead_keeps _ q fun ws i t => ?_
  dsimp only
  split
  · exact t.finishStatus_keeps ..
  · split
    · exact t.finishStatus_keeps ..
    · exact t.finishStatus_keeps ..
    · exact .ite ((t.setPlan_keeps ..).trans (State.finish_keeps ..)) ((t.setPlan_keeps ..).trans (State.askAll_keeps ..))

theorem State.freePlan_keeps (s : State) (h : Nat) (p : Plan) : s.Keeps (s.freePlan h p) :=
  ((s.setQueue_keeps _ _).trans (State.foldl_keeps' (fun s _ => s.endTrigger_keeps ..) _ _)).trans
    ((State.setPlan_keeps ..).trans ((State.touchGroups_keeps ..).trans (State.reachHead_keeps ..)))

theorem State.peerFree_keeps (s : State) (h : Nat) : s.KeepsTo (s.peerFree h) := by
  unfold State.peerFree
  split
  · exact .when (s.freePlan_keeps ..)
  · exact .stay s

theorem execPlanFree_keeps (q : Nat) (s : State) : s.KeepsTo (execPlanFree q s) := by
  refine s.startHead_keeps _ q fun ws i t => ?_
  dsimp only
  split
  · exact .ite ((t.freePlan_keeps ..).trans ((State.tellAll_keeps ..).trans (State.finishStatus_keeps ..))) (t.finishStatus_keeps ..)
  · exact t.finishStatus_keeps ..

theorem State.queueRead_keeps (s : State) (n : Nat) (host : Bool) (a len : Nat) : s.Keeps (s.queueRead n host a len).2 := by
  unfold State.queueRead
  split
  · exact .refl s
  · exact s.frontRead_keeps ..

theorem State.setCmd_keeps (s : State) (n : Nat) (c : Cmd) : s.Keeps (s.setCmd n c) := .same rfl

theorem State.copyBeat_keeps (s : State) (n : Nat) (c : Cmd) : s.Keeps (s.copyBeat n c) := by
  unfold State.copyBeat
  dsimp only
  refine .ite (.trans ?_ (State.finishStatus_keeps ..)) ?_ <;>
    exact ((s.queueRead_keeps ..).trans (State.queueWrite_keeps ..)).trans (State.setCmd_keeps ..)

theorem execCopy_keeps (q : Nat) (k : Option Nat) (s : State) : s.KeepsTo (execCopy q k s) := by
  unfold execCopy
  split
  · exact s.startHead_keeps _ q fun _ _ t => .refl t
  · split
    · exact .when (s.copyBeat_keeps ..)
    · exact .stay s

theorem State.scrubBeat_keeps (s : State) (n : Nat) (c : Cmd) : s.Keeps (s.scrubBeat n c) := by
  unfold State.scrubBeat
  dsimp only
  refine .ite ((s.queueWrite_keeps ..).trans (State.finishStatus_keeps ..)) ?_
  exact ((s.crossAccess_sends ..).works.toKeeps.trans (.ite (.refl _) (.same (by rfl)))).trans (State.setCmd_keeps ..)

theorem execScrub_keeps (q : Nat) (k : Option Nat) (s : State) : s.KeepsTo (execScrub q k s) := by
  unfold execScrub
  split
  · exact s.startHead_keeps _ q fun _ _ t => .refl t
  · split
    · exact .when (s.scrubBeat_keeps ..)
    · exact .stay s

theorem execCal_keeps (q : Nat) (s : State) : s.KeepsTo (execCal q s) :=
  s.startHead_keeps _ q fun _ _ t => .trans (.same (by rfl)) (State.finishStatus_keeps { t with lent := _ } _ _ _)

theorem State.groupCommand_keeps {s t : State} {n : Nat} {ws : List W64} (h : s.groupCommand n ws = some t) : s.Keeps t := by
  unfold State.groupCommand at h
  dsimp only at h
  split at h
  · exact nomatch h
  · split at h
    · cases h
      exact .same rfl
    · split at h
      · exact nomatch h
      · obtain ⟨_, _, rfl⟩ := Option.map_eq_some_iff.1 h
        exact .same rfl

theorem execGroup_keeps (q : Nat) (s : State) : s.KeepsTo (execGroup q s) := by
  refine s.startHead_keeps _ q fun ws i t => ?_
  split
  · next h => exact (State.groupCommand_keeps h).trans (State.finishStatus_keeps ..)
  · exact t.finishStatus_keeps ..

theorem execExportEntry_keeps (q : Nat) (s : State) : s.KeepsTo (execExportEntry q s) :=
  s.startHead_keeps _ q fun _ _ t => .ite (t.finishStatus_keeps ..) (.trans (.same (by rfl)) (State.finishStatus_keeps { t with exports := _ } _ _ _))

theorem execQueueStarvationTimeout_keeps (q : Nat) (s : State) : s.KeepsTo (execQueueStarvationTimeout q s) := by
  unfold execQueueStarvationTimeout
  dsimp only
  split
  · exact .when (.same rfl)
  · exact .stay s

theorem execPreempt_keeps (q : Nat) (s : State) : s.KeepsTo (execPreempt q s) := by
  refine s.startHead_keeps _ q fun ws i t => ?_
  dsimp only
  split
  · exact .ite (t.freezeAll_keeps _) (t.finishStatus_keeps ..)
  · exact t.finishStatus_keeps ..

theorem execContextSaveComplete_keeps (q : Nat) (s : State) : s.KeepsTo (execContextSaveComplete q s) := by
  unfold execContextSaveComplete
  dsimp only
  split
  · exact .when ((s.saveKernel_keeps ..).trans (State.finishStatus_keeps ..))
  · exact .stay s

theorem execResume_keeps (q : Nat) (s : State) : s.KeepsTo (execResume q s) := by
  refine s.startHead_keeps _ q fun ws i t => ?_
  split
  · exact t.finishStatus_keeps ..
  · split
    · exact (t.resumeKernel_keeps ..).trans (State.finishStatus_keeps ..)
    · exact t.finishStatus_keeps ..

/-! ## Registers and BAR 4 -/

theorem execQueueEnable_keeps (q : Nat) (v : W64) (tee : Bool) (s : State) : s.KeepsTo (execQueueEnable q v tee s) :=
  .ite (.stay s) (State.mmioWrite_keeps (.ite (.refl s) ((s.setQueue_keeps q _).trans (State.noteReady_keeps _))))

theorem execQueueDisable_keeps (q : Nat) (v : W64) (tee : Bool) (s : State) : s.KeepsTo (execQueueDisable q v tee s) :=
  .ite (.stay s) (State.mmioWrite_keeps (s.setQueue_keeps q _))

theorem execQtailWrite_keeps (q width : Nat) (v : W64) (tee : Bool) (s : State) : s.KeepsTo (execQtailWrite q width v tee s) :=
  .ite (.stay s) (State.mmioWrite_keeps (.ite (s.writeTail_keeps q v) (.refl s)))

theorem execDoorbellWrite_keeps (k : Nat) (s : State) : s.KeepsTo (execDoorbellWrite k s) := by
  unfold execDoorbellWrite
  split
  · split
    · exact .when (.ite ((s.dropPacket_keeps k).trans (State.writeTail_keeps ..)) (s.dropPacket_keeps k))
    · exact .stay s
  · exact .stay s

theorem execAp4baseWrite_keeps (v : W64) (tee : Bool) (s : State) : s.KeepsTo (execAp4baseWrite v tee s) :=
  State.mmioWrite_keeps (.ite (.same (by rfl)) (.refl s))

theorem execBar4Access_keeps (off width : Nat) (wr : Option W64) (s : State) : s.KeepsTo (execBar4Access off width wr s) := by
  unfold execBar4Access
  dsimp only
  refine .ite (.stay s) (.ite ?_ ?_)
  · split
    · exact .next (s.says_keeps _)
    · exact .stay s
  · split
    · exact .ite (.next (s.says_keeps _)) (.next ((s.contextRead_works ..).toKeeps.trans (State.says_keeps ..)))
    · exact .ite (.stay s) (.ite (.next ((s.hbmWrite_keeps ..).trans (State.enqueue_keeps ..))) (.stay s))

theorem State.setPackage_keeps {s t : State} {v : Nat} (h : s.setPackage v = some t) : s.Keeps t := by
  unfold State.setPackage at h
  split at h
  · exact nomatch h
  · split at h
    · cases h
      exact .same rfl
    · split at h
      · cases h
        exact .refl _
      · exact nomatch h

theorem execPkgnumWrite_keeps (v : W64) (tee : Bool) (s : State) : s.KeepsTo (execPkgnumWrite v tee s) := by
  refine State.mmioWrite_keeps ?_
  cases h : s.setPackage v.toNat with
  | none => exact .refl s
  | some t => exact State.setPackage_keeps h

theorem execSetPkgnum_keeps (payload : BitVec 16) (s : State) : s.KeepsTo (execSetPkgnum payload s) := by
  unfold execSetPkgnum
  refine .ite (.stay s) ?_
  split
  · next h =>
    split at h
    · exact nomatch h
    · exact .next ((State.setPackage_keeps h).trans (State.says_keeps ..))
  · exact .next (s.says_keeps _)

theorem execRegisterWrite_keeps (off width : Nat) (v : W64) (tee : Bool) (s : State) : s.KeepsTo (execRegisterWrite off width v tee s) := by
  refine .ite (.stay s) (State.mmioWrite_keeps (.ite (.ite (.refl s) (.ite (.same (by rfl)) (.ite (.same (by rfl)) (.refl s))))
    (.ite (.same (by rfl)) (.ite ?_ (.refl s)))))
  exact .wrote rfl (fun h => ⟨h.hbm, h.host, wf_writeBytes _ _ _ h.buffer⟩)

theorem State.hostRead_keeps (s : State) (bar2 : Bool) (off : Nat) (tee : Bool) : s.KeepsTo (s.hostRead bar2 off tee) :=
  .when (.says rfl (List.prefix_append _ _))

/-! ## The debug page -/

theorem State.debugCommand_keeps {s : State} {op : Nat} {v : W64} {tee need : Bool} {f : State → Kernel → Option State}
    (hf : ∀ k t, f s k = some t → s.Keeps t) : s.KeepsTo (s.debugCommand op v tee need f) := by
  refine .ite (.stay s) (State.mmioWrite_keeps ?_)
  dsimp only
  split
  · refine .ite ?_ (.same (by rfl))
    split
    · next h => exact (hf _ _ h).trans (.same (by rfl))
    · exact .same rfl
  · exact .same rfl

theorem execDebugOpen_keeps (v : W64) (tee : Bool) (s : State) : s.KeepsTo (execDebugOpen v tee s) := by
  refine State.debugCommand_keeps fun k t h => ?_
  split at h
  · cases h
    exact s.setKernel_keeps _
  · exact nomatch h

theorem State.debugRelease_keeps (s : State) (k : Kernel) (ns : List Nat) : s.Keeps (s.debugRelease k ns) := by
  have hrun (f : Core → Core) := State.foldl_keeps' (fun (s : State) n => s.modCore_keeps n f) ns s
  unfold State.debugRelease
  dsimp only
  split
  · exact (hrun _).trans (State.applyTraffic_keeps ..)
  · exact hrun _

theorem execDebugClose_keeps (v : W64) (tee : Bool) (s : State) : s.KeepsTo (execDebugClose v tee s) := by
  refine State.debugCommand_keeps fun k t h => ?_
  cases h
  exact (s.setKernel_keeps _).trans (State.debugRelease_keeps ..)

theorem execDebugHalt_keeps (v : W64) (tee : Bool) (s : State) : s.KeepsTo (execDebugHalt v tee s) := by
  refine State.debugCommand_keeps fun k t h => ?_
  dsimp only at h
  split at h
  · cases h
    exact State.foldl_keeps' (fun s n => s.freezeCore_keeps n _) _ s
  · exact nomatch h

theorem execDebugResume_keeps (v : W64) (tee : Bool) (s : State) : s.KeepsTo (execDebugResume v tee s) := by
  refine State.debugCommand_keeps fun k t h => ?_
  dsimp only at h
  split at h
  · exact nomatch h
  · cases h
    exact s.debugRelease_keeps ..

theorem execDebugStep_keeps (v : W64) (tee : Bool) (s : State) : s.KeepsTo (execDebugStep v tee s) := by
  refine State.debugCommand_keeps fun k t h => ?_
  dsimp only at h
  split at h
  · exact nomatch h
  · cases h
    exact (State.foldl_keeps' (fun s n => s.modCore_keeps n _) _ s).trans (State.applyTraffic_keeps ..)

theorem State.debugEdit_keeps (s : State) (k : Kernel) (ns : List Nat) (edit : Core → Option Core) : s.Keeps (s.debugEdit k ns edit) :=
  (State.foldl_keeps' (fun s n => s.modCore_keeps n _) ns s).trans (State.setKernel_keeps ..)

theorem execDebugRead_keeps (v : W64) (tee : Bool) (s : State) : s.KeepsTo (execDebugRead v tee s) := by
  refine State.debugCommand_keeps fun k t h => ?_
  obtain ⟨ns, -, h⟩ := Option.bind_eq_some_iff.1 h
  obtain ⟨bs, -, rfl⟩ := Option.map_eq_some_iff.1 h
  exact .wrote rfl (fun h => ⟨h.hbm, h.host, wf_writeBytes _ _ _ h.buffer⟩)

theorem execDebugWrite_keeps (v : W64) (tee : Bool) (s : State) : s.KeepsTo (execDebugWrite v tee s) := by
  refine State.debugCommand_keeps fun k t h => ?_
  obtain ⟨ns, -, rfl⟩ := Option.map_eq_some_iff.1 h
  exact s.debugEdit_keeps ..

theorem execDebugCancel_keeps (v : W64) (tee : Bool) (s : State) : s.KeepsTo (execDebugCancel v tee s) := by
  refine State.debugCommand_keeps fun k t h => ?_
  obtain ⟨ns, -, rfl⟩ := Option.map_eq_some_iff.1 h
  exact s.debugEdit_keeps ..

/-! ## The scan and the front-end cores -/

theorem State.setFront_keeps (s : State) (d : Bool) (f : FrontCore) : s.Keeps (s.setFront d f) := .ite (.same (by rfl)) (.same (by rfl))

theorem execScanStart_keeps (s : State) : s.KeepsTo (execScanStart s) := by
  unfold execScanStart
  split
  · exact .when (.same rfl)
  · exact .stay s

theorem State.movePair_keeps (s : State) (k : Kernel) (p q : Nat) : s.Keeps (s.movePair k p q) :=
  ((s.takePairs_keeps _ _).trans
    (State.foldl_keeps' (fun s n => (s.settle_keeps _ (s.core n)).trans (State.modCore_keeps _ n Core.vacate)) _ _)).trans
      (State.thawKernel_keeps ..)

theorem execScanMove_keeps (s : State) : s.KeepsTo (execScanMove s) := by
  unfold execScanMove
  split
  · exact .stay s
  · split
    · exact .ite (.next (s.freezeAll_keeps _)) (.ite (.next (s.movePair_keeps ..)) (.stay s))
    · exact .stay s

theorem State.confirm_keeps (s : State) (n p : Nat) (ok : Bool) : s.Keeps (s.confirm n p ok) := by
  refine (s.setQueue_keeps n _).trans (State.foldl_keeps' (fun s x => ?_) _ _)
  exact .ite (s.writeRecordAt_works ..).toKeeps ((s.writeRecordAt_works ..).toKeeps.trans (State.dropCmd_works ..).toKeeps)

theorem execScanPassComplete_keeps (ok : Bool) (s : State) : s.KeepsTo (execScanPassComplete ok s) := by
  unfold execScanPassComplete
  split
  · exact .stay s
  · next p _ =>
    refine .next (.trans (.trans ?_ (State.foldl_keeps' (fun s n => s.confirm_keeps n p ok) (upto 32) _)) (State.noteReady_keeps _))
    exact .says rfl (by cases ok <;> simp)

theorem State.standDown_keeps (s : State) (d passes : Bool) : s.Keeps (s.standDown d passes) := by
  have hset : s.Keeps { s.setFront d (.loaded s.running passes) with standby := passes } := (s.setFront_keeps ..).trans (.same (by rfl))
  exact .ite hset (hset.trans (State.says_keeps ..))

theorem State.rollBack_keeps (s : State) : s.Keeps s.rollBack := by
  unfold State.rollBack
  dsimp only
  split <;> exact .same rfl

theorem State.handover_keeps (s : State) : s.Keeps s.handover := .same rfl

theorem execTakeover_keeps (cause : TakeoverCause) (selfTest : Bool) (s : State) : s.KeepsTo (execTakeover cause selfTest s) :=
  .ite (.stay s) (.next (((State.Keeps.ite s.rollBack_keeps (.refl s)).trans (State.handover_keeps _)).trans (State.standDown_keeps ..)))

theorem State.writeSlot_keeps (s : State) (image : Nat) : s.Keeps (s.writeSlot image) := .ite (.same (by rfl)) (.same (by rfl))

theorem execFirmwareUpdate_keeps (who : Master) (image : Nat) (valid : Bool) (s : State) : s.KeepsTo (execFirmwareUpdate who image valid s) := by
  have hslot := s.writeSlot_keeps image
  refine .ite (.stay s) (.ite (.next (s.says_keeps _)) (.ite (.next ((hslot.trans (.same (by rfl))).trans (State.says_keeps ..)))
    (.ite (.next ((hslot.trans (.same (by rfl))).trans (State.says_keeps ..))) (.ite (.next (s.says_keeps _)) (.next ?_)))))
  have hover := (hslot.trans (State.setFront_keeps _ (!s.deimosActive) (.loaded image (s.front (!s.deimosActive)).sound))).trans
    (State.handover_keeps _)
  generalize State.handover _ = t at hover ⊢
  exact (hover.trans (.same (by rfl))).trans (State.says_keeps ..)

theorem execProbationEnd_keeps (ok : Bool) (s : State) : s.KeepsTo (execProbationEnd ok s) := by
  have hclosed : s.Keeps { s with probation := false, session := none } := .same rfl
  unfold execProbationEnd
  refine .ite (.stay s) (.ite (.when ?_) (.next ?_))
  · exact hclosed.trans (State.standDown_keeps ..)
  · exact (s.rollBack_keeps.trans (State.handover_keeps _)).trans (State.standDown_keeps ..)

end Sys2Proof.Machine
end

section
/-! PROOFS. O55: the invariant of the package, step by step (R418, R438, R445, R450, R451). -/
namespace Sys2Proof.Machine

/-! ## The invariant -/

/-- What an outcome leaves meets the invariant. -/
def InvTo (r : Res) : Prop := ∀ t, r = .next t → t.Inv

theorem InvTo.next {t : State} (h : t.Inv) : InvTo (.next t) := by
  rintro _ ⟨⟩
  exact h

theorem InvTo.ite {q r : Res} {p : Prop} {d : Decidable p} (hq : InvTo q) (hr : InvTo r) : InvTo (if p then q else r) :=
  ite_keeps (P := InvTo) hq hr

theorem InvTo.when {s t : State} {b : Bool} (hs : s.Inv) (ht : b = true → t.Inv) : InvTo (eventIf s b t) := by
  unfold eventIf
  split
  · next hb => exact .next (ht hb)
  · exact .next hs

theorem State.Keeps.inv {s t : State} (h : s.Keeps t) (hi : s.Inv) : t.Inv := by
  have hset := h.settings
  simp only [State.settings, Prod.mk.injEq] at hset
  obtain ⟨⟨hbar, hfreq, hth⟩, ⟨hready, hrec, hlife⟩, -, -⟩ := hset
  obtain ⟨hhbm, hhost, hbuf⟩ := h.sound ⟨hi.hbm, hi.host, hi.buffer⟩
  exact ⟨hhbm, hhost, hbuf, hbar ▸ hi.bar, hfreq ▸ hi.step, by rw [hth, hfreq]; exact hi.held, by rw [hready, hrec, hlife]; exact hi.up⟩

theorem State.KeepsTo.inv {s : State} {r : Res} (h : s.KeepsTo r) (hi : s.Inv) : InvTo r := fun t ht => (h t ht).inv hi

/-! ## Words -/

theorem issue_keeps (i : Instr) (body : Body) (s : State) : s.KeepsTo (issue i body s) := by
  unfold issue
  dsimp only
  split
  · exact .next (.same rfl)
  · split
    · exact .next (.same rfl)
    · exact .next (.same rfl)

theorem issueM_keeps (i : Instr) (body : Body) (s : State) : s.KeepsTo (issueM i body s) := issue_keeps _ _ s

theorem prefixWord_keeps (free : Issue → Bool) (f : Issue → Issue) (s : State) : s.KeepsTo (prefixWord free f s) :=
  .ite (.next (.same rfl)) (.next (.same rfl))

theorem execSfxArv_keeps (ch : Bool) (a : BitVec 19) (s : State) : s.KeepsTo (execSfxArv ch a s) := by
  unfold execSfxArv
  dsimp only
  split <;> exact .next (.same rfl)

/-! ## Events that keep the settings -/

theorem execBudgetExpiry_keeps (n : Nat) (s : State) : s.KeepsTo (execBudgetExpiry n s) := .when (s.deadline_works n).toKeeps

theorem execRefreshForce_keeps (ch : Nat) (s : State) : s.KeepsTo (execRefreshForce ch s) := .when (.same rfl)

theorem execHeartbeat_keeps (s : State) : s.KeepsTo (execHeartbeat s) := .when (.same rfl)

theorem execFenceCommand_keeps (q : Nat) (s : State) : s.KeepsTo (execFenceCommand q s) :=
  s.startHead_keeps _ q fun _ _ t => t.finishStatus_keeps ..

theorem execNopc_keeps (q : Nat) (s : State) : s.KeepsTo (execNopc q s) := s.startHead_keeps _ q fun _ _ t => t.finishStatus_keeps ..

theorem execAtsInvalidation_keeps (g : Nat) (s : State) : s.KeepsTo (execAtsInvalidation g s) := .when (.same rfl)

theorem execGetMeasurements_keeps (who : Master) (index : Nat) (s : State) : s.KeepsTo (execGetMeasurements who index s) := by
  unfold execGetMeasurements
  refine .ite (.stay s) ?_
  split
  · exact .next (.says rfl (List.prefix_append _ _))
  · exact .next (s.says_keeps _)

theorem execNegotiateAlgorithms_keeps (who : Master) (offers : Bool) (s : State) : s.KeepsTo (execNegotiateAlgorithms who offers s) :=
  .ite (.stay s) (.ite (.next (s.says_keeps _)) (.next (.says rfl (List.prefix_append _ _))))

theorem execLockInterface_keeps (s : State) : s.KeepsTo (execLockInterface s) :=
  .ite (.stay s) (.ite (.next (.says rfl (List.prefix_append _ _))) (.next (s.says_keeps _)))

theorem execStartInterface_keeps (s : State) : s.KeepsTo (execStartInterface s) :=
  .ite (.stay s) (.ite (.next (.says rfl (List.prefix_append _ _))) (.next (s.says_keeps _)))

theorem execStopInterface_keeps (s : State) : s.KeepsTo (execStopInterface s) := by
  unfold execStopInterface
  refine .ite (.stay s) ?_
  split
  · exact .next (s.says_keeps _)
  · exact .ite (.next (.same rfl)) (.next (.says rfl (List.prefix_append _ _)))
  · exact .next (s.stopTenants_keeps.trans (.same (by rfl)))

theorem execSramClearComplete_keeps (s : State) : s.KeepsTo (execSramClearComplete s) :=
  .ite (.stay s) (.next (.ite (.says (by rfl) (List.prefix_append _ _)) (.same (by rfl))))

theorem execGetDeviceInterfaceReport_keeps (s : State) : s.KeepsTo (execGetDeviceInterfaceReport s) :=
  .ite (.stay s) (.ite (.next (s.says_keeps _)) (.next (s.says_keeps _)))

theorem execGetDeviceInterfaceState_keeps (s : State) : s.KeepsTo (execGetDeviceInterfaceState s) := .when (s.says_keeps _)

theorem execFirmwareUpdateSession_keeps (who : Master) (isOpen : Bool) (s : State) : s.KeepsTo (execFirmwareUpdateSession who isOpen s) := by
  unfold execFirmwareUpdateSession
  refine .ite (.stay s) (.ite ?_ (.ite (.next (.says rfl (List.prefix_append _ _))) (.next (s.says_keeps _))))
  split
  · exact .next (.says rfl (List.prefix_append _ _))
  · exact .next (s.says_keeps _)

theorem execPldmMonitoring_keeps (s : State) : s.KeepsTo (execPldmMonitoring s) :=
  .ite (.stay s) (.ite (.next (s.says_keeps _)) (.next (.says rfl (List.prefix_append _ _))))

/-! ## Events that change a setting -/

theorem execRailStateChange_inv (rail : Nat) (up : Bool) {s : State} (hi : s.Inv) : InvTo (execRailStateChange rail up s) := by
  have hports (l : List Nat) (os : List Output) : State.Inv { s with portsDown := l, outs := os } :=
    ⟨hi.hbm, hi.host, hi.buffer, hi.bar, hi.step, hi.held, hi.up⟩
  have hrails (l : List Nat) (os : List Output) : State.Inv { s with d2dDown := l, outs := os } :=
    ⟨hi.hbm, hi.host, hi.buffer, hi.bar, hi.step, hi.held, hi.up⟩
  unfold execRailStateChange
  dsimp only
  refine .ite (.ite (.next hi) ?_) (.ite (.ite (.next hi) ?_) (.next hi))
  · exact .next (State.Keeps.inv
      (.ite (.ite (State.fallBack_keeps ..) (.refl _)) (.trans (.ite (State.fallBack_keeps ..) (.refl _)) (State.loseFabric_keeps _))) (hports _ _))
  · exact .next (State.Keeps.inv (.trans (.ite (State.loseD2d_keeps _).1 (.refl _)) (State.sendAnswers_keeps _)) (hrails _ _))

/-- A write that R442 guards keeps the invariant where its function does. -/
theorem State.guardedConfig_inv {s : State} {f : State → State} (hi : s.Inv) (hf : (f s).Inv) : (s.guardedConfig f).Inv := by
  unfold State.guardedConfig
  split
  · exact hf
  · exact hi
  · exact s.enterError_keeps.inv hi

theorem State.Inv.bar4 {s : State} (hi : s.Inv) (n : Nat) : State.Inv (if 30 ≤ n && n ≤ 39 then { s with bar4 := n } else s) := by
  split
  · next h => exact ⟨hi.hbm, hi.host, hi.buffer, by simpa using h, hi.step, hi.held, hi.up⟩
  · exact hi

theorem execBarResize_inv (log2 : Nat) {s : State} (hi : s.Inv) : InvTo (execBarResize log2 s) :=
  .ite (.next hi) (.next (State.guardedConfig_inv hi (hi.bar4 log2)))

theorem execPcieConfigWrite_inv (r : ConfigReg) (v : W64) {s : State} (hi : s.Inv) : InvTo (execPcieConfigWrite r v s) := by
  refine .ite (.next hi) ?_
  cases r with
  | decode => exact .next (State.guardedConfig_inv hi (State.Keeps.inv (s := s) (.same (by rfl)) hi))
  | msix => exact .next (State.guardedConfig_inv hi (State.Keeps.inv (s := s) (.same (by rfl)) hi))
  | resizableBar => exact .next (State.guardedConfig_inv hi (hi.bar4 v.toNat))
  | ide => exact .next (State.Keeps.inv (s := s) (.same (by rfl)) hi)
  | other => exact .next (State.Keeps.inv (s := s) (.same (by rfl)) hi)

/-! ## Resets, frequency and limits -/

/-- A reset needs the memories in canonical form, a legal step, and the step at 0 under the limit. -/
theorem State.afterReset_inv {s : State} (hhbm : Memory.wf s.hbm = true) (hhost : Memory.wf s.hostMem = true) (hstep : s.freq ≤ 7)
    (hheld : s.thermal = true → s.freq = 0) : s.afterReset.Inv := by
  refine ⟨hhbm, hhost, rfl, ⟨Nat.le_refl 30, Nat.le_add_right 30 9⟩, hstep, hheld, fun h => ?_⟩
  change (!s.recovery && Lifecycle.serves s.lifecycle) = true at h
  obtain ⟨hrec, hserves⟩ := Bool.and_eq_true_iff.1 h
  refine ⟨(Bool.not_eq_true' _).mp hrec, fun hl => ?_⟩
  change s.lifecycle = .scrapped at hl
  rw [hl] at hserves
  exact absurd hserves (by decide)

theorem State.Inv.reset {s : State} (hi : s.Inv) : s.afterReset.Inv := State.afterReset_inv hi.hbm hi.host hi.step hi.held

theorem State.verify_inv {s : State} (hi : s.Inv) (a b : Bool) : (s.verify a b).Inv := by
  refine ⟨hi.hbm, hi.host, hi.buffer, hi.bar, hi.step, hi.held, fun h => ?_⟩
  change ((a && !s.slotA.failed || b && !s.slotB.failed) && Lifecycle.serves s.lifecycle) = true at h
  obtain ⟨hany, hserves⟩ := Bool.and_eq_true_iff.1 h
  constructor
  · change (!(a && !s.slotA.failed) && !(b && !s.slotB.failed)) = false
    rw [← Bool.not_or, hany]
    rfl
  · intro hl
    change s.lifecycle = .scrapped at hl
    rw [hl] at hserves
    exact absurd hserves (by decide)

theorem State.coldReset_inv {s : State} (hi : s.Inv) (a b : Bool) : (s.coldReset a b).Inv := by
  have h := State.verify_inv hi.reset a b
  exact ⟨h.hbm, h.host, h.buffer, h.bar, h.step, h.held, h.up⟩

theorem execColdReset_inv (a b : Bool) {s : State} (hi : s.Inv) : InvTo (execColdReset a b s) := .next (State.coldReset_inv hi a b)

theorem execEmergencyWipe_inv (a b : Bool) {s : State} (hi : s.Inv) : InvTo (execEmergencyWipe a b s) :=
  .ite (.next hi) (.ite (.next ((s.says_keeps _).inv hi)) (.next (State.coldReset_inv hi.reset a b)))

theorem execFunctionLevelReset_inv {s : State} (hi : s.Inv) : InvTo (execFunctionLevelReset s) := .when hi fun _ => hi.reset

theorem execHotReset_inv {s : State} (hi : s.Inv) : InvTo (execHotReset s) := .when hi fun _ => hi.reset

theorem execLifecycleToken_inv (target : Lifecycle) (valid : Bool) {s : State} (hi : s.Inv) : InvTo (execLifecycleToken target valid s) := by
  have hmoved : (s.enterLifecycle target).afterReset.Inv := State.afterReset_inv hi.hbm hi.host hi.step hi.held
  exact .ite (.next hi) (.ite (.next ((State.says_keeps _ _).inv hmoved)) (.next ((s.says_keeps _).inv hi)))

theorem execHbmZeroFillDone_inv {s : State} (hi : s.Inv) : InvTo (execHbmZeroFillDone s) :=
  .when hi fun _ => (State.noteReady_keeps _).inv ⟨rfl, hi.host, hi.buffer, hi.bar, hi.step, hi.held, hi.up⟩

theorem execFrequencyStepChange_inv (n : Nat) {s : State} (hi : s.Inv) : InvTo (execFrequencyStepChange n s) := by
  refine .when hi fun h => ?_
  simp only [Bool.and_eq_true, Bool.or_eq_true, decide_eq_true_eq, Bool.not_eq_true', beq_iff_eq] at h
  obtain ⟨⟨-, hn⟩, hth⟩ := h
  exact ⟨hi.hbm, hi.host, hi.buffer, hi.bar, hn, fun h => hth.resolve_left (ne_false_of_eq_true h), hi.up⟩

theorem execThermalStepDown_inv {s : State} (hi : s.Inv) : InvTo (execThermalStepDown s) :=
  .when hi fun _ => ⟨hi.hbm, hi.host, hi.buffer, hi.bar, Nat.le_trans (Nat.sub_le _ _) hi.step, fun h => by rw [hi.held h], hi.up⟩

theorem State.trip_inv {s : State} (hi : s.Inv) : s.trip.Inv := by
  have h := (s.abortAll_keeps (fun _ => true) (KernelEnd.plain 2 (TrapCode.num .feAbort) 2)).inv hi
  exact ⟨h.hbm, h.host, h.buffer, h.bar, Nat.zero_le 7, fun _ => rfl, h.up⟩

theorem execThermalTrip_inv {s : State} (hi : s.Inv) : InvTo (execThermalTrip s) := .next (State.trip_inv hi)

theorem execPowerLimitTrip_inv {s : State} (hi : s.Inv) : InvTo (execPowerLimitTrip s) := .next (State.trip_inv hi)

theorem execThermalClear_inv {s : State} (hi : s.Inv) : InvTo (execThermalClear s) :=
  .when hi fun _ => ⟨hi.hbm, hi.host, hi.buffer, hi.bar, hi.step, fun h => (nomatch h), hi.up⟩

/-! ## Every instruction -/

/-- What any instruction, event or command leaves meets the invariant of the package. -/
theorem exec_inv (i : Instr) {s : State} (hi : s.Inv) : InvTo (exec i s) := by
  cases i with
  | pfxImm | pfxFmt | pfxTs | pfxRow =>
    unfold exec
    exact (prefixWord_keeps _ _ _).inv hi
  | sfxArv ch a => exact (execSfxArv_keeps ch a s).inv hi
  | mov | vmov | movi | qdrop | qlen | vbcast | vext | vins | add | sub | mul | mulh | and | or | xor | shl | shr | sra | min | max
  | ceq | clt | cltu | sel | addi | clz | popc | bfx | br | brz | brnz | call | ret | loop | loopf | nop | waitlt | step | rdv
  | halt | vadd | vsub | vmul | vfma | vfms | vmin | vmax | vabs | vand | vor | vxor | vshl | vshr | vceq | vclt | vsel | vrcp
  | vrsq | vexp2 | vlog2 | vred | vredx | vperm | vcomp | vhash | vlane | vcvt | vquant | vdequant | vscale | vpack | vunpack
  | vcvts | ld | st | vld | vst | vgath | vscat | bdecl | bset | atom | vatom | bstat | rgath | cpGet | cpPut | cpGath | cpFill
  | cpScrub | cpFence | cpWait | cpWp | cpBind | cpInv | cpAmo | barInit | barArv | barWait | snd | rcv | fence | acq | rel | ltrd
  | clBase | clFire | clStat | pkSnd | ampMap | ampGate | ampDiag | ampCtl | ampSwap | ampNorm | ampProb | ampInit | qrTab | qrSeed
  | qrGen | qrGenf | qrSkip | trap | brk | icinv | rdsys | wrsys =>
    unfold exec
    exact (issue_keeps _ _ _).inv hi
  | mxLdb | mxLdbs | mxLds | mxPair | mxRun | mxClr | mxRd | mxWr | mxEpi | mxArow | mxSig | mxMode =>
    unfold exec
    exact (issueM_keeps _ _ _).inv hi
  | resultLand n k => exact (execResultLand_keeps n k s).inv hi
  | sendArrival k => exact (execSendArrival_keeps k s).inv hi
  | timedBeatArrival n id beat => exact (execTimedBeatArrival_keeps n id beat s).inv hi
  | copyStart n id => exact (execCopyStart_keeps n id s).inv hi
  | copyBeatDone n id beat data => exact (execCopyBeatDone_keeps n id beat data s).inv hi
  | atsCompletion n w granule v => exact (execAtsCompletion_keeps n w granule v s).inv hi
  | atsInvalidation granule => exact (execAtsInvalidation_keeps granule s).inv hi
  | priResponse n ok => exact (execPriResponse_keeps n ok s).inv hi
  | trapHandling => exact (execTrapHandling_keeps s).inv hi
  | matrixTwinRerun n => exact (execMatrixTwinRerun_keeps n s).inv hi
  | rdvRelease n slot => exact (execRdvRelease_keeps n slot s).inv hi
  | stepRelease k => exact (execStepRelease_keeps k s).inv hi
  | budgetExpiry n => exact (execBudgetExpiry_keeps n s).inv hi
  | pairRowArrival n => exact (execPairRowArrival_keeps n s).inv hi
  | pairTimeout n => exact (execPairTimeout_keeps n s).inv hi
  | ampChunkArrival n peer => exact (execAmpChunkArrival_keeps n peer s).inv hi
  | coreHaltReport n => exact (execCoreHaltReport_keeps n s).inv hi
  | kernelFinish k => exact (execKernelFinish_keeps k s).inv hi
  | remoteArrival k => exact (execRemoteArrival_keeps k s).inv hi
  | pkSndArrival k peer => exact (execPkSndArrival_keeps k peer s).inv hi
  | pkSndRefusal n id => exact (execPkSndRefusal_keeps n id s).inv hi
  | icinvRequestArrival k => exact (execIcinvRequestArrival_keeps k s).inv hi
  | hbmAccessAccept n id beat => exact (execHbmAccessAccept_keeps n id beat s).inv hi
  | hbmWriteDrain ch => exact (execHbmWriteDrain_keeps ch s).inv hi
  | hbmRefresh ch => exact (execHbmRefresh_keeps ch s).inv hi
  | refreshForce ch => exact (execRefreshForce_keeps ch s).inv hi
  | peerAccess r => exact (execPeerAccess_keeps r s).inv hi
  | linkBeatReceive group beats xor => exact (execLinkBeatReceive_keeps group beats xor s).inv hi
  | railStateChange rail up => exact execRailStateChange_inv rail up hi
  | collectivePacketArrival p => exact (execCollectivePacketArrival_keeps p s).inv hi
  | chunkOpComplete h op => exact (execChunkOpComplete_keeps h op s).inv hi
  | planProgressTimeout h => exact (execPlanProgressTimeout_keeps h s).inv hi
  | planSetupConfirm h who ok => exact (execPlanSetupConfirm_keeps h who ok s).inv hi
  | planSetupTimeout h => exact (execPlanSetupTimeout_keeps h s).inv hi
  | hostTrigger off width v tee => exact (execHostTrigger_keeps off width v tee s).inv hi
  | launch q => exact (execLaunch_keeps q s).inv hi
  | wait q => exact (execWait_keeps q s).inv hi
  | waitReread q => exact (execWaitReread_keeps q s).inv hi
  | signal q => exact (execSignal_keeps q s).inv hi
  | fenceCommand q => exact (execFenceCommand_keeps q s).inv hi
  | fire q => exact (execFire_keeps q s).inv hi
  | planSetup q => exact (execPlanSetup_keeps q s).inv hi
  | planFree q => exact (execPlanFree_keeps q s).inv hi
  | copy q k => exact (execCopy_keeps q k s).inv hi
  | scrub q k => exact (execScrub_keeps q k s).inv hi
  | cal q => exact (execCal_keeps q s).inv hi
  | group q => exact (execGroup_keeps q s).inv hi
  | preempt q => exact (execPreempt_keeps q s).inv hi
  | contextSaveComplete q => exact (execContextSaveComplete_keeps q s).inv hi
  | resume q => exact (execResume_keeps q s).inv hi
  | nopc q => exact (execNopc_keeps q s).inv hi
  | exportEntry q => exact (execExportEntry_keeps q s).inv hi
  | queueStarvationTimeout q => exact (execQueueStarvationTimeout_keeps q s).inv hi
  | queueEnable q v tee => exact (execQueueEnable_keeps q v tee s).inv hi
  | queueDisable q v tee => exact (execQueueDisable_keeps q v tee s).inv hi
  | qtailWrite q width v tee => exact (execQtailWrite_keeps q width v tee s).inv hi
  | doorbellWrite k => exact (execDoorbellWrite_keeps k s).inv hi
  | ap4baseWrite v tee => exact (execAp4baseWrite_keeps v tee s).inv hi
  | bar4Access off width wr => exact (execBar4Access_keeps off width wr s).inv hi
  | barResize log2 => exact execBarResize_inv log2 hi
  | pkgnumWrite v tee => exact (execPkgnumWrite_keeps v tee s).inv hi
  | setPkgnum payload => exact (execSetPkgnum_keeps payload s).inv hi
  | registerWrite off width v tee => exact (execRegisterWrite_keeps off width v tee s).inv hi
  | debugOpen v tee => exact (execDebugOpen_keeps v tee s).inv hi
  | debugClose v tee => exact (execDebugClose_keeps v tee s).inv hi
  | debugHalt v tee => exact (execDebugHalt_keeps v tee s).inv hi
  | debugResume v tee => exact (execDebugResume_keeps v tee s).inv hi
  | debugStep v tee => exact (execDebugStep_keeps v tee s).inv hi
  | debugRead v tee => exact (execDebugRead_keeps v tee s).inv hi
  | debugWrite v tee => exact (execDebugWrite_keeps v tee s).inv hi
  | debugCancel v tee => exact (execDebugCancel_keeps v tee s).inv hi
  | scanStart => exact (execScanStart_keeps s).inv hi
  | scanMove => exact (execScanMove_keeps s).inv hi
  | scanPassComplete ok => exact (execScanPassComplete_keeps ok s).inv hi
  | heartbeat => exact (execHeartbeat_keeps s).inv hi
  | takeover cause selfTest => exact (execTakeover_keeps cause selfTest s).inv hi
  | firmwareUpdate who image valid => exact (execFirmwareUpdate_keeps who image valid s).inv hi
  | probationEnd ok => exact (execProbationEnd_keeps ok s).inv hi
  | getMeasurements who index => exact (execGetMeasurements_keeps who index s).inv hi
  | lockInterface => exact (execLockInterface_keeps s).inv hi
  | startInterface => exact (execStartInterface_keeps s).inv hi
  | stopInterface => exact (execStopInterface_keeps s).inv hi
  | getDeviceInterfaceReport => exact (execGetDeviceInterfaceReport_keeps s).inv hi
  | getDeviceInterfaceState => exact (execGetDeviceInterfaceState_keeps s).inv hi
  | pcieConfigWrite r v => exact execPcieConfigWrite_inv r v hi
  | lifecycleToken target valid => exact execLifecycleToken_inv target valid hi
  | emergencyWipe slotA slotB => exact execEmergencyWipe_inv slotA slotB hi
  | coldReset slotA slotB => exact execColdReset_inv slotA slotB hi
  | functionLevelReset => exact execFunctionLevelReset_inv hi
  | hotReset => exact execHotReset_inv hi
  | hbmZeroFillDone => exact execHbmZeroFillDone_inv hi
  | firmwareUpdateSession who isOpen => exact (execFirmwareUpdateSession_keeps who isOpen s).inv hi
  | pldmMonitoring => exact (execPldmMonitoring_keeps s).inv hi
  | frequencyStepChange n => exact execFrequencyStepChange_inv n hi
  | thermalStepDown => exact execThermalStepDown_inv hi
  | thermalTrip => exact execThermalTrip_inv hi
  | powerLimitTrip => exact execPowerLimitTrip_inv hi
  | thermalClear => exact execThermalClear_inv hi
  | peerAccessRefusal n id beat => exact (execPeerAccessRefusal_keeps n id beat s).inv hi
  | coreTriggerArrival k => exact (execCoreTriggerArrival_keeps k s).inv hi
  | retransmitRequest k => exact (execRetransmitRequest_keeps k s).inv hi
  | flushingReadComplete n id => exact (execFlushingReadComplete_keeps n id s).inv hi
  | sramClearComplete => exact (execSramClearComplete_keeps s).inv hi
  | negotiateAlgorithms who offersSlhDsa => exact (execNegotiateAlgorithms_keeps who offersSlhDsa s).inv hi

/-! ## Turns -/

theorem State.takeReads_keeps (s : State) (n : Nat) (rs : LineReads) (d : Core) : s.Keeps (s.takeReads n rs d) :=
  (s.setCore_keeps n d).trans (State.foldl_keeps' (fun s _ => .ite (s.crossRange_keeps ..) (.refl s)) _ _)

theorem State.stall_keeps (s : State) (n : Nat) : s.Keeps (s.stall n) := (s.stall_works n).toKeeps

theorem State.tick_keeps (s : State) (n x : Nat) : s.Keeps (s.tick n x) := (s.tick_works n x).toKeeps

theorem State.passes_keeps (s : State) (k : Nat) : s.Keeps { s with phys := k } := .same rfl

theorem State.haltTurn_keeps (s : State) (n : Nat) : s.Keeps (s.haltTurn n) := by
  unfold State.haltTurn
  dsimp only
  refine (s.modCore_keeps n Core.dropLate).trans ?_
  split
  · exact State.tick_keeps ..
  · refine .ite (.same (by rfl)) ?_
    split
    · exact .same rfl
    · exact .ite (.same (by rfl)) ((State.logRewind_keeps _ n 0).trans (State.setCore_keeps ..))

theorem State.stillTurn_keeps (s : State) (n : Nat) : s.Keeps (s.stillTurn n) := by
  unfold State.stillTurn
  dsimp only
  split
  · exact .ite (s.tick_keeps ..) (.same (by rfl))
  · exact .same rfl

section
variable {run : Instr → State → Res} (hrun : ∀ i s, State.Inv s → InvTo (run i s))
include hrun

theorem runWords_inv (n : Nat) (is : List (Nat × Instr)) {s : State} (hi : s.Inv) : InvTo (runWords run n is s) := by
  induction is generalizing s with
  | nil => exact .next hi
  | cons w ws ih =>
    have hword := hrun w.2 _ ((s.modCore_keeps n fun c => { c with cx := { c.cx with word := w.1 } }).inv hi)
    unfold runWords
    split
    · next t ht => exact .ite (.next (hword t ht)) (ih (hword t ht))
    · next hne => exact fun t ht => absurd ht (hne t)

omit hrun in
theorem State.afterWords_inv {before entered s : State} (n : Nat) (hb : before.Inv) (he : entered.Inv) (hi : s.Inv) :
    (State.afterWords before entered s n).Inv := by
  unfold State.afterWords
  dsimp only
  refine ite_keeps (P := State.Inv) ?_ (ite_keeps (P := State.Inv) ?_ ?_)
  · split
    · exact ((before.modCore_keeps n _).trans (State.takeTrap_keeps ..)).inv hb
    · exact hb
  · exact ((entered.stall_keeps n).trans (State.modCore_keeps ..)).inv he
  · split
    · exact (State.takeTrap_keeps ..).inv hb
    · exact (State.Keeps.ite ((s.setCore_works n _).trans (State.drain_works _ n)).toKeeps (s.setCore_keeps n _)).inv hi

theorem State.runBundle_inv {before s : State} (n : Nat) (entry : Bool) (ws : List (Nat × Word)) (hb : before.Inv) (hi : s.Inv) :
    InvTo (State.runBundle run before s n entry ws) := by
  have hwords (is : List (Nat × Instr)) := runWords_inv hrun n is ((s.modCore_keeps n fun c => { c with cx := s.issueContext c entry ws }).inv hi)
  unfold State.runBundle
  dsimp only
  split
  · next t ht => exact .next (State.afterWords_inv n hb hi (hwords _ t ht))
  · next hne => exact fun t ht => absurd ht (hne t)

theorem State.issueBundle_inv {s : State} (n : Nat) (b : Bundle) (hi : s.Inv) : InvTo (State.issueBundle run s n b) := by
  have htrap (t : Trap) : InvTo (.next (takeTrap n t s)) := .next ((State.takeTrap_keeps n t s).inv hi)
  unfold State.issueBundle
  dsimp only
  split
  · exact htrap _
  · refine .ite (htrap _) (.ite ?_ (State.runBundle_inv hrun n _ _ hi hi))
    split
    · exact .next ((s.stall_keeps n).inv hi)
    · exact htrap _
    · exact .next (((s.stall_keeps n).trans (State.modCore_keeps ..)).inv hi)
    · exact State.runBundle_inv hrun n _ _ hi (((s.logRewind_keeps n 0).trans (State.modCore_keeps ..)).inv hi)

theorem State.bundleTurn_inv {s : State} (n : Nat) (hi : s.Inv) : InvTo (State.bundleTurn run s n) := by
  have hr := (s.reach_works n (s.core n).a.next).toKeeps.inv hi
  unfold State.bundleTurn
  dsimp only
  generalize s.reach n (s.core n).a.next = r at hr ⊢
  have htrap (t : Trap) : InvTo (.next (takeTrap n t r)) := .next ((State.takeTrap_keeps n t r).inv hr)
  refine .ite (htrap _) (.ite (htrap _) ?_)
  split
  · exact .next (((r.setCore_keeps n _).trans (State.takeTrap_keeps ..)).inv hr)
  · exact .next ((r.stall_keeps n).inv hr)
  · split
    · exact State.issueBundle_inv hrun n _ ((r.takeReads_keeps ..).inv hr)
    · exact .next (((r.takeReads_keeps ..).trans (State.takeTrap_keeps ..)).inv hr)
    · exact .next (((r.takeReads_keeps ..).trans (State.stall_keeps ..)).inv hr)

theorem State.bundleOrDeadline_inv {s : State} (n : Nat) (hi : s.Inv) : InvTo (State.bundleOrDeadline run s n) := by
  unfold State.bundleOrDeadline
  dsimp only
  split
  · exact .next ((s.standAt_works n _).toKeeps.inv hi)
  · exact .ite (.next ((s.deadline_works n).toKeeps.inv hi)) (State.bundleTurn_inv hrun n hi)

theorem State.runTurn_inv {s : State} (n : Nat) (hi : s.Inv) : InvTo (State.runTurn run s n) := by
  unfold State.runTurn
  dsimp only
  refine .ite (.next ((s.deadline_works n).toKeeps.inv hi)) ?_
  split
  · exact .ite (.next ((s.tick_keeps n _).inv hi)) (State.bundleOrDeadline_inv hrun n hi)
  · exact State.bundleOrDeadline_inv hrun n hi

theorem State.turn_inv {s : State} (n : Nat) (hi : s.Inv) : InvTo (State.turn run s n) := by
  have hcur : State.Inv { s with cur := n } := State.Keeps.inv (s := s) (.same (by rfl)) hi
  unfold State.turn
  extract_lets t
  change t.Inv at hcur
  clear_value t
  have hissues := State.runTurn_inv hrun n hcur
  have hstill : InvTo (.next (t.stillTurn n)) := .next ((t.stillTurn_keeps n).inv hcur)
  have hpass : InvTo (.next { t with phys := t.phys + 1 }) := .next ((t.passes_keeps _).inv hcur)
  cases (t.core n).run with
  | running => exact hissues
  | frozen => exact hstill
  | halting code => exact .next ((State.Keeps.ite (t.passes_keeps _) (t.haltTurn_keeps n)).inv hcur)
  | debug stepping =>
    cases stepping with
    | true => exact .ite hstill hissues
    | false => exact hpass
  | idle | trapped | requeued | halted => exact hpass

end

/-- A turn of a front-end core leaves the package's settings and memories alone, whatever its words do. -/
theorem State.frontTurn_keeps (run : Instr → State → Res) (s : State) (d : Bool) : s.KeepsTo (State.frontTurn run s d) := by
  unfold State.frontTurn
  dsimp only
  refine .ite ?_ (.next (.same rfl))
  split
  · exact .next ((s.setFront_keeps ..).trans (State.passes_keeps ..))
  · next hne => exact fun t ht => absurd ht (hne t)

/-! ## Disturbances -/

theorem State.disturb_keeps (s : State) (d : Disturb) : s.KeepsTo (s.disturb d) := by
  have hcore (n : Nat) (f : Core → Core) : s.KeepsTo (s.disturbCore n f) := .next (s.modCore_keeps n f)
  cases d with
  | evict | corrupt | spadError | readError | scaleError | queueError | latchError | flightError | seqError | residue | slow | tlbParity
  | critical => exact hcore _ _
  | hbmError | hbmCorrectable | linkAck | replay | peerHandles => exact .when (.same rfl)
  | hostWrite a b => exact .next (.wrote rfl (fun h => ⟨h.hbm, wf_writeByte _ _ _ h.host, h.buffer⟩))
  | hostRead bar2 off tee => exact s.hostRead_keeps bar2 off tee
  | pkRefused n id code =>
    change s.KeepsTo (s.peerRefusal n id code)
    unfold State.peerRefusal
    dsimp only
    split
    · split
      · exact .when (.same rfl)
      · exact .stay s
    · exact .stay s
  | chunkDiffered n seq => exact .ite (hcore _ _) (.stay s)
  | peerSetup q h d => exact s.peerSetup_keeps q h d
  | peerSetupDone h ok => exact s.peerSetupDone_keeps h ok
  | peerFree h => exact s.peerFree_keeps h
  | peerNews h x => exact s.peerNews_keeps h x
  | profile => exact .next (.same rfl)
  | frontError d => exact .next (s.setFront_keeps ..)
  | pass k => exact .next (.same rfl)

/-! ## The step -/

theorem State.frontHanded_keeps (s : State) : s.Keeps s.frontHanded := .ite ((s.setFront_keeps ..).trans (.same (by rfl))) (.refl s)

theorem State.journalled_keeps (s : State) (j : Journal) : s.Keeps { s with journal := j } := .same rfl

theorem State.afterFront_keeps (s : State) : s.Keeps s.afterFront :=
  (s.noteReady_keeps.trans (State.frontHanded_keeps _)).trans (State.journalled_keeps _ _)

theorem noted_inv {r : Res} (h : InvTo r) : InvTo (noted r) := by
  unfold noted
  split
  · next s => exact .next ((s.afterFront_keeps).inv (h s rfl))
  · next hne => exact fun t ht => absurd ht (hne t)

/-- Settles O55: each entry of the agenda is a turn, an event or a disturbance. Most keep the settings and the canonical form (`Keeps`);
resets, the BAR size and the frequency step meet the invariant by what they set. -/
theorem stepKeepsInvariant : Obligations.StepKeepsInvariant := by
  intro s t hi ht
  have hrest (r : List Turn) : State.Inv { s with agenda := r } := State.Keeps.inv (s := s) (.same (by rfl)) hi
  suffices h : InvTo (step s) from h t ht
  unfold step
  split
  · exact State.turn_inv (fun i _ h => exec_inv i h) s.cur hi
  · exact State.turn_inv (fun i _ h => exec_inv i h) _ (hrest _)
  · exact (State.frontTurn_keeps exec _ _).inv (hrest _)
  · exact .ite (.next (hrest _)) (noted_inv (exec_inv _ (hrest _)))
  · exact noted_inv ((State.disturb_keeps _ _).inv (hrest _))

end Sys2Proof.Machine
end
